-- ==== Sys2Proof/Word.lean ====
section
/-! DEFINITION. The words of the K8W22 model: bytes and the register widths the manual names (R5, R6, R533).
Counts, sizes, lines, dots and times are natural numbers or integers; only what the manual treats as bits is a bit
vector. -/

namespace Sys2Proof

/-- One byte of a message, of a packet or of the image memory. -/
abbrev Byte := BitVec 8

/-- One 32-bit register of the host window, or one 32-bit message field kept as bits (R533). -/
abbrev Word := BitVec 32

/-- One data bit string of a payload, a frame or a packet body: bytes in rising offset order (R6). -/
abbrev Bytes := List (BitVec 8)

end Sys2Proof
end

