-- ==== Sys2Proof/Syntax.lean ====
section
/-! DEFINITION. The commands the block takes, one constructor of `Instr` per row of spec/opcode_table.json, in the
table's order. A row that is a mailbox operation carries the whole message (`Msg`): ring, seq, handle, flags and the
payload bytes at the offsets the manual's payload tables give. A row that is a register write, a link packet, a pin
event or a step of one of the device's own engines carries what that step takes from outside. Register numbers, bars,
lanes, ports and inputs are `Fin`, so a command cannot name one the device does not have. -/

namespace Sys2Proof

/-- A mailbox message as it stands after its frame has been taken apart (R43): the transport instance it came from
(0 = the PCIe ring set, otherwise the session_id of an Ethernet session, R61), its command ring, `seq`, `handle`, `flags` and
payload. The opcode is the constructor of `Instr` that carries it. -/
structure Msg where
  inst    : Nat
  ring    : Fin 4
  seq     : BitVec 32
  flags   : BitVec 8
  handle  : BitVec 32
  payload : List Byte
  deriving DecidableEq, Repr

/-- A ring or status-block register that sets up the rings (R38, mailbox register map of 02). -/
inductive SetupReg where
  | statusBlkLo
  | statusBlkHi
  | baseLo (ring : Fin 6)
  | baseHi (ring : Fin 6)
  deriving DecidableEq, Repr

/-- The message classes of Saddle (R10). -/
inductive SaddleClass where
  | mbx | data | evt | time | hb | aud | dbg
  deriving DecidableEq, Repr

/-- What the state of the sequencer that compares differs by from that of the sequencer that drives (R216): the counters of
the four inputs, the loop (Phi and v, web lines x 2^32), the next fire line of each bar, and the CRC-32C of its fire
blocks, as the XOR of the two. -/
structure SeqDev where
  counts : List Int := List.replicate 4 0
  phi    : Int := 0
  vel    : Int := 0
  lines  : List Int := List.replicate 8 0
  crcs   : List (BitVec 32) := List.replicate 8 0
  deriving DecidableEq, Repr

/-- What a received Ethernet frame is addressed to (R413, first condition). -/
inductive EthDst where
  | own | broadcast | ptpMulticast | other
  deriving DecidableEq, Repr

/-- The payload of a received Ethernet frame, as far as R413 tells frames apart. `udp` carries the destination port. -/
inductive EthKind where
  | arp
  | ptpRaw
  | udp4 (dport : Nat)
  | udp6 (dport : Nat)
  | icmp4Echo
  | icmp6EchoOrNd
  | routerAdvert (router : Nat)
  | pause
  | otherIp
  | otherType
  deriving DecidableEq, Repr

/-- One part of a fragmented IP datagram (R70): datagram id, byte offset, bytes in this part, whether it is the last. -/
structure Fragment where
  ident  : Nat
  offset : Nat
  size   : Nat
  last   : Bool
  deriving DecidableEq, Repr

/-- A received Ethernet frame as the port judges it (R413, R70). -/
structure EthFrame where
  dst    : EthDst
  /-- the VIDs of the VLAN tags carried, outermost first -/
  vids   : List Nat
  kind   : EthKind
  /-- an IPv6 packet addressed to the port's static global address, not to its link-local one -/
  global : Bool
  fcsOk  : Bool
  frag   : Option Fragment
  deriving DecidableEq, Repr

/-- A PTP message other than an offset sample, as the protocol firmware takes it (R416, R424). -/
inductive PtpMsg where
  /-- Announce from a grandmaster: its clockIdentity, priority1, clockClass, priority2, currentUtcOffset -/
  | announce (gm : BitVec 64) (prio1 cls prio2 : Nat) (utcOffset : Int)
  /-- Delay_Resp or Pdelay_Resp exchange closed: the path delay measured, in ns -/
  | delayResp (pathDelayNs : Nat)
  /-- Delay_Req received while master: answered by a Delay_Resp with the ingress stamp -/
  | delayReq
  /-- Pdelay_Req received: the correctionField that its answer takes over, ingress stamp t2 of the device and the egress stamp
  t3 of its answer, in ns -/
  | pdelayReq (correction : Int) (t2 t3 : Nat)
  | followUp
  /-- Management or Signaling: discarded -/
  | managementOrSignaling
  deriving DecidableEq, Repr

/-- A reject, compare or time trigger pulse output on the field side, TOUT_F0 to TOUT_F3. -/
abbrev FieldOut := Fin 4

/-- The bits that a burst read from the DRAM carries wrong, by codeword: of its 64 data bits, its check byte and its address
tag (R373). -/
structure EccFlips where
  data  : List (BitVec 64)
  check : List (BitVec 8)
  tag   : List (BitVec 8)
  deriving DecidableEq, Repr

/-- The lock field of an arbitration request (R391). -/
inductive LockField where
  | none | first | cont | last
  deriving DecidableEq, Repr

/-- What the deadline of a request follows from (R391): the line of a bar it is made for (R19), the capture tick of a face line,
the tick of an item's bench decision, or its arrival. -/
inductive ReqNeed where
  | line (bar : Fin 8) (n : Nat)
  | capture (tick : BitVec 32)
  | decision (tick : BitVec 32)
  | arrival
  deriving DecidableEq, Repr

/-- A request to an arbiter (request fields table of 13), its deadline by what it follows from. The class is not here: it comes from the requester's
priority register at that arbiter. -/
structure ArbReq where
  requester : Fin 32
  need      : ReqNeed
  bytes     : Nat
  write     : Bool
  address   : BitVec 38
  lock      : LockField
  sleep     : Bool
  deriving DecidableEq, Repr

/-- The kind of a debug request (R531, R532, R400). -/
inductive DebugReq where
  | attach
  | halt (engine : Fin 3)
  | resume (engine : Fin 3)
  | portAccess (write : Bool) (segment : Nat)
  | resetScope (scope : Fin 4)
  deriving DecidableEq, Repr

/-- The verdict of the check of one image in measured boot (R520, R521): the header's fields, whether the signature
verified, and the hash found over the image bytes. -/
structure ImageCheck where
  headerOk : Bool
  hashOk   : Bool
  deriving DecidableEq, Repr

/-- What a sensor's converter measures in one reading (R460, R461). -/
inductive SensorSample where
  /-- an on-die sensor: its reference check passed, its reading in 0.1 °C -/
  | onDie (refOk : Bool) (tenths : Int)
  /-- a diode: its voltage in mV and its ΔVbe between 10 µA and 100 µA in nV -/
  | diode (mv deltaVbe : Nat)
  /-- an NTC thermistor: the ratio of its two voltages in 1/10,000 -/
  | ntc (ratio : Nat)
  deriving DecidableEq, Repr

/-- The commands of the block: one constructor per row of spec/opcode_table.json, in its order. -/
inductive Instr where
  -- 02 mailbox: sync
  | syncFence (m : Msg)
  | syncEcho (m : Msg)
  -- 03 objects: channels and runs
  | chanCreate (m : Msg)
  | chanDestroy (m : Msg)
  | chanQuery (m : Msg)
  | chanNextPlate (m : Msg)
  | runCreate (m : Msg)
  | runStart (m : Msg)
  | runStop (m : Msg)
  | runAbort (m : Msg)
  | runDestroy (m : Msg)
  | runQuery (m : Msg)
  -- 04 plates
  | plateCreate (m : Msg)
  | plateData (m : Msg)
  | plateRead (m : Msg)
  | plateSeal (m : Msg)
  | plateDestroy (m : Msg)
  | plateQuery (m : Msg)
  | plateStoreQuery (m : Msg)
  -- 05 bench
  | benchToneWrite (m : Msg)
  | benchNozzleWrite (m : Msg)
  | benchScreenDefine (m : Msg)
  | benchScreenWrite (m : Msg)
  | benchSubstWrite (m : Msg)
  | benchStitchWrite (m : Msg)
  | benchDropmapWrite (m : Msg)
  | benchCommit (m : Msg)
  | benchDiscard (m : Msg)
  | benchRead (m : Msg)
  | benchStatus (m : Msg)
  | benchRotation (m : Msg)
  -- 06 bars and heads
  | barGeomWrite (m : Msg)
  | barGeomCommit (m : Msg)
  | barQuery (m : Msg)
  | headQuery (m : Msg)
  | headBlank (m : Msg)
  | headUnblank (m : Msg)
  | headBandMap (m : Msg)
  | barFireEnable (m : Msg)
  -- 07 position and compares
  | posEncoderConfig (m : Msg)
  | posTrackConfig (m : Msg)
  | posQuery (m : Msg)
  | posSet (m : Msg)
  | posTrim (m : Msg)
  | posMarkConfig (m : Msg)
  | posEmuConfig (m : Msg)
  | posFaultClear (m : Msg)
  | cmpCreate (m : Msg)
  | cmpArm (m : Msg)
  | cmpDisarm (m : Msg)
  | cmpDestroy (m : Msg)
  | cmpQuery (m : Msg)
  -- 08 SETT links
  | settConfig (m : Msg)
  | settQuery (m : Msg)
  | settRetrain (m : Msg)
  | settRemap (m : Msg)
  -- 09 vision
  | camCreate (m : Msg)
  | camDestroy (m : Msg)
  | camSensorWrite (m : Msg)
  | camExposureWrite (m : Msg)
  | camParamWrite (m : Msg)
  | camCommit (m : Msg)
  | camActivate (m : Msg)
  | camStatsRead (m : Msg)
  | camCapture (m : Msg)
  | camFrameRead (m : Msg)
  | camQuery (m : Msg)
  -- 10 colour loop
  | calCreate (m : Msg)
  | calDestroy (m : Msg)
  | calAttach (m : Msg)
  | calDetach (m : Msg)
  | calParamWrite (m : Msg)
  | calRead (m : Msg)
  | calWrite (m : Msg)
  | loopHold (m : Msg)
  | loopRelease (m : Msg)
  | loopResume (m : Msg)
  | calRecalc (m : Msg)
  | calQuery (m : Msg)
  | calChanQuery (m : Msg)
  | calGateConfig (m : Msg)
  | calGateWindow (m : Msg)
  | calGateClear (m : Msg)
  | calGateQuery (m : Msg)
  -- 11 variable data
  | vdCreate (m : Msg)
  | vdDestroy (m : Msg)
  | vdAttach (m : Msg)
  | vdDetach (m : Msg)
  | vdPush (m : Msg)
  | vdVerifyConfig (m : Msg)
  | vdRejectConfig (m : Msg)
  | vdCancel (m : Msg)
  | vdResults (m : Msg)
  | vdQuery (m : Msg)
  | vdRecovery (m : Msg)
  | vdFontWrite (m : Msg)
  -- 12, 13 memory, arbitration, voltage
  | diagMemConfig (m : Msg)
  | diagMemQuery (m : Msg)
  | diagMemTraining (m : Msg)
  | diagArbPrio (m : Msg)
  | diagArbCommit (m : Msg)
  | diagArbQuery (m : Msg)
  | diagAvsConfig (m : Msg)
  | diagSlackQuery (m : Msg)
  -- 14 Ethernet and time
  | sysEthConfig (m : Msg)
  | sysEthQuery (m : Msg)
  | timePtpConfig (m : Msg)
  | timeServoConfig (m : Msg)
  | timeSet (m : Msg)
  | timeQuery (m : Msg)
  | timeTriggerCreate (m : Msg)
  | timeTriggerArm (m : Msg)
  | timeTriggerDisarm (m : Msg)
  | timeTriggerDestroy (m : Msg)
  | timeTriggerQuery (m : Msg)
  | timeTimerCreate (m : Msg)
  | timeTimerStop (m : Msg)
  | timeTimerDestroy (m : Msg)
  | timeCaptureConfig (m : Msg)
  | timeCaptureRead (m : Msg)
  -- 15 to 18 protection
  | sysInterlockConfig (m : Msg)
  | sysInterlockLock (m : Msg)
  | sysInterlockRearm (m : Msg)
  | sysInterlockQuery (m : Msg)
  | sysSaddleQuery (m : Msg)
  | sysTempConfig (m : Msg)
  | sysTempQuery (m : Msg)
  | sysThermalHead (m : Msg)
  | sysThermalResume (m : Msg)
  | sysReset (m : Msg)
  | sysBootQuery (m : Msg)
  | sysOptionRead (m : Msg)
  | sysOptionWrite (m : Msg)
  | sysPowerQuery (m : Msg)
  | sysFailoverConfig (m : Msg)
  | sysFailoverQuery (m : Msg)
  -- 19 audit
  | auditOpen (m : Msg)
  | auditClose (m : Msg)
  | auditRead (m : Msg)
  | auditAck (m : Msg)
  | auditQuote (m : Msg)
  | auditFwBegin (m : Msg)
  | auditFwData (m : Msg)
  | auditFwSeal (m : Msg)
  | auditFwQuery (m : Msg)
  | auditKeyEnrol (m : Msg)
  | auditDebugChallenge (m : Msg)
  | auditDebugOpen (m : Msg)
  | auditDebugClose (m : Msg)
  -- 02, 20 register window
  /-- a 32-bit write of MBX_CTRL whose ENABLE bit is 1; `value` is the word written -/
  | mbxEnable (value : BitVec 32)
  /-- a 32-bit write of MBX_CTRL whose ENABLE bit is 0 -/
  | mbxDisable (value : BitVec 32)
  /-- a 32-bit write of MBX_CTRL that sets or clears ETH_ENABLE -/
  | mbxEthEnable (value : BitVec 32)
  | doorbell (ring : Fin 4) (value : BitVec 32)
  /-- `talus` false: RING4_CI; true: RING5_CI -/
  | consumerIndexWrite (talus : Bool) (value : BitVec 32)
  | ringSetupWrite (reg : SetupReg) (value : BitVec 32)
  | mbxStatusClear (value : BitVec 32)
  | winErrClear (value : BitVec 32)
  /-- `newer`: codes of resets that coincide with the write -/
  | resetSeenClear (value newer : BitVec 32)
  /-- `newer`: causes that coincide with the write -/
  | intStatusClear (value newer : BitVec 32)
  | intMaskWrite (value : BitVec 32)
  /-- a write of `size` bytes at `offset` of BAR0 -/
  | registerWrite (offset : BitVec 16) (size : Nat) (value : BitVec 64)
  | holdoffExpiry (vector : Fin 2)
  -- 02 mailbox engine
  /-- what DMA finds in the 256 slots of each command ring, by slot; a read of a slot that is not given fails -/
  | commandFetch (slots : List (List (List Byte)))
  | fenceRelease
  | messageCompletion
  | fenceWait
  | eventRecordWrite
  | talusLost
  -- 02 Ethernet transport
  /-- `v6`: over IPv6, else over IPv4 -/
  | hello (port : Fin 2) (v6 : Bool) (body : List Byte)
  | confirm (session : BitVec 32) (body : List Byte)
  | handshakeTimeout (session : BitVec 32)
  /-- `plain`: the datagram's plaintext, none when its tag does not verify -/
  | message (session : BitVec 32) (ring : Fin 4) (counter : Nat) (plain : Option (List Byte))
  | seqGapTimeout (session : BitVec 32) (ring : Fin 4)
  | eventAck (session : BitVec 32) (counter : Nat) (plain : Option (List Byte))
  | eventResend (session : BitVec 32)
  | close (session : BitVec 32) (counter : Nat) (plain : Option (List Byte))
  | sessionIdleTimeout (session : BitVec 32)
  | fragmentTimeout
  | ethFrameReceive (port : Fin 2) (frame : EthFrame)
  /-- `duplicate`: an IPv6 address of the port was found to be a duplicate, the global one or the link-local one -/
  | ethLink (port : Fin 2) (up : Bool) (duplicate : Option Bool)
  -- 01 loss of a side
  | hostSideLost
  | hostSideBack
  | fieldUnreachable
  | fieldReachable
  | fmsCommandExecute
  -- 05, 06, 07 the path of a dot
  | outputLineScreen (bar : Fin 8)
  | fireLinePack (bar : Fin 8)
  | lineDeadline (bar : Fin 8)
  | fireInstant (bar : Fin 8)
  | switchDecision (run : Fin 8)
  | plateSwitched (chan : Fin 64)
  | tableSwitched (bar : Fin 8)
  /-- `cause`: 0 an uncorrectable SRAM error, 1 a datapath parity error (BENCH_FAULT reports it as 1 or 2) -/
  | benchFault (bench : Fin 9) (cause : Fin 2)
  | spareTakeover (bar : Fin 8)
  /-- `rescreenAgrees`: the spare's two results agree with each other -/
  | shadowMismatch (slot : Fin 32) (rescreenAgrees : Bool)
  | rotationPeriod
  | benchTestDone (bench : Fin 9) (pass : Bool)
  | spareLoadDone
  | headRecord (bar : Fin 8) (slot : Fin 32) (present : Bool) (record : List Byte)
  /-- entries of slot, valid flag and temperature in 0.1 °C -/
  | headTemp (bar : Fin 8) (entries : List (Fin 32 × Bool × Int))
  | headBlanked (bar : Fin 8) (slot : Fin 32)
  | headResumed (bar : Fin 8) (slot : Fin 32)
  | headReportMissing (bar : Fin 8) (slot : Fin 32)
  | headLost (bar : Fin 8) (slot : Fin 32)
  | driverStatus (bar : Fin 8) (freeLines : Nat) (faults : BitVec 16)
  -- 07 encoder, loop, marks, outputs, cascade, sequencers
  /-- the levels of A and B that the receivers of an input show in `samples` consecutive samples of 5 ns -/
  | encoderCount (input : Fin 4) (a b : Bool) (samples : Nat)
  /-- the level of Z that they show in `samples` consecutive samples -/
  | zEdge (input : Fin 4) (z : Bool) (samples : Nat)
  /-- `cause` false: loss of signal, true: illegal transitions; `clears`: the cause is absent again -/
  | encFault (input : Fin 4) (illegal clears : Bool)
  | standstill
  | loopUpdate
  | comparePulseEnd (trigger : Fin 128)
  /-- an edge of a mark input, `falling` its polarity, after which the level has held for `held` µs -/
  | mark (input : Fin 2) (falling : Bool) (held : Nat)
  | emuEdge (output : Fin 4)
  | positionWordSend
  | positionWordReceive
  | cascadeWordTimeout
  /-- a fire line of the bar on which the states of the two sequencers have come to differ by `dev` -/
  | lsMismatch (bar : Fin 8) (dev : SeqDev)
  | lsbTestDone (pass : Bool)
  | lsaStop (bar : Fin 8)
  -- 08 SETT
  /-- bits that arrive on a lane's line, in order -/
  | laneAlignment (lane : Fin 24) (line : List Bool)
  /-- the lane's next received block, where it is of the row's type -/
  | ts1 (lane : Fin 24)
  | ts2 (lane : Fin 24)
  | config (lane : Fin 24)
  | lat (lane : Fin 24)
  | trainingPhaseAdvance (link : Fin 14)
  | trainingTimeout (link : Fin 14)
  | trainingRetry (link : Fin 14)
  /-- the next packet of a lane's received byte stream -/
  | packetReceive (lane : Fin 24)
  | serve (bar : Fin 8)
  | ack (lane : Fin 24)
  | ackSend (lane : Fin 24)
  | replayTimeout (lane : Fin 24)
  | resume (lane : Fin 24)
  | sync (lane : Fin 24)
  | timeBlock (face : Fin 2)
  | eye (lane : Fin 24)
  | laneHealth (lane : Fin 24)
  | laneRemapped (bar : Fin 8) (lane : Fin 2)
  | spareCoreTimeout (spare : Fin 2)
  | linkLost (bar : Fin 8)
  | linkReturn (bar : Fin 8)
  -- 09 vision
  | cameraTrigger (face : Fin 2)
  /-- a packet of type 0x30, 0x31 or 0x32 of a camera hub, on a lane of its link -/
  | cameraLinePacket (face lane : Fin 2) (ptype : BitVec 8) (body : List Byte)
  | faceLineComplete (face : Fin 2)
  | hubStatus (face : Fin 2) (body : List Byte)
  | frameStart (face : Fin 2)
  | frameEnd (face : Fin 2)
  | frameStats (face : Fin 2)
  | captureDone (face : Fin 2)
  /-- `cause`: 1 SRAM uncorrectable, 2 datapath parity, 3 test failed -/
  | visionFault (engine : Fin 2) (cause : Fin 3)
  -- 10 loop and gates
  | loopWindowEnd (calset : Fin 64)
  | loopCommit (calset : Fin 64)
  /-- `gate` false: owner 1 (colour loop), true: owner 2 (drop gate) -/
  | heldCommit (bar : Fin 8) (gate : Bool)
  | recalculationDone (calset : Fin 64)
  | recalcSpareFail
  /-- a DROP_GATE packet body of the bar driver, or the samples of the device's own gate channel in that form -/
  | dropGate (bar : Fin 8) (body : List Byte)
  | dropTestResult (bar : Fin 8)
  | gateFault (bar : Fin 8)
  -- 11 variable data
  | itemRendered (stream : Fin 16)
  | itemContentVoid (stream : Fin 16)
  | itemLastLine (stream : Fin 16) (seq : BitVec 64)
  | itemVerdict (stream : Fin 16) (seq : BitVec 64)
  | verifyTimeout (stream : Fin 16) (seq : BitVec 64)
  | rejectStart (stream : Fin 16)
  | rejectEnd (stream : Fin 16)
  | rejectOverflow (stream : Fin 16)
  | vdFault (engine : Fin 2) (cause : Fin 3)
  -- 13 arbitration
  /-- `cluster` false: port arbiter, true: cluster arbiter -/
  | arbRequest (cluster : Bool) (index : Fin 4) (req : ArbReq) (flips : EccFlips)
  /-- the decision at the last beat; `ecc`: what a DRAM read of the segment granted meets -/
  | arbDecision (cluster : Bool) (index : Fin 4) (flips : EccFlips)
  | sleepWake (port : Fin 4) (flips : EccFlips)
  | lockExpiry (port : Fin 4)
  | emergencyTake (port : Fin 4) (refresh : Bool) (flips : EccFlips)
  | lockBroken (requester : Fin 32)
  | slackWindowEnd (bar : Fin 8)
  -- 12 memory
  | scrubPass
  | powerDownEntry (rank : Fin 8)
  | selfRefreshEntry
  | selfRefreshExit
  | refreshDue (port : Fin 4) (rank : Fin 2)
  | zqCalibration
  /-- the temperatures of the ranks, sc × 2 + rank, in 0.1 °C -/
  | dramTempRead (temps : List Int)
  /-- the result of one training at the present rate: whether every step passed, the smallest margin, where, and the
  delay words -/
  | memTrained (stepsPass probePass : Bool) (margin : Nat) (rank : Fin 8) (words : List (BitVec 32))
  -- 14 time
  /-- an offset sample in ns from the grandmaster named -/
  | syncMessage (gm : BitVec 64) (offsetNs : Int)
  | ptpMessage (msg : PtpMsg)
  | syncTimeout
  | announceTimeout
  | timeWordSend
  /-- the time word sent last arrives at the field side -/
  | timeWordReceive (crcOk : Bool)
  /-- the round trip that TE measured for an echo, and the field side's turnaround that it reports, in 1/16 ns -/
  | heartbeatEcho (roundTrip turnaround : Nat)
  | saddleTimeLoss
  | triggerPulse (trigger : Fin 128)
  | triggerPulseEnd (trigger : Fin 128)
  | timerExpired (timer : Fin 32)
  /-- an edge of a capture input; `held`: ns for which the new level has been stable -/
  | capture (input : Fin 6) (falling : Bool) (held : Nat)
  -- 15 Saddle and interlocks
  /-- a frame on a data channel: its direction, its class, its payload bytes and whether its CRC is good -/
  | saddleFrame (ret : Bool) (channel : Fin 14) (cls : SaddleClass) (bytes : Nat) (crcOk : Bool)
  | channelReturn (ret : Bool) (channel : Fin 14)
  | idlePatternCheck (ret : Bool) (channel : Fin 14) (pass : Bool)
  /-- a CP heartbeat: which CP, which path (wire pair or mailbox), its 4-bit sequence and its fault flag -/
  | heartbeat (cp : Fin 2) (wire : Bool) (seq : BitVec 4) (fault : Bool)
  /-- an accepted change of an interlock loop out of its healthy range: its resistance in ohms;
  `held`: ns for which the loop has had this resistance -/
  | interlock (input : Fin 16) (ohms held : Nat)
  | interlockHealthy (input : Fin 16) (ohms : Nat)
  -- 16 thermal
  /-- the sensors read in this round, with what their converters measure -/
  | sensorRound (readings : List (Fin 26 × SensorSample))
  | comparatorTrip (sensor : Fin 26)
  | thermalOffRestart
  -- 17 power, reset, boot
  /-- `field` false: the host die's supplies -/
  | supplyGood (field : Bool)
  | brownOut (supply : Fin 12) (mv : Nat)
  /-- `edges`: reference edges in a row on which the pin had this level -/
  | rstN (low : Bool) (edges : Nat)
  | frstN (low : Bool) (edges : Nat)
  | perstN
  | referenceLoss (field : Bool)
  /-- index of the clock domain in the table of R14 -/
  | clockFailure (domain : Fin 14)
  | cpWatchdog (cp : Fin 2) (lockup : Bool)
  | fsWatchdog (lockup : Bool)
  | resetRelease (field : Bool)
  | fieldResetSymbol
  | optionCopy
  | measuredBoot (check : ImageCheck)
  | fieldImageApproval (check : ImageCheck)
  | bootTimeout
  | mailboxReady
  -- 18 fail-over
  | cpDeclaration (cp : Fin 2)
  | cpStandby
  | standbySelftestDone (pass : Bool)
  | snapshotComplete
  | quietPointReturn
  -- 19 debug
  | debugSessionExpiry
  | debugChallengeExpiry
  -- later rows
  | referenceReturn (field : Bool)
  | softwareReset
  | debugRequest (req : DebugReq)
  /-- a Saddle heartbeat beat: its direction and, host to field, the host-die readings of sensors 24 and 25 -/
  | saddleHeartbeat (ret : Bool) (t24 t25 : Int)
  | avsIdleStep
  | ptpTransmitInterval
  deriving DecidableEq, Repr

end Sys2Proof
end

