-- ==== Sys2Proof/Decode.lean ====
section
/-! DEFINITION. The decoder of command words. spec/opcode_table.json gives no row a bit: a message is told by its opcode
field and its frame is taken apart by COMMAND_FETCH (R43, R46), a register write by its offset (R533), and an event has
no encoding at all. No word therefore spells a command. -/

namespace Sys2Proof

/-- The command that a word of `nbits` bits spells by the table's bits: none, since the table gives no row bits. -/
def decodeTableWord (_nbits _w : Nat) : Option Instr := none

end Sys2Proof
end

