-- ==== Sys2Proof/Machine/Crc.lean ====
section
/-! DEFINITION. The checks the manual computes over bytes: CRC-32C of a frame (R44) and the shift-register form that
the link layer's CRCs share. -/

namespace Sys2Proof.Machine

/-- One bit of CRC-32C in its reflected form: polynomial 0x1EDC_6F41 reflected is 0x82F6_3B78 (R44). -/
def crc32cBit (c : BitVec 32) : BitVec 32 :=
  if c.getLsbD 0 then (c >>> 1) ^^^ 0x82F63B78#32 else c >>> 1

/-- One byte of CRC-32C. -/
def crc32cByte (c : BitVec 32) (b : Byte) : BitVec 32 :=
  let c := c ^^^ b.zeroExtend 32
  crc32cBit (crc32cBit (crc32cBit (crc32cBit (crc32cBit (crc32cBit (crc32cBit (crc32cBit c)))))))

/-- CRC-32C: reflected, initial value and final XOR all ones (R44). -/
def crc32c (bytes : Bytes) : BitVec 32 :=
  bytes.foldl crc32cByte 0xFFFFFFFF#32 ^^^ 0xFFFFFFFF#32

/-- One bit, the most significant first, of a CRC that is not reflected. -/
def crcBit {w : Nat} (poly : BitVec w) (c : BitVec w) (b : Bool) : BitVec w :=
  if (c.getMsbD 0) != b then (c <<< 1) ^^^ poly else c <<< 1

/-- One byte, the most significant bit first. -/
def crcByte {w : Nat} (poly : BitVec w) (c : BitVec w) (b : Byte) : BitVec w :=
  (List.range 8).foldl (fun c i => crcBit poly c (b.getMsbD i)) c

/-- A CRC that is not reflected, from an initial value and with no final XOR. -/
def crcMsb {w : Nat} (poly init : BitVec w) (bytes : Bytes) : BitVec w :=
  bytes.foldl (crcByte poly) init

/-- Bytes packed into rising bit positions, least significant bit first, of a stream of bits. -/
def bitsLsb (b : Byte) : List Bool := (List.range 8).map fun i => b.getLsbD i

/-- The bits of a byte string, each byte least significant bit first. -/
def streamLsb (bytes : Bytes) : List Bool := bytes.flatMap bitsLsb

end Sys2Proof.Machine
end

