-- ==== Sys2Proof/Config.lean ====
section
/-! DEFINITION. What one part fixes and the manual does not say: free values, constants with no body, of which no
proof can know a value. A statement about the model holds for every value of them. Cryptographic functions stand here
because the manual names them and defines them elsewhere (FIPS 180-4, FIPS 186-5, RFC 5869); barcode symbols, the mask
screens of the ROM and the stitch mask because the manual names a published or a factory table it does not print. -/

namespace Sys2Proof.Config

/-- The free value number `n`: a value the manual leaves open, fresh each time one is taken (log 25). -/
opaque freeValue : Nat → BitVec 64

/-- SHA-384 (R104, R520): FIPS 180-4 (log 30). -/
opaque sha384 : Bytes → BitVec 384

/-- ECDSA P-384 verification (R64, R517): public key, hash, signature of 96 bytes (log 30). -/
opaque ecdsaVerify : Bytes → BitVec 384 → Bytes → Bool

/-- ECDSA P-384 signature by the device identity key (R64, R527): hash to r and s (log 30). -/
opaque ecdsaSign : BitVec 384 → BitVec 768

/-- The public half of the device identity key, uncompressed (R517) (log 30). -/
opaque deviceKey : BitVec 776

/-- Root key `n` of Cairn's four, its public half (R517) (log 30). -/
opaque rootKey : Nat → BitVec 776

/-- Debug key `n` of Cairn's two, its public half (R517) (log 30). -/
opaque debugKey : Nat → BitVec 776

/-- The certificate of the identity key (R517, audit.quote) (log 30). -/
opaque certificate : Bytes

/-- The x-coordinate of the ECDH shared point on P-384 (R64): host point, number of the device's ephemeral key (log 30). -/
opaque ecdhX : Bytes → Nat → BitVec 384

/-- The first 72 bytes of HKDF-SHA-384 (R64): input key material, salt, info (log 30). -/
opaque hkdf72 : Bytes → Bytes → Bytes → BitVec 576

/-- Byte i of the AES-256-GCM ciphertext followed by its 16-byte tag (R63): key, nonce, additional authenticated data,
plaintext (log 30). -/
opaque gcmByte : Bytes → Bytes → Bytes → Bytes → Nat → Byte

/-- A handshake's device point, uncompressed, for ephemeral key number `n` (R64) (log 30). -/
opaque devicePoint : Nat → BitVec 776

/-- A random number of the device, number `n` (R64, R531) (log 30). -/
opaque random : Nat → BitVec 384

/-- The device id of the fuses, 16 bytes (R2, R527) (log 31). -/
opaque deviceId : BitVec 128

/-- The conversion of a diode's ΔVbe in nV with an ideality factor in u2.14, in 0.1 °C, signed (R460; log 159). -/
opaque diodeTenths : Nat → Nat → BitVec 16

/-- The Beta equation: beta, r25 in ohm and the ratio of the two voltages in 1/10,000 to a temperature in 0.1 °C, signed (R460;
log 159). -/
opaque ntcTenths : Nat → Nat → Nat → BitVec 16

/-- The forward-to-return asymmetry of the module in 1/16 ns, measured at manufacture and held in OTP (R428) (log 157). -/
opaque saddleAsymmetry : BitVec 32

/-- MAC address of an Ethernet port in OTP (R412) (log 15). -/
opaque otpMac : Nat → BitVec 48

/-- Whether a session whose host key carries a rights mask is refused an opcode (R46 check 11, R62): the manual gives
the mask no bit assignment (log 29). -/
opaque rightDenies : BitVec 8 → Nat → Bool

/-- Whether a rights mask holds the enrol right (R517): the manual gives it no bit (log 29). -/
opaque enrolRight : BitVec 8 → Bool

/-- A quotient by 0, and a statistic of no sample: the manual states no value (log 40). -/
opaque byZero : Nat → BitVec 64

/-- The entry of the density ROM for a target and a mean, which is exact to ±1: 0, 1 or 2 for −1, 0 or +1, taken modulo 3
(R311) (log 41). -/
opaque densityError : Nat → Nat → BitVec 2

/-- Ticks that a refresh of a density holds a port, same-bank or all-bank (tRFC, R399); at most 41 (R401) (log 43). -/
opaque refreshTicks : Nat → Bool → Nat

/-- The symbol of a code element in modules, columns and rows, for its type, param and data; none where the data cannot
be encoded (R345, R347): ISO/IEC 15417, 16022 and 18004 (log 33). -/
opaque symbolSize : Nat → Nat → Bytes → Option (Nat × Nat)

/-- Whether the module of that symbol at a column and row is dark (R345) (log 33). -/
opaque symbolModule : Nat → Nat → Bytes → Nat → Nat → Bool

/-- The normalised cross-correlation of a prediction and a measure, in 1/4,096 (R355): the manual gives neither its
formula nor its rounding (log 34). -/
opaque ncc : List Int → List Int → Int

/-- Word k (0 to 6) of cell (x, y) of the ROM screen for 2 or 3 drop bits, of which `romThreshold` takes the threshold
(R135, R575) (log 35). -/
opaque romScreen : Nat → Nat → Nat → Nat → BitVec 12

/-- The key of cell 64 × row + column of the ROM stitch mask, by which `stitchMaskAt` ranks the cells (R140, R575)
(log 35). -/
opaque stitchKey : Nat → BitVec 64

/-- The delay in ns from a LAT probe received to its echo sent, which CONFIG declares, modulo 101 (R253) (log 127). -/
opaque echoDelay : BitVec 8

end Sys2Proof.Config
end

