-- ==== Sys2Proof/Machine/Parts.lean ====
section
/-! DEFINITION. The records that `State` is built from, first part: messages in progress, the mailbox, the Ethernet
transport, the register window and the run-time objects. Every field's default value is its value after the reset of
the whole device; its docstring names the file and rule of spec/ that gives the field. -/

namespace Sys2Proof.Machine

/-- A sparse table: entries by rising index; an index that is not listed holds the table's default. -/
abbrev SMap (α : Type) := List (Nat × α)

/-- One record of the Talus queue (R58). `time` is device time in ns; `web` is none for 0xFFFF_FFFF_FFFF. -/
structure EventRec where
  code   : Nat
  source : BitVec 32
  time   : Nat
  web    : Option Nat
  args   : List Byte
  /-- the transport instance whose Talus queue it is for; none = every instance (R61, log 26) -/
  dest   : Option Nat
  /-- raised on the field die, which keeps it until the active CP reports it as visible (R508) -/
  fromField : Bool
  deriving DecidableEq, Repr

/-- A record as it stands in the Talus queue: the event with the sequence field it was written with (R58, R60). -/
structure TalusRec where
  sequence : Nat
  event    : EventRec
  deriving DecidableEq, Repr

/-- One response frame (R45) without its CRC, which `Response.frame` computes. -/
structure Response where
  opcode  : Nat
  ring    : Nat
  seq     : BitVec 32
  handle  : BitVec 32
  status  : Nat
  payload : List Byte
  deriving DecidableEq, Repr

/-- Where a fetched message stands on its way to its completion (R49, R53 to R57). -/
inductive MsgPhase where
  /-- held by an ordering rule or a fence -/
  | waiting
  /-- in the command queue of the FS -/
  | forwarded
  /-- answered ACCEPTED, its operation running on -/
  | accepted
  /-- the operation has reached its completion point with this status; the DONE event is still to be written -/
  | finished (status : Nat)
  deriving DecidableEq, Repr

/-- An earlier message that lies unfetched in its slot when a later one is fetched, and holds it (R53 to R55): its ring, its
index, its place in the order of R52, and what FENCE_WAIT names of it. -/
structure Ahead where
  ring   : Nat
  index  : BitVec 32
  place  : Nat
  seq    : BitVec 32
  handle : BitVec 32
  deriving DecidableEq, Repr

/-- A fetched message that is not complete (mirror set of R509; R52 to R57). -/
structure InFlight where
  opcode  : Nat
  msg     : Msg
  /-- place in the order of the doorbells, R52 -/
  arrival : Nat
  phase   : MsgPhase
  /-- device clock at which the message began to wait, R57 -/
  since   : Nat
  /-- FENCE_WAIT events written for it so far, R57 -/
  warned  : Nat
  /-- earlier messages that held it from their slots when it was fetched -/
  behind  : List Ahead
  deriving DecidableEq, Repr

/-- The mailbox and its PCIe ring set (R34 to R60). Indices of rings 0 to 5 are lists of six. -/
structure Mailbox where
  /-- MBX_CTRL.ENABLE; 1 bit; 02 R39; reset 0 -/
  enable : Bool := false
  /-- MBX_CTRL.ETH_ENABLE; 1 bit; 02 R62; reset 0 -/
  ethEnable : Bool := false
  /-- MBX_CTRL.ETH_PORT; 16 bits; 02 MBX_CTRL; reset 0xC67C -/
  ethPort : BitVec 16 := 0xC67C
  /-- MBX_STATUS.READY; 1 bit; 02 MBX_STATUS; reset 0 -/
  ready : Bool := false
  /-- MBX_STATUS.RUNNING; 1 bit; 02 R39, R40; reset 0 -/
  running : Bool := false
  /-- fetching has stopped and the fetched messages drain; 1 bit; 02 R40; reset 0 -/
  draining : Bool := false
  /-- PERST_N has come: the ring registers are cleared once RUNNING clears; 17 R487; reset no -/
  clearAtStop : Bool := false
  /-- MBX_STATUS.SETUP_ERR; 1 bit; 02 R39; reset 0 -/
  setupErr : Bool := false
  /-- MBX_STATUS.RING_ERR; 1 bit; 02 R36; reset 0 -/
  ringErr : Bool := false
  /-- MBX_STATUS.ERR_RING; 3 bits; 02 R36, R39; reset 0 -/
  errRing : Nat := 0
  /-- MBX_STATUS.ACTIVE_CP, as step 4 of a switch-over leaves it; 1 bit; 02, 20 R540; reset 0 -/
  activeCp : Nat := 0
  /-- STATUS_BLK_LO/HI; 64 bits; 02 R37; reset DESIGN CHOICE 0 (log 1) -/
  statusBlk : BitVec 64 := 0
  /-- RINGn_BASE_LO/HI, n = 0 to 5; 64 bits each; 02 R34; reset DESIGN CHOICE 0 (log 1) -/
  base : List (BitVec 64) := List.replicate 6 0
  /-- RINGn_PI, n = 0 to 5; 32 bits each; 02 R35; reset DESIGN CHOICE 0 (log 1) -/
  pi : List (BitVec 32) := List.replicate 6 0
  /-- RINGn_CI, n = 0 to 5; 32 bits each; 02 R35; reset DESIGN CHOICE 0 (log 1) -/
  ci : List (BitVec 32) := List.replicate 6 0
  /-- status block in host memory, cmd_ci[4]; 4 x 32 bits; 02 R37; reset DESIGN CHOICE 0 (log 1) -/
  sbCmdCi : List (BitVec 32) := List.replicate 4 0
  /-- status block, resp_pi; 32 bits; 02 R37; reset DESIGN CHOICE 0 (log 1) -/
  sbRespPi : BitVec 32 := 0
  /-- status block, event_pi; 32 bits; 02 R37; reset DESIGN CHOICE 0 (log 1) -/
  sbEventPi : BitVec 32 := 0
  /-- status block, active_cp; 8 bits; 02 R37; reset DESIGN CHOICE 0 (log 1) -/
  sbActiveCp : Nat := 0
  /-- status block, update_count; 32 bits; 02 R37; reset DESIGN CHOICE 0 (log 1) -/
  sbUpdates : BitVec 32 := 0
  /-- what the device has written to host memory, by the address of the write: responses, records, the status block; 02 R34 to
  R37; reset nothing -/
  hostMem : List (Nat × List Byte) := []
  /-- responses visible in ring 4 and not yet consumed, oldest first; 02 R34, R45; reset empty -/
  responses : List Response := []
  /-- records visible in ring 5 and not yet consumed, oldest first; 02 R34, R58; reset empty -/
  talus : List TalusRec := []
  /-- records held while the queue is full or the rings do not run; up to 1,024; 02 R60; reset empty -/
  held : List EventRec := []
  /-- records dropped beyond those, not yet reported; 64 bits; 02 R60; reset 0 -/
  dropped : Nat := 0
  /-- sequence field of the next record written; 16 bits; 02 R58, R60; reset DESIGN CHOICE 0 (log 1) -/
  sequence : Nat := 0
  /-- fetches left to each class in the present turn of the weighted round robin; 02 Ordering; reset 1, 2, 4, 8 -/
  credits : List Nat := [1, 2, 4, 8]
  /-- messages made visible so far, that is, the next place in the order of R52; 02 R52; reset 0 -/
  arrivals : Nat := 0
  /-- per command ring, the doorbells with messages not yet fetched: the PI each left and the place after its last
  message; 02 R52; reset none -/
  bells : List (List (BitVec 32 × Nat)) := List.replicate 4 []
  /-- fetched messages not yet complete, of every transport instance; 02 R42, R53, 18 R509; reset empty -/
  inFlight : List InFlight := []
  deriving DecidableEq, Repr

/-- A handshake that waits for its CONFIRM (R64). -/
structure Handshake where
  session : BitVec 32
  port    : Nat
  v6      : Bool
  keyIdx  : Nat
  hello   : List Byte
  reply   : List Byte
  since   : Nat
  deriving DecidableEq, Repr

/-- One Ethernet session: its own rings 0 to 5, counters and sequence windows (R61 to R69). -/
structure Session where
  session  : BitVec 32
  port     : Nat
  /-- over IPv6, else over IPv4 -/
  v6       : Bool
  keyIdx   : Nat
  /-- the keys (32 bytes) and salts (4 bytes) host to device and device to host (R64) -/
  keyIn    : List Byte
  keyOut   : List Byte
  saltIn   : List Byte
  saltOut  : List Byte
  /-- highest counter accepted from the host, and which of the 64 counters up to it were accepted (R66) -/
  rxHigh   : Nat
  rxSeen   : List Nat
  /-- next counter the device sends (R66) -/
  txNext   : Nat
  /-- datagrams discarded under R66 -/
  errors   : Nat
  /-- next seq expected on each command ring (R67) -/
  nextSeq  : List Nat
  /-- responses kept for the last 1,024 seq values of each ring (R67): ring, seq, response -/
  stored   : List (Nat × Nat × Response)
  /-- messages held for a missing seq, at most 64 per ring (R67): ring, seq, frame, since -/
  gap      : List (Nat × Nat × List Byte × Nat)
  /-- event records not yet acknowledged, with the clock of their last sending (R68), and the session's Talus CI -/
  unacked  : List (TalusRec × Nat)
  talusCi  : Nat
  talusSeq : Nat
  /-- records held beyond 32,768, at most 1,024, and those dropped beyond these (R60, R68) -/
  held     : List EventRec
  dropped  : Nat
  /-- device clock of the last valid datagram (R69) -/
  lastRx   : Nat
  deriving DecidableEq, Repr

/-- One incomplete IP datagram under reassembly (R70). -/
structure Reassembly where
  port  : Nat
  ident : Nat
  /-- the parts received: offset and size -/
  parts : List (Nat × Nat)
  total : Option Nat
  since : Nat
  deriving DecidableEq, Repr

/-- A datagram that the device sends (R63, R70). -/
structure Datagram where
  port    : Nat
  v6      : Bool
  /-- the port's own address that it is sent from, as a number of its bytes in order, the first lowest (R414) -/
  src     : Nat
  /-- its UDP payload: the transport header and the body, in clear or encrypted with its tag -/
  bytes   : List Byte
  /-- the sizes of the IP parts it is sent in, in order (R70) -/
  parts   : List Nat
  deriving DecidableEq, Repr

/-- The Ethernet mailbox transport (R61 to R70). -/
structure EthMbx where
  /-- open sessions, at most four; 02 R62; reset none -/
  sessions : List Session := []
  /-- handshakes waiting for CONFIRM; 02 R64; reset none -/
  handshakes : List Handshake := []
  /-- clocks at which HELLO datagrams were processed in the last second; 02 R65; reset none -/
  hellos : List Nat := []
  /-- incomplete IP datagrams, at most 64; 02 R70; reset none -/
  frags : List Reassembly := []
  /-- next new_session_id; 32 bits, non-zero; 02 R64; reset DESIGN CHOICE 1 (log 2) -/
  nextSession : Nat := 1
  /-- datagrams the device has sent and the network has not taken; 02 R63; reset none -/
  out : List Datagram := []
  deriving DecidableEq, Repr

/-- The host register window of BAR0, less the mailbox registers and the read-only views of other parts (R533 to R541). -/
structure Window where
  /-- SCRATCH; 32 bits; 20 map; reset 0 -/
  scratch : BitVec 32 := 0
  /-- WIN_ERR.PARTIAL; 1 bit; 20 R533; reset 0 -/
  partialErr : Bool := false
  /-- WIN_ERR.UNDEFINED; 1 bit; 20 R534; reset 0 -/
  undefinedErr : Bool := false
  /-- WIN_ERR.INDEX; 14 bits; 20 R534; reset 0 -/
  errIndex : BitVec 14 := 0
  /-- HOST_FW_VERSION; 32 bits; 20 map; reset 0 -/
  hostFw : BitVec 32 := 0
  /-- FIELD_FW_VERSION; 32 bits; 20 map; reset 0 -/
  fieldFw : BitVec 32 := 0
  /-- RESET_CAUSE.CAUSE; 5 bits; 20 RESET_CAUSE, 17 R486; kept, host power-on leaves 1 -/
  cause : Nat := 1
  /-- RESET_CAUSE.REACH; 3 bits; 20 RESET_CAUSE; kept, host power-on leaves 0 -/
  reach : Nat := 0
  /-- RESET_SEEN; bits 16:1; 20 R537; kept, host power-on leaves bit 1 alone -/
  seen : BitVec 32 := 2
  /-- causes mask of sys.boot_query; 32 bits; 17 sys.boot_query, 20 R537; host power-on leaves bit 1 -/
  causes : BitVec 32 := 2
  /-- HOST_RESETS; 32 bits; 20 map; kept; reset DESIGN CHOICE 0 at host power-on (log 3) -/
  hostResets : Nat := 0
  /-- FIELD_RESETS; 32 bits; 20 map; kept; reset DESIGN CHOICE 0 at host power-on (log 3) -/
  fieldResets : Nat := 0
  /-- INT_STATUS; 4 bits; 20 R539; reset 0 -/
  intStatus : BitVec 4 := 0
  /-- INT_MASK.MASK; 4 bits; 20 R539; reset 0xF -/
  intMask : BitVec 4 := 0xF
  /-- INT_HOLDOFF.HOLDOFF_US; 16 bits; 20 R539; reset 0 -/
  holdoff : BitVec 16 := 0
  /-- device clock until which vectors 0 and 1 may send no message; 20 R539; reset none -/
  holdUntil : List Nat := [0, 0]
  /-- MSI-X messages sent so far, vectors 0 to 3; 20 R539; reset 0 -/
  msixSent : List Nat := [0, 0, 0, 0]
  /-- MSI-X table, 16 words of 32 bits; 20 map (as PCI Express defines); reset PRESUMED 0 with the mask bit of each
  entry set (PCI Express's) (log 4) -/
  msixTable : List (BitVec 32) := [0, 0, 0, 1, 0, 0, 0, 1, 0, 0, 0, 1, 0, 0, 0, 1]
  /-- MSI-X PBA, pending bits of vectors 0 to 3; 20 map; reset PRESUMED 0 (log 4) -/
  pba : BitVec 4 := 0
  deriving DecidableEq, Repr

/-- A table of run-time objects of one type: the live objects by slot, the generation of each slot ever used, and the
free slots, the longest free first (R71, R72). -/
structure ObjTable (α : Type) where
  live : List (Nat × α)
  gens : List (Nat × Nat)
  free : List Nat
  deriving DecidableEq, Repr

/-- The table of a type whose limit is `n`, with no object (R72; which slot counts as free the longest at power-up is
a DESIGN CHOICE: the lowest, log 5). -/
def ObjTable.empty (α : Type) (n : Nat) : ObjTable α := ⟨[], [], List.range n⟩

/-- A table version armed for a device line (R146, R147). -/
structure Armed (α : Type) where
  line  : Nat
  value : α
  deriving DecidableEq, Repr

/-- A bench table: the version in force and at most two armed successors, the earlier first (R147). -/
structure Versioned (α : Type) where
  active : α
  armed  : List (Armed α) := []
  /-- line of the last switch that has taken effect at its line; 05 R147; reset none -/
  last   : Option Nat := none
  deriving DecidableEq, Repr

/-- A commit whose switch is armed: its line, the handle it named, its owner (0 host, 1 colour loop, 2 drop gate), its
seq, the tables it switches, and the nozzles whose entries it changes (R146, TABLE_SWITCHED). -/
structure Switch where
  line    : Nat
  source  : BitVec 32
  owner   : Nat
  seq     : BitVec 32
  mask    : Nat
  nozzles : List Nat
  deriving DecidableEq, Repr

/-- A threshold screen of a channel (R134 to R136). Cells not listed hold 4,095 in every threshold. -/
structure Screen where
  custom : Bool
  log2w  : Nat
  log2h  : Nat
  ox     : Nat
  oy     : Nat
  cells  : SMap (List Nat)
  deriving DecidableEq, Repr

/-- A staged edit of a 32-bit table entry: the bits the owner writes, and their values (R145). -/
structure Edit where
  mask  : BitVec 32
  value : BitVec 32
  deriving DecidableEq, Repr

/-- A plate (R95 to R113). -/
structure Plate where
  format   : Nat
  width    : Nat
  lines    : Nat
  isSealed : Bool
  /-- numbers of the 2 MiB extents of the image, in image order (R101) -/
  extents  : List Nat
  /-- numbers of the extents of the digest list (R104) -/
  digestExtents : List Nat
  /-- the blocks received; their SHA-384 digests lie in the digest list in memory (R104) -/
  blocks   : List Nat
  /-- plate hash, 0 while LOADING (R105, R113) -/
  hash     : BitVec 384
  damaged  : Bool
  /-- blocks for which PLATE_DAMAGED was written (R114) -/
  damagedBlocks : List Nat
  deriving DecidableEq, Repr

/-- A pending next plate (R83, R115): the plate, the group identity (at_repeat as accepted; none = 0xFFFF_FFFF) and
the repeat now targeted. -/
structure NextPlate where
  plate  : BitVec 32
  group  : Option Nat
  target : Nat
  deriving DecidableEq, Repr

/-- A switch that its group has decided (R116, R119, R120). -/
structure Decided where
  plate  : BitVec 32
  rep    : Nat
  line   : Nat
  deriving DecidableEq, Repr

/-- A channel (R81 to R83, R130, R135, R144). -/
structure Channel where
  plate     : BitVec 32
  bar       : Nat
  lane      : Nat
  dropBits  : Nat
  kernel    : Nat
  dotStart  : Nat
  dotWidth  : Nat
  plateX    : Nat
  fireAhead : Nat
  run       : BitVec 32
  next      : Option NextPlate
  /-- switches decided and not yet complete, the first decided first (R119, R120) -/
  decided   : List Decided
  /-- first device line of the repeat of the last switch decided, or of the run (R83) -/
  prevSwitch : Nat
  /-- lines fired since creation (R82, chan.query), and in the present run (R88) -/
  linesPrinted : Nat
  runLines  : Nat
  tone      : Versioned (SMap Nat)
  screen    : Versioned Screen
  dropmap   : Versioned (BitVec 32)
  toneStaged    : SMap Nat
  screenStaged  : Option Screen
  dropmapStaged : Option (BitVec 32)
  calset    : BitVec 32
  stream    : BitVec 32
  calCount  : Nat
  calTime   : Nat
  deriving DecidableEq, Repr

/-- The states of a run (R84 to R88). -/
inductive RunState where
  | created | queued | armed | printing | stopping | ended
  deriving DecidableEq, Repr

/-- A detection window of a run (cal.gate_window, R329, R340). -/
structure GateWindow where
  gate : Bool
  patch : Bool
  every : Nat
  dotFirst : Nat
  dotCount : Nat
  linePhase : Nat
  lineCount : Nat
  deriving DecidableEq, Repr

/-- A stretch of repeats of one length: the first repeat of the stretch, its first device line, and the length of
each of its repeats (R99). -/
structure RepeatSeg where
  rep  : Nat
  line : Nat
  len  : Nat
  deriving DecidableEq, Repr

/-- A plate entry of the run's audit record (R527, R528). -/
structure PlateEntry where
  bar     : Nat
  plate   : BitVec 32
  hash    : BitVec 384
  damaged : Bool
  repeats : Nat
  lines   : Nat
  deriving DecidableEq, Repr

/-- The counters of the run body of an audit record (R527). -/
structure RunAudit where
  suppressed : Nat := 0
  missed     : Nat := 0
  verified   : Nat := 0
  failed     : Nat := 0
  indet      : Nat := 0
  void       : Nat := 0
  tkCp       : Nat := 0
  tkBench    : Nat := 0
  tkSeq      : Nat := 0
  tkLane     : Nat := 0
  trips      : Nat := 0
  rearms     : Nat := 0
  t4         : Nat := 0
  headBlanks : Nat := 0
  thermalOffs : Nat := 0
  hostLost   : Bool := false
  debug      : Bool := false
  plates     : List PlateEntry := []
  deriving DecidableEq, Repr

/-- A run (R84 to R92). -/
structure Run where
  lane        : Nat
  pitch       : Nat
  channels    : List (BitVec 32)
  maxRate     : Nat
  startLine   : Nat
  gapLines    : Nat
  repeatCount : Nat
  switchMin   : Nat
  state       : RunState
  /-- its first line has fired: STARTED has been written (R84, R86) -/
  started     : Bool
  firstLine   : Nat
  /-- repeats of the run, the newest stretch first (R99) -/
  segs        : List RepeatSeg
  /-- first device line not printed, once a stop is armed or the natural end is known (R86) -/
  stopAt      : Option Nat
  /-- whether that stop was asked for by run.stop, and cause of the end (R86) -/
  cause       : Nat
  lastLine    : Nat
  linesFired  : Nat
  /-- sizes, formats and widths of the channels' plates at admission (R83) -/
  admitted    : List (BitVec 32 × Nat × Nat × Nat)
  windows     : List GateWindow
  /-- a window list that waits for its repeat boundary (R340) -/
  newWindows  : Option (Nat × List GateWindow)
  /-- device line that had fired when the run left PRINTING for STOPPING (R312) -/
  leftAt      : Option Nat
  /-- consecutive lines above max_line_rate by more than 1 %, and the clock of the last OVERSPEED (R89) -/
  fastLines   : Nat
  overspeedAt : Option Nat
  lastFireAt  : Option Nat
  /-- the host side was lost during the run: it ends at its next repeat boundary (R31) -/
  runningOut  : Bool
  audit       : RunAudit
  deriving DecidableEq, Repr

/-- What a TRIGGER object watches (R218 to R221, R430 to R433). -/
inductive TriggerKind where
  /-- `source` 0 web position, 1 raw count; `direction` 0 forward, 1 backward, 2 either -/
  | compare (source input direction : Nat) (event pulse : Bool) (pulseOut pulseUs : Nat) (period : Int) (repeats : Nat)
  /-- `output` 0 to 3 field, 4 and 5 host; `period16` in ns × 2^16 -/
  | time (output : Nat) (event : Bool) (widthNs period16 count : Nat)
  deriving DecidableEq, Repr

/-- A TRIGGER object. -/
structure Trigger where
  kind     : TriggerKind
  armed    : Bool
  value    : Int
  /-- compare: hits since creation; time trigger: pulses given since arming -/
  hits     : Nat
  /-- compare: hits since arming (R220) -/
  armHits  : Nat
  skipped  : Nat
  lastHit  : Nat
  /-- next pulse of a time trigger in ns × 2^16 of device time -/
  next16   : Nat
  /-- clocks of the TRIGGER_PULSE events of the last second (time.trigger_create, flags [0]) -/
  eventAts : List Nat
  /-- time trigger: its next pulse is flagged LATE: a step forward has passed it over, or it was armed late (R431, R432) -/
  late     : Bool := false
  deriving DecidableEq, Repr

/-- A TIMER object (R434). -/
structure Timer where
  running  : Bool
  next16   : Nat
  period16 : Nat
  count    : Nat
  expired  : Nat
  skipped  : Nat := 0
  /-- a step forward has passed its next expiry over (R432) -/
  late     : Bool := false
  deriving DecidableEq, Repr

/-- An AUDITSESSION (R527). -/
structure AuditSession where
  lanes : Nat
  sums  : RunAudit
  firstLine : Nat
  lastLine  : Nat
  repeats   : Nat
  deriving DecidableEq, Repr

end Sys2Proof.Machine
end

