-- ==== Sys2Proof/Machine/Bytes.lean ====
section
/-! DEFINITION. Byte order, bit fields, lists and sparse tables: the plain helpers that every meaning uses. Multi-byte
fields are little-endian (R6). Reading beyond the end of a byte string gives 0; every payload's length is checked
before its fields are read (R46 check 5). -/

namespace Sys2Proof.Machine

/-- Byte `i` of a string as a number. -/
def byteAt (b : Bytes) (i : Nat) : Nat := (b.getD i 0).toNat

/-- The `n`-byte little-endian number at offset `i` (R6). -/
def leAt (b : Bytes) (i : Nat) : Nat → Nat
  | 0 => 0
  | n + 1 => byteAt b i + 256 * leAt b (i + 1) n

/-- 16-, 32-, 48- and 64-bit fields at an offset. -/
def u16 (b : Bytes) (i : Nat) : Nat := leAt b i 2
def u32 (b : Bytes) (i : Nat) : Nat := leAt b i 4
def u48 (b : Bytes) (i : Nat) : Nat := leAt b i 6
def u64 (b : Bytes) (i : Nat) : Nat := leAt b i 8

/-- A 32-bit field kept as bits: a handle or a register word. -/
def w32 (b : Bytes) (i : Nat) : BitVec 32 := BitVec.ofNat 32 (u32 b i)

/-- The two's complement reading of an unsigned number of `bits` bits. -/
def toSigned (bits n : Nat) : Int :=
  if n < 2 ^ (bits - 1) then (n : Int) else (n : Int) - (2 ^ bits : Nat)

/-- The unsigned number of `bits` bits that holds an integer (two's complement). -/
def ofSigned (bits : Nat) (z : Int) : Nat := (z % (2 ^ bits : Nat)).toNat

/-- Signed fields of 1, 2, 4, 6 and 8 bytes. -/
def s8 (b : Bytes) (i : Nat) : Int := toSigned 8 (byteAt b i)
def s16 (b : Bytes) (i : Nat) : Int := toSigned 16 (u16 b i)
def s32 (b : Bytes) (i : Nat) : Int := toSigned 32 (u32 b i)
def s48 (b : Bytes) (i : Nat) : Int := toSigned 48 (u48 b i)
def s64 (b : Bytes) (i : Nat) : Int := toSigned 64 (u64 b i)

/-- A number as `n` little-endian bytes; higher bits are dropped (R6). -/
def le : Nat → Nat → Bytes
  | 0, _ => []
  | n + 1, v => BitVec.ofNat 8 v :: le n (v / 256)

/-- A signed number as `n` little-endian bytes. -/
def leS (n : Nat) (z : Int) : Bytes := le n (ofSigned (8 * n) z)

/-- A bit vector as `n` little-endian bytes. -/
def leB (n : Nat) {w : Nat} (v : BitVec w) : Bytes := le n v.toNat

/-- `n` zero bytes: a reserved field of a response (R7). -/
def zeros (n : Nat) : Bytes := List.replicate n 0

/-- The `n` bytes at offset `i`, filled with 0 beyond the end. -/
def slice (b : Bytes) (i n : Nat) : Bytes :=
  let part := (b.drop i).take n
  part ++ zeros (n - part.length)

/-- A byte string cut or filled with 0 to exactly `n` bytes. -/
def fit (n : Nat) (b : Bytes) : Bytes := slice b 0 n

/-- Bit `k` of a number. -/
def bit (n k : Nat) : Bool := n / 2 ^ k % 2 == 1

/-- Bits `hi` to `lo` of a number. -/
def field (n hi lo : Nat) : Nat := n / 2 ^ lo % 2 ^ (hi - lo + 1)

/-- A flag as 0 or 1. -/
def flag (b : Bool) : Nat := if b then 1 else 0

/-- A list of flags as a number, the first flag bit 0. -/
def bitsOf : List Bool → Nat
  | [] => 0
  | b :: r => flag b + 2 * bitsOf r

/-- The largest number of a list, 0 for none. -/
def maxOf (l : List Nat) : Nat := l.foldl max 0

/-- The smallest number of a list, none for none. -/
def minOf : List Nat → Option Nat
  | [] => none
  | a :: r => some (r.foldl min a)

/-- The sum of a list. -/
def sumOf (l : List Nat) : Nat := l.foldl (· + ·) 0

/-- The sum of a list of integers. -/
def sumInt (l : List Int) : Int := l.foldl (· + ·) 0

/-- Division rounded up. -/
def ceilDiv (a b : Nat) : Nat := (a + b - 1) / b

/-- A quotient; by 0 it is a free value (log 40). -/
def quot (a b : Nat) : Nat := if b = 0 then (Config.byZero a).toNat else a / b

/-- An integer held between two bounds. -/
def clampInt (lo hi z : Int) : Int := if z < lo then lo else if hi < z then hi else z

/-- A number held between two bounds. -/
def clampNat (lo hi n : Nat) : Nat := if n < lo then lo else if hi < n then hi else n

/-- The distance of two integers. -/
def distInt (a b : Int) : Nat := (a - b).natAbs

/-- Bits of the square root of `n` below the root found so far, the highest first. -/
def isqrtGo : Nat → Nat → Nat → Nat
  | 0, _, r => r
  | k + 1, n, r => let c := r + 2 ^ k; isqrtGo k n (if c * c ≤ n then c else r)

/-- The integer square root of a number below 2^128. -/
def isqrt (n : Nat) : Nat := isqrtGo 64 n 0

/-- The numbers 0 to n − 1 at which a test holds. -/
def indicesWhere (n : Nat) (p : Nat → Bool) : List Nat := (List.range n).filter p

/-- One entry of a list replaced. -/
def setAt {α : Type} (l : List α) (i : Nat) (a : α) : List α := l.set i a

/-- One entry of a list changed. -/
def modAt {α : Type} (l : List α) (i : Nat) (f : α → α) : List α := l.modify i f

/-- The entry of a sparse table at an index, `d` where none is listed. -/
def smGet {α : Type} (t : SMap α) (d : α) (i : Nat) : α :=
  match t with
  | [] => d
  | (k, v) :: r => if k = i then v else smGet r d i

/-- Whether an index is listed. -/
def smHas {α : Type} (t : SMap α) (i : Nat) : Bool := t.any fun e => e.1 == i

/-- The entry of a sparse table at an index, none where none is listed. -/
def smFind {α : Type} (t : SMap α) (i : Nat) : Option α :=
  match t with
  | [] => none
  | (k, v) :: r => if k = i then some v else smFind r i

/-- A sparse table with one entry written, indices rising. -/
def smSet {α : Type} (t : SMap α) (i : Nat) (a : α) : SMap α :=
  match t with
  | [] => [(i, a)]
  | (k, v) :: r =>
    if k = i then (i, a) :: r else if i < k then (i, a) :: (k, v) :: r else (k, v) :: smSet r i a

/-- A sparse table with one entry taken out. -/
def smDel {α : Type} (t : SMap α) (i : Nat) : SMap α := t.filter fun e => e.1 != i

/-- A sparse table with consecutive entries written from an index on. -/
def smSetRun {α : Type} (t : SMap α) (i : Nat) : List α → SMap α
  | [] => t
  | a :: r => smSetRun (smSet t i a) (i + 1) r

/-- A value inserted into a rising list by a key. -/
def insertBy {α : Type} (key : α → Int) (a : α) : List α → List α
  | [] => [a]
  | b :: r => if key a < key b then a :: b :: r else b :: insertBy key a r

/-- A list in rising order of a key; equal keys keep their order. -/
def sortBy {α : Type} (key : α → Int) (l : List α) : List α :=
  l.foldl (fun acc a => insertBy key a acc) []

/-- The first entry with the least key. -/
def leastBy {α : Type} (key : α → Int) : List α → Option α
  | [] => none
  | a :: r => match leastBy key r with
    | none => some a
    | some b => if key b < key a then some b else some a

end Sys2Proof.Machine
end

