-- ==== Sys2Proof/Machine/PartsPress.lean ====
section
/-! DEFINITION. The records that `State` is built from, second part: bars and heads, benches and sequencers, web
position, SETT links, vision, colour loop, drop gates and variable data. -/

namespace Sys2Proof.Machine

/-- A row record of a head slot (R162, R163). -/
structure RowRec where
  nozzleFirst : Nat
  nozzleCount : Nat
  dotFirst    : Nat
  dotStep     : Nat
  redundant   : Bool
  descending  : Bool
  rowOffset   : Nat
  deriving DecidableEq, Repr

/-- A slot record with its rows; no rows: the slot is empty (R162). -/
structure SlotRec where
  typeCode   : Nat := 0
  dotStart   : Nat := 0
  downOffset : Nat := 0
  nozzleBase : Nat := 0
  rows       : List RowRec := []
  deriving DecidableEq, Repr

/-- A committed bar table (R189): its printable width and its 32 slots. -/
structure BarTable where
  width : Nat
  slots : List SlotRec
  deriving DecidableEq, Repr

/-- What is known of the head of one slot (R171 to R176, R185 to R187, R468 to R470). -/
structure Head where
  /-- last record received; 64 bytes; 06 R171; reset none -/
  record : Option (List Byte) := none
  /-- whether a head was reported present; 06 R172; reset no (a head never reported holds no cause) -/
  reported : Option Bool := none
  /-- whether its record has been accepted; 06 R173; reset no -/
  accepted : Bool := false
  /-- serial accepted last; 16 bytes; 06 R173; reset none -/
  serial : Option (List Byte) := none
  /-- blank causes 1 to 7 present; 06 R172, R185; reset none -/
  causes : List Nat := []
  /-- the blanking of the head in force: the device line from which its nozzles are out; 06 R185; reset none -/
  outFrom : Option Nat := none
  /-- the line from which a resumed head prints, while that line lies ahead; 06 R186; reset none -/
  resumeAt : Option Nat := none
  /-- device lines over which the head was out under earlier blankings, from the first to before the second, the last 8; 06
  R180, R181; reset none -/
  outPast : List (Nat × Nat) := []
  /-- BLANK is carried by its fire blocks; 06 R185, R186; reset no -/
  blank : Bool := false
  /-- bounds of the band map; 7 x signed 16 bits; 06 R174; reset 0x7FFF each -/
  bounds : List Int := List.replicate 7 0x7FFF
  /-- waveform slots of the band map; 8 x 4 bits; 06 R174; reset 0 each -/
  waves : List Nat := List.replicate 8 0
  /-- band; 0 to 7; 06 R175; reset 0 -/
  band : Nat := 0
  /-- waveform slot in force; 06 R176; reset 0 -/
  wave : Nat := 0
  /-- last valid temperature; signed 0.1 degree; 06 head.query; reset none (0x8000) -/
  temp : Option Int := none
  /-- consecutive reports flagged not valid; 16 R469; reset 0 -/
  invalid : Nat := 0
  /-- device clock of the last report; 16 R469; reset none -/
  reportAt : Option Nat := none
  deriving DecidableEq, Repr

/-- One fire block packed for a bar (R177). -/
structure FireBlock where
  slot     : Nat
  blank    : Bool
  code3    : Bool
  last     : Bool
  wave     : Nat
  delay    : Nat
  winFirst : Nat
  winCount : Nat
  codes    : List Nat
  deriving DecidableEq, Repr

/-- One output line of the bench: the code of every bar dot with the nozzle that serves it (R124, R168). -/
structure OutLine where
  line  : Nat
  /-- dot, code, serving nozzle index; dots of code 0 are not listed -/
  codes : List (Nat × Nat × Nat)
  deriving DecidableEq, Repr

/-- A serve data change on its way to the bar driver (R181, R256). -/
structure ServeChange where
  /-- 0 bar table, 1 stitch mask, 2 stitch ramps, 3 nozzle state -/
  item   : Nat
  change : Nat
  line   : Nat
  /-- device line whose state of the tables it carries -/
  at_    : Nat
  /-- byte offset of the next part to send, and the bytes of the item -/
  offset : Nat
  total  : Nat
  deriving DecidableEq, Repr

/-- A drop gate (R328 to R333, cal.gate_config). -/
structure Gate where
  /-- source; 0 off, 1 device, 2 bar driver; 10 cal.gate_config; reset DESIGN CHOICE 0 (log 6) -/
  source : Nat := 0
  /-- r; 10 cal.gate_config; reset 2 (default) -/
  repeats : Nat := 2
  /-- test level; 10 cal.gate_config; reset DESIGN CHOICE 1 (log 6) -/
  level : Nat := 1
  /-- emitter current in mA; 10 cal.gate_config; reset 0, sink off (17 R501) -/
  emitterMa : Nat := 0
  /-- miss_frac; 10 cal.gate_config; reset 96 (default) -/
  missFrac : Nat := 96
  /-- miss_n; 10 cal.gate_config; reset 2 (default) -/
  missN : Nat := 2
  /-- t_min; 10 cal.gate_config; reset DESIGN CHOICE 0 (log 6) -/
  tMin : Nat := 0
  /-- t_max; 10 cal.gate_config; reset DESIGN CHOICE 1 (log 6) -/
  tMax : Nat := 1
  /-- dev_tol; 10 cal.gate_config; reset 32 (default) -/
  devTol : Nat := 32
  /-- noise_max; 10 cal.gate_config; reset 64 (default) -/
  noiseMax : Nat := 64
  /-- last 64 non-void results per head slot: area sum and mean arrival; 10 R331; reset none -/
  refs : SMap (List (Nat × Option Nat)) := []
  /-- consecutive failures per nozzle: missing, deviated; 10 R331; reset none -/
  fails : SMap (Nat × Nat) := []
  /-- the nozzle under test and its drops so far: area, arrival; 10 R329, R330; reset none -/
  testing : Option (Nat × List (Nat × Option Nat)) := none
  /-- nozzles placed first in the test order; 10 R332, R333; reset none -/
  first : List Nat := []
  /-- nozzles tested ahead of their place in this scan cycle; 10 R333; reset none -/
  early : List Nat := []
  /-- next bar nozzle index of the scan; 10 R333; reset 0 -/
  scan : Nat := 0
  /-- scan cycles completed; 10 cal.gate_query; reset 0 -/
  cycles : Nat := 0
  /-- device clock of the start of the cycle; 10 R333; reset 0 -/
  cycleAt : Nat := 0
  /-- results since the last field-die reset; 64 bits; 10 cal.gate_query; reset 0 -/
  tests : Nat := 0
  /-- void drops; 10 cal.gate_query; reset 0 -/
  voids : Nat := 0
  /-- consecutive drops void by noise; 10 GATE_FAULT; reset 0 -/
  noisy : Nat := 0
  /-- samples received, by fire line [15:0] and sample index from its fire instant; 10 R328; reset none -/
  samples : List (Nat × Int × Nat) := []
  /-- device clock of the last sample; 10 GATE_FAULT; reset none -/
  sampleAt : Option Nat := none
  /-- the test drop in flight: nozzle, fire line, and whether its line fired; 10 R329; reset none -/
  drop : Option (Nat × Nat × Bool) := none
  /-- device clock of its fire instant; 10 R329; reset none -/
  dropAt : Option Nat := none
  /-- fire lines of the bar and the device clocks of their instants, the newest first, the last 64; 10 R328; reset none -/
  instants : List (Nat × Nat) := []
  /-- commits not yet reported by GATE_MAP: change and nozzles; 10 GATE_MAP; reset none -/
  mapDue : List (Nat × Nat) := []
  /-- causes of GATE_FAULT told and still present; 10 GATE_FAULT; reset none -/
  told : List Nat := []
  deriving DecidableEq, Repr

/-- A channel of an aborted run on one bar: the device lines already handed to the lanes still fire (R87). -/
structure Drain where
  run     : Run
  /-- the channel as it was, and its handle -/
  channel : Channel
  handle  : BitVec 32
  deriving DecidableEq, Repr

/-- Sums of t over device lines of a run, from `line` on (R308, R323). -/
structure Strip where
  run  : BitVec 32
  line : Nat
  sums : SMap Nat
  /-- device clock at which the camera had passed its last line -/
  passed : Option Nat := none
  deriving DecidableEq, Repr

/-- One bar (R159 to R191, R210 to R214, R137 to R141). -/
structure Bar where
  /-- committed bar table; 06 R189; reset none -/
  table : Option BarTable := none
  /-- staged slot records, over the committed table; 06 R188; reset none -/
  staged : SMap SlotRec := []
  /-- nozzle table; 131,072 x 32 bits; 05 R131, R133; reset gain 0x8000 and no other field -/
  nozzles : Versioned (SMap (BitVec 32)) := ⟨[], [], none⟩
  /-- edits staged by the host, the colour loop and the drop gate; 05 R145; reset none -/
  nozzleEdits : List (SMap Edit) := [[], [], []]
  /-- substitution classes; 16 x 32 bits; 05 R137; reset order 1, side 0, bump 1 -/
  subst : Versioned (SMap (BitVec 32)) := ⟨[], [], none⟩
  /-- staged substitution classes; 05 R145; reset none -/
  substEdits : SMap (BitVec 32) := []
  /-- stitch ramp entries other than those of R141, by 256 x overlap + position; 05 R140, R141; reset R141's -/
  ramps : Versioned (SMap Nat) := ⟨[], [], none⟩
  /-- staged ramp entries; 05 R145; reset none -/
  rampEdits : SMap Nat := []
  /-- commits whose switches are armed, in the order of acceptance; 05 R146, R147; reset none -/
  switches : List Switch := []
  /-- device lines at which a table switched, a head was blanked or resumed, or the trim in force moved, the newest first,
  the last 4,096; 10 R312; reset none -/
  disturbed : List Nat := []
  /-- channels of aborted runs whose handed lines still fire; 03 R87; reset none -/
  drain : List Drain := []
  /-- commits of owners 1 and 2 held until a switch has taken effect; 10 R319; reset none -/
  heldOwners : List Nat := []
  /-- the 32 heads; 06; reset as Head -/
  heads : List Head := List.replicate 32 {}
  /-- software enable; 1 bit; 06 R183; reset 0 -/
  enable : Bool := false
  /-- driver state; 0 never seen, 1 up, 2 lost; 06 bar.query; reset 0 -/
  driver : Nat := 0
  /-- D declared by the driver; 16 bits, 0 while never seen; 06 bar.query, 08 R252; reset 0 -/
  fifo : Nat := 0
  /-- free FIFO lines and fault flags of the last DRIVER_STATUS; 08 R254; reset DESIGN CHOICE 0 (log 6) -/
  freeLines : Nat := 0
  driverFaults : BitVec 16 := 0
  /-- lines_suppressed; 64 bits; 06 R184; reset 0 -/
  suppressed : Nat := 0
  /-- lines_missed; 32 bits; 07 R214; reset 0 -/
  missed : Nat := 0
  /-- lines missed since the last LINE_MISSED, and its clock; 07 R214; reset none -/
  missedNew : Nat := 0
  missedAt : Option Nat := none
  /-- fire lines counted as missed before their instants; 07 R214; reset none -/
  missedAhead : List Nat := []
  /-- trim in force, in 1/64 line steps of 1/4 sixteenth; signed; 07 R211; reset DESIGN CHOICE 0 (log 6) -/
  trim4 : Int := 0
  /-- trim target of the host, signed sixteenths; 07 pos.trim; reset DESIGN CHOICE 0 (log 6) -/
  trimHost : Int := 0
  /-- registration correction, signed sixteenths; 10 R324; reset 0 -/
  regCorr : Int := 0
  /-- next fire line to fire, in the lines of the active runs; 07 R210; reset none -/
  nextFire : Option Nat := none
  /-- next output line to screen; 05 R124; reset none -/
  nextOut : Option Nat := none
  /-- next fire line to pack; 06 R178; reset none -/
  nextPack : Option Nat := none
  /-- output lines screened and still needed, for the row-delay buffer or not yet packed, the newest first; 06 R168;
  reset none -/
  outLines : List OutLine := []
  /-- fire lines handed to the lanes and not yet fired, the newest first: line, whether it was missed (R214), blocks; 06
  R178; reset none -/
  handed : List (Nat × Bool × List FireBlock) := []
  /-- lines that fire nothing after a link loss: fired again from this one; 08 R271; reset none -/
  resumeLine : Option Nat := none
  /-- serve data changes still to send, in order; 06 R181; reset none -/
  serve : List ServeChange := []
  /-- switch lines of the changes sent whole, as far as the driver may not have reached them; 06 R181; reset none -/
  serveSent : List Nat := []
  /-- change number of the next serve data change; 8 bits; 08 R256; reset DESIGN CHOICE 0 (log 6) -/
  serveNo : Nat := 0
  /-- dots lost by output line, of the last 1,024 lines, and the clock of the last DOTS_LOST; 05 R138; reset none -/
  lostLog : List (Nat × Nat) := []
  lostAt : Option Nat := none
  /-- head limit; signed 0.1 degree, none = disarmed; 16 R468; reset none -/
  headLimit : Option Int := none
  /-- auto-resume; 1 bit; 16 R468; reset 0 -/
  autoResume : Bool := false
  /-- the drop gate; 10 R328 to R333 -/
  gate : Gate := {}
  /-- minimum slack of the present window in 1/16 line, with the lines seen; 13 R409; reset none -/
  slackMin : Option Int := none
  slackLines : Nat := 0
  /-- last window minimum; 13 diag.slack_query; reset none (0x7FFF) -/
  slackLast : Option Int := none
  /-- lowest window minimum since the last field-die reset; 13 diag.slack_query; reset none -/
  slackWorst : Option Int := none
  /-- bench busy fraction of the last window; u0.16; 13 R409; reset DESIGN CHOICE 0 (log 6) -/
  busy : Nat := 0
  /-- windows completed; 64 bits; 13 diag.slack_query; reset 0 -/
  slackWindows : Nat := 0
  /-- consecutive windows whose end found S_min at or above FLOOR + HYST; 13 R410; reset 0 -/
  slackHigh : Nat := 0
  /-- clock of the last SLACK_LOW of the bar; 13 R411; reset none -/
  slackLowAt : Option Nat := none
  /-- demand strips kept, by loop bin; 10 R308; reset none -/
  strips : List Strip := []
  /-- demand profiles by device line: sums of t by registration window and head (`profileKey`); 10 R323, R325; reset none -/
  profile : List Strip := []
  deriving DecidableEq, Repr

/-- What a bench does (bench.status, R123, R154 to R156). -/
inductive BenchRole where
  | working (bar : Nat)
  | loading (bar : Nat)
  | shadowing (bar : Nat)
  /-- in in-service test; `declared`: after a faulty verdict (R154), else at rotation (R155) -/
  | testing (declared : Bool)
  | loaned (bar : Nat)
  | removed
  deriving DecidableEq, Repr

/-- One bench (R123 to R126, R152 to R156). -/
structure Bench where
  /-- role and bar; 05 bench.status; reset BENCHb works on bar b, BENCH8 is the spare (01) and loads bar 0 -/
  role : BenchRole := .removed
  /-- device clocks of the faulty verdicts of the last 24 h; 05 R154; reset none -/
  verdicts : List Nat := []
  /-- shadow mismatches since the last field-die reset; 32 bits; 05 bench.status; reset 0 -/
  mismatches : Nat := 0
  /-- output lines that have matched in the present shadowing; 10 R326; reset 0 -/
  matched : Nat := 0
  deriving DecidableEq, Repr

/-- The benches' rotation, and the two line sequencers (R152 to R156, R216, R217, R512, R513). -/
structure Benches where
  /-- the nine benches; 05; reset see Bench -/
  bench : List Bench :=
    (List.range 9).map fun b => { role := if b < 8 then .working b else .loading 0 }
  /-- rotation period in s, 0 = off; 05 R155; reset 120 -/
  period : Nat := 120
  /-- period that applies from the next takeover; 05 bench.rotation; reset none -/
  newPeriod : Option Nat := none
  /-- device clock at which the present rotation period ends; 05 R155; reset 120 s -/
  periodEnd : Nat := 120000000000
  /-- bar of the present or next shadowing; 3 bits; 05 R155; reset 0 -/
  rotBar : Nat := 0
  /-- bars that wait for the spare, each with the bench that failed it, the first first; 05 R153; reset none -/
  takeovers : List (Nat × Nat) := []
  /-- LSB drives; 1 bit; 18 R513, 07 pos.query; reset 0 -/
  lsbActive : Bool := false
  /-- state of the sequencer that compares, as what it differs by from that of the one that drives; 07 R216; reset equal -/
  lsDev : SeqDev := {}
  /-- the other sequencer is removed; 1 bit; 18 R513; reset 0 -/
  lsRemoved : Bool := false
  /-- a mismatch is being tested: item, bar; 07 R217; reset none -/
  lsTest : Option (Nat × Nat) := none
  /-- the sequencer that no longer drives is under test after a takeover; 18 R513; reset no -/
  lsFormerTest : Bool := false
  /-- device clocks of the failures of LSB and of LSA in the last 24 h; 07 R217, 18 R513; reset none -/
  lsbFails : List Nat := []
  lsaFails : List Nat := []
  deriving DecidableEq, Repr

/-- The filter of one signal of an encoder input (R193). -/
structure Filter where
  /-- accepted level; 07 R193; reset DESIGN CHOICE low (log 7) -/
  level : Bool := false
  /-- level of the last samples and their number, up to 255; 07 R193; reset DESIGN CHOICE low, 255 (log 7) -/
  raw : Bool := false
  run : Nat := 255
  deriving DecidableEq, Repr

/-- One encoder input (R192 to R197). -/
structure Encoder where
  /-- mode; 0 off, 1 x1, 2 x2, 3 x4; 07 pos.encoder_config; reset 0 -/
  mode : Nat := 0
  /-- filter N; 1 to 255; 07 R193; reset 4 -/
  filter : Nat := 4
  /-- invert flag; 07 R194; reset DESIGN CHOICE 0 (log 7) -/
  invert : Bool := false
  /-- termination; 07 R192; reset DESIGN CHOICE 0 (log 7) -/
  term : Bool := false
  /-- filters of A, B and Z, whose accepted levels count and latch; 07 R193 to R195; reset DESIGN CHOICE low (log 7) -/
  a : Filter := {}
  b : Filter := {}
  z : Filter := {}
  /-- raw count; 48-bit signed; 07 R197; reset 0 -/
  count : Int := 0
  /-- last Z capture: raw count; 07 R195; reset DESIGN CHOICE 0 (log 7) -/
  zCount : Int := 0
  /-- field device time of the last Z edge; 07 R195; reset DESIGN CHOICE 0 (log 7) -/
  zTime : Nat := 0
  /-- accepted Z edges; emulated outputs repeat them (R226) -/
  zEdges : Nat := 0
  /-- illegal transitions counted; 07 R194; reset 0 -/
  illegal : Nat := 0
  /-- counts at which the last illegal transitions came, newest first; 07 R196; reset none -/
  illegalAt : List Nat := []
  /-- counts taken, for the window of 1,024; 07 R196; reset 0 -/
  steps : Nat := 0
  /-- fault causes present: loss of signal, illegal transitions; 07 R196; reset none -/
  loss : Bool := false
  garbled : Bool := false
  /-- for an input that froze Φ, device clock since which no cause is present; 07 R196, R235; reset none -/
  absentSince : Option Nat := none
  deriving DecidableEq, Repr

/-- One registration mark input (R222, R223). -/
structure MarkInput where
  /-- enable; 07 pos.mark_config; reset DESIGN CHOICE 0 (log 7) -/
  enable : Bool := false
  falling : Bool := false
  window : Bool := false
  filterUs : Nat := 0
  maskLines : Nat := 0
  /-- expected position, 1/64 web line; 07 R223; reset DESIGN CHOICE 0 (log 7) -/
  expect : Nat := 0
  halfWidth : Nat := 0
  pitch : Nat := 0
  /-- position up to which the input is ignored after a mark, 1/64 web line; 07 R222; reset none -/
  ignoreTo : Option Int := none
  /-- θ has passed the present window, and MARK missed is written for it; 07 R223; reset no -/
  passed : Bool := false
  deriving DecidableEq, Repr

/-- One emulated encoder output (R224 to R226). -/
structure EmuOut where
  /-- source; 0 off (high impedance), 1 raw count, 2 web position; 07 pos.emu_config, 17 R501; reset 0 -/
  source : Nat := 0
  input : Nat := 0
  invert : Bool := false
  zEnable : Bool := false
  n : Nat := 1
  m : Nat := 1
  zPeriod : Nat := 0
  /-- min_edge_ns; 07 R225; reset 100 -/
  minEdge : Nat := 100
  /-- value of the followed input at the last configuration; 07 R224; reset 0 -/
  base : Int := 0
  /-- output counts emitted since; 07 R224; reset 0 -/
  emitted : Int := 0
  /-- levels of A, B and Z; 17 R501; reset DESIGN CHOICE low behind the high impedance (log 7) -/
  a : Bool := false
  b : Bool := false
  z : Bool := false
  /-- Z edges of the input already repeated; 07 R226; reset 0 -/
  zSeen : Nat := 0
  /-- device clock of the last edge and of the last EMU_OVERRUN; 07 R225; reset none -/
  edgeAt : Option Nat := none
  overrunAt : Option Nat := none
  deriving DecidableEq, Repr

/-- Web position, tracking loop, marks, emulated outputs and cascade (R192 to R235). -/
structure Position where
  /-- encoder inputs 0 to 3; 07 R192 -/
  enc : List Encoder := List.replicate 4 {}
  /-- pos.track_config has been accepted; 07 R215; reset 0 -/
  configured : Bool := false
  /-- web source; 0 to 3 encoder, 4 cascade; 07 pos.track_config; reset DESIGN CHOICE 0 (log 7) -/
  source : Nat := 0
  /-- role; 0 standalone, 1 press master, 2 follower; 07 R227; reset DESIGN CHOICE 0 (log 7) -/
  role : Nat := 0
  /-- hyst; 0 to 15 counts; 07 R198; reset 4 -/
  hyst : Nat := 4
  /-- speed_avg; 0 to 6; 07 R200; reset 0 (DESIGN CHOICE, log 7) -/
  speedAvg : Nat := 0
  /-- standstill_ms; 07 R201; reset 20 -/
  standstillMs : Nat := 20
  /-- bandwidth_hz; 07 R205; reset 100 -/
  bandwidth : Nat := 100
  /-- num and den; 48 bits each; 07 R204; reset DESIGN CHOICE 1/1 (log 7) -/
  num : Nat := 1
  den : Nat := 1
  /-- lag_limit; 1 to 64 web lines; 07 R207; reset 2 -/
  lagLimit : Nat := 2
  /-- word_interval; 0 every web line, 1 every 8; 07 R229; reset DESIGN CHOICE 0 (log 7) -/
  wordEvery8 : Bool := false
  /-- high-water count h; 07 R197; reset 0 -/
  high : Int := 0
  /-- base of theta: h0 and theta0 (web lines x 2^16); 07 R197; reset 0 -/
  h0 : Int := 0
  theta0 : Int := 0
  /-- theta of a follower, from the cascade words; 64 bits; 07 R227; reset 0 -/
  thetaCascade : Int := 0
  /-- in reverse debt, and the largest debt of it; 07 R198; reset no -/
  inDebt : Bool := false
  maxDebt : Int := 0
  /-- Phi in web lines x 2^32; the manual's Phi is its upper part; 07 R203, R205, R215; reset 0 -/
  phi32 : Int := 0
  /-- v of the loop in web lines per s x 2^32; 07 R205; reset 0 -/
  vel32 : Int := 0
  /-- v waits for a valid speed after standstill; 07 R208; reset 0 -/
  preset : Bool := false
  /-- slip flag; 07 R207; reset 0 -/
  slip : Bool := false
  /-- encoder-fault freeze, and the inputs whose fault froze Φ; 07 R196; reset 0, none -/
  frozen : Bool := false
  frozenBy : List Nat := []
  /-- standstill declared; 07 R201; reset yes (DEDUCED: no count has arrived, log 8) -/
  still : Bool := true
  /-- device clocks of the last counts of one direction, newest first, and that direction; 07 R200; reset none -/
  stamps : List Nat := []
  dir : Int := 1
  /-- device clock of the last loop update; 07 R205; reset 0 -/
  loopAt : Nat := 0
  /-- rate of Phi over the last loop update, web lines per s; 07 pos.query; reset 0 -/
  rate : Nat := 0
  /-- mark inputs 0, 1; 07 R222 -/
  marks : List MarkInput := List.replicate 2 {}
  /-- emulated outputs 0 to 3; 07 R224 -/
  emus : List EmuOut := List.replicate 4 {}
  /-- ends of the pulses on the field outputs TOUT_F0 to F3, device clock; 07 R221, 17 R501; reset none (low) -/
  pulses : List (List (Nat × Nat)) := List.replicate 4 []
  /-- Phi >> 10 at the last position word sent, its clock and next seq; 07 R229; reset DESIGN CHOICE 0 (log 7) -/
  wordPos : Nat := 0
  wordAt : Nat := 0
  wordSeq : Nat := 0
  /-- follower: last seq received, clock of the last valid word (or of the start of its supervision), words missed in a row, position last received;
  07 R231; reset none -/
  rxSeq : Option Nat := none
  rxAt : Option Nat := none
  rxMissed : Nat := 0
  rxPos : Nat := 0
  /-- follower: cascade lost, and valid words in a row since; 07 R231, R232; reset no -/
  cascadeLost : Bool := false
  rxGood : Nat := 0
  deriving DecidableEq, Repr

/-- States of the block alignment machine of a lane (R243). -/
inductive AlignState where
  | hunt
  | try (count : Nat)
  | locked (invalid : List Bool)
  deriving DecidableEq, Repr

/-- A block as a lane's receiver takes it from the destuffed bits: the header, the 16 payload bytes as they came, and
whether a stuffing violation fell inside it (R239, R242). -/
structure RxBlock where
  h0 : Bool
  h1 : Bool
  payload : List Byte
  viol : Bool
  deriving DecidableEq, Repr

/-- One SETT lane pair at the device's end (R237 to R268). -/
structure Lane where
  /-- alignment state; 08 R243; reset HUNT -/
  align : AlignState := .hunt
  /-- candidate position in the bit stream, moved 1 bit later on each invalid header; 08 R243; reset 0 -/
  candidate : Nat := 0
  /-- receive stuffing: identical bits in a row, and the last bit; 08 R242; reset 0 -/
  rxRun : Nat := 0
  rxLast : Bool := false
  /-- destuffed bits from the candidate position on, newest first, and a violation among them; 08 R242, R243; reset none -/
  rxBits : List Bool := []
  rxViol : Bool := false
  /-- blocks received while LOCKED that no step has taken, oldest first; 08 R239; reset none -/
  rx : List RxBlock := []
  /-- IDLE payloads in a row that were descrambled to 0; 08 R245; reset 0 -/
  idleRun : Nat := 0
  /-- transmit scrambler state; 31 bits, non-zero; 08 R240, R241; reset DESIGN CHOICE 1 (log 9) -/
  txScr : BitVec 31 := 1
  /-- descrambler state; 31 bits; 08 R241; reset DESIGN CHOICE 1 (log 9) -/
  rxScr : BitVec 31 := 1
  /-- the descrambler is loaded; 08 R241; reset no -/
  seedOk : Bool := false
  /-- received bits are inverted, and the polarity is settled; 08 R246; reset no -/
  inverted : Bool := false
  settled : Bool := false
  /-- blocks in a row that passed as TS1 as received, and as inverted TS1; 08 R246; reset 0 -/
  ts1Run : Nat := 0
  ts1InvRun : Nat := 0
  /-- logical lane seen in the last TS1, partner's phase, status and rate -/
  rxLogical : Nat := 0
  rxPhase : Nat := 0
  rxLocked : Bool := false
  rxSeed : Bool := false
  /-- own FIR taps c-1 and c+1; 08 R250; reset preset 0: 0, -8 -/
  pre : Int := 0
  post : Int := -8
  /-- partner's requests: one has come in this pass, the response code and req_seq answered, request 15 seen; 08 R251; reset none -/
  ts2Any : Bool := false
  ts2Resp : Nat := 0
  ts2Seq : Nat := 0
  partnerDone : Bool := false
  /-- own request in force and its req_seq, whether the partner has answered it, request 15 sent; 08 R251; reset none -/
  ownReq : Nat := 0
  ownSeq : Nat := 0
  ownAnswered : Bool := true
  ownDone : Bool := false
  /-- transmit stuffing: identical bits in a row, and the last bit; 08 R242; reset 0 -/
  txRun : Nat := 0
  txLast : Bool := false
  /-- blocks sent since the pass began; 08 R243, R245; reset 0 -/
  txCount : Nat := 0
  /-- time on the line not yet filled with bits, in 1/2 bit; below 0 where what was put on the lane takes longer; 08 R238; reset 0 -/
  txSlack : Int := 0
  /-- the line bits of the last 16 blocks sent, newest first; 08 R239, R240, R242; reset none -/
  line : List (List Bool) := []
  /-- next data block number to send; 16 bits; 08 R257; reset 0 -/
  txSeq : BitVec 16 := 0
  /-- packet bytes queued on the lane; 08 R254, R255; reset none -/
  txBytes : List Byte := []
  /-- data blocks kept until acknowledged, oldest first: number, payload; 08 R259; reset none -/
  kept : List (BitVec 16 × List Byte) := []
  /-- received packet bytes not yet taken, from the start of a packet; 08 R254; reset none -/
  rxBytes : List Byte := []
  /-- place in the partner's byte stream where the next byte lies: 16 × data block number + offset, modulo 2^20; 08 R257; reset 0 -/
  rxEnd : Nat := 0
  /-- data blocks received since the last ACK sent, and its clock; 08 R258; reset 0 -/
  sinceAck : Nat := 0
  ackAt : Nat := 0
  /-- clock of the last ack_seq advance; 08 R259; reset 0 -/
  advanceAt : Nat := 0
  /-- discarding data blocks after a NAK, until RESUME; 08 R260; reset no -/
  discarding : Bool := false
  /-- a NAK is due, a SYNC is requested by the partner, and the clock of the last SYNC sent; 08 R258, R260; reset no -/
  nakDue : Bool := false
  syncAsked : Bool := false
  syncAt : Option Nat := none
  /-- an ACK is due for a change of lock; 08 R258; reset no -/
  lockDue : Bool := false
  /-- counters: header errors, stuffing violations, CRC failures, replays, lock losses; 08 R267; reset 0, saturating -/
  headerErr : Nat := 0
  stuffViol : Nat := 0
  crcFail : Nat := 0
  replays : Nat := 0
  lockLoss : Nat := 0
  /-- replays and CRC failures of the last second, by clock; 08 R268; reset none -/
  replayAt : List Nat := []
  crcAt : List Nat := []
  /-- own eye height and width; 08 R267; reset DESIGN CHOICE 0 (log 9) -/
  eyeHeight : Nat := 0
  eyeWidth : Nat := 0
  /-- whether an own eye measurement has been made; 08 R267; reset no -/
  eyeKnown : Bool := false
  /-- bytes 1 to 8 of the partner's last EYE; 08 sett.query; reset DESIGN CHOICE 0 (log 9) -/
  partnerEye : List Byte := List.replicate 8 0
  partnerEyeKnown : Bool := false
  /-- clock of the last EYE sent, and errors since; 08 R267; reset 0 -/
  eyeAt : Nat := 0
  /-- header errors and stuffing violations counted up to the last EYE report sent; 08 EYE; reset 0 -/
  eyeErrors : Nat := 0
  /-- clock at which lock was lost; 08 R268; reset none -/
  lostAt : Option Nat := none
  /-- clock since which the partner has reported this lane without lock; 08 R268; reset none -/
  farLostAt : Option Nat := none
  /-- condition; 0 good, 1 degraded, 2 failed, and the cause last told; 08 R268, LANE_HEALTH; reset 0, 0 -/
  health : Nat := 0
  healthCause : Nat := 0
  deriving DecidableEq, Repr

/-- States of a link (sett.query, R245 to R252, R271). -/
inductive LinkState where
  | disabled | training | active | offline | refused
  deriving DecidableEq, Repr

/-- One SETT link (R237, R245 to R278). -/
structure Link where
  /-- link state; 08 sett.query; reset disabled (17 R501) -/
  state : LinkState := .disabled
  /-- it has been enabled by sett.config; 08 R276; reset no -/
  configured : Bool := false
  /-- configured rate code; 08 sett.config; reset DESIGN CHOICE 0 (log 9) -/
  rateCfg : Nat := 0
  /-- rate code in force, and the rate of the last ACTIVE state; 08 R247, R276; reset 0, none -/
  rate : Nat := 0
  trained : Option Nat := none
  /-- rate code for which the pass under way was started; 08 R247, R249; reset 0 -/
  passRate : Nat := 0
  /-- training phase; 0 ALIGN to 4 READY; 08 R245; reset 0 -/
  phase : Nat := 0
  /-- a pass is running, its start, and whether it is the second pass; 08 R245, R247; reset no -/
  pass : Bool := false
  passAt : Nat := 0
  second : Bool := false
  /-- clock at which the phase was entered; 08 R251; reset 0 -/
  phaseAt : Nat := 0
  /-- a rate change or retrain is deferred to the end of the pass; 08 R249; reset no -/
  deferred : Bool := false
  /-- LINK_STATE for OFFLINE has been written; 08 R248; reset no -/
  offlineTold : Bool := false
  /-- physical lanes are swapped; 08 R246; reset no -/
  swapped : Bool := false
  /-- CONFIG blocks received identical in a row, and the partner's last CONFIG payload; 08 R245; reset none -/
  configs : Nat := 0
  partner : List Byte := List.replicate 16 0
  /-- echoes received in LAT and the sum of their round trips, 1/16 tick; 08 R253; reset 0 -/
  echoes : Nat := 0
  echoSum : Nat := 0
  /-- transmit stamps of the probes outstanding; 08 R253; reset none -/
  probes : List Nat := []
  /-- one-way latency, 1/16 tick; 08 R253; reset 0 (DESIGN CHOICE, log 9) -/
  latency : Nat := 0
  /-- partner's latest cumulative credit, and units sent; 08 R262; reset 0 -/
  credit : Nat := 0
  sent : Nat := 0
  /-- credit granted to the partner; 08 R262; reset 0 -/
  granted : Nat := 0
  /-- driver's fire_limit; 16 bits; 08 R262; reset 0 -/
  fireLimit : Nat := 0
  /-- partner's lock report of its receive lanes 0 and 1, logical; 08 ACK; reset no -/
  farLock0 : Bool := false
  farLock1 : Bool := false
  /-- lanes replaced by a spare: spare lane 16 or 17, kind 0 wired, 1 core, logical lane replaced; 08 R269; reset none -/
  remaps : List (Nat × Nat × Nat) := []
  /-- logical lanes that carry no packets; 08 R268; reset none -/
  down : List Nat := []
  /-- lanes of those for which no spare was found, which has been told; 08 R269; reset none -/
  alone : List Nat := []
  /-- a remapped lane's own training pass before its return: logical lane, phase, start, and whether it failed; 08 R270; reset none -/
  lanePass : Option (Nat × Nat × Nat × Bool) := none
  /-- good packets handed on and not yet taken by the step of their type, oldest first; 08 R254; reset none -/
  inbox : List (Nat × List Byte) := []
  /-- clock of the last TIME block (links 8, 9); 08 R266; reset 0 (DESIGN CHOICE, log 9) -/
  timeAt : Nat := 0
  /-- links 12, 13: bar wired to the spare; 08 sett.config; reset none -/
  spareBar : Option Nat := none
  /-- packets of an undefined type or direction, counted; 08 R254; reset 0 -/
  badPackets : Nat := 0
  /-- master latency received from upstream, ns; 08 R265; reset 0 -/
  masterLatency : Nat := 0
  /-- general packets that wait for credit, oldest first: type, body; 08 R262; reset none -/
  waiting : List (Nat × List Byte) := []
  /-- what the device has put on the link once it was ACTIVE or for a probe, newest first, the last 512, before scrambling:
  packet or control block type, and the whole packet or block; 08 R254, R263; reset none -/
  txLog : List (Nat × List Byte) := []
  deriving DecidableEq, Repr

/-- The serial links (R237 to R278). -/
structure Sett where
  /-- links 0 to 13; 08 R237 -/
  links : List Link := List.replicate 14 {}
  /-- lanes 0 to 23; 08 R237 -/
  lanes : List Lane := List.replicate 24 {}
  /-- spare cores switched onto the balls of a bar lane: spare 0 or 1, bar, logical lane, since; 08 R269; reset none -/
  cores : List (Nat × Nat × Nat × Nat) := []
  deriving DecidableEq, Repr

/-- A sensor of a CAMSET (R284). -/
structure Sensor where
  colSwap   : Bool := false
  mirror    : Bool := false
  cropLeft  : Nat := 0
  cropRight : Nat := 0
  firstPx   : Nat := 0
  pixels    : Nat := 0
  deriving DecidableEq, Repr

/-- A statistics block of a frame (R297). -/
structure StatsBlock where
  frame    : Nat
  bytes    : List Byte
  flags    : Nat
  /-- the colour loop has consumed it, and the host has released it (R299) -/
  consumed : Bool
  released : Bool
  deriving DecidableEq, Repr

/-- A capture that runs (R300): its buffer, its frame once that has started, its message, and the pixels once the
frame has ended. -/
structure Capturing where
  buffer : Nat
  frame  : Option Nat
  msg    : Msg
  bytes  : Option (List Byte)
  deriving DecidableEq, Repr

/-- A captured frame (R300): its buffer, frame number and pixels, and whether the host reads it and has not released
it. -/
structure Captured where
  buffer : Nat
  frame  : Nat
  bytes  : List Byte
  held   : Bool
  deriving DecidableEq, Repr

/-- A commit that waits for its frame start (R287): exposure set number, clock of its acceptance, exposure settings, and
the table bytes staged. -/
structure CamCommit where
  number   : Nat
  since    : Nat
  exposure : List Byte
  tables   : List (SMap Byte)
  deriving DecidableEq, Repr

/-- A CAMSET (R279 to R304). -/
structure CamSet where
  face     : Nat
  binLog2  : Nat
  depth    : Nat
  statsEvt : Bool
  hostHold : Bool
  width    : Nat
  frameLines : Nat
  camPitch : Nat
  maxRate  : Nat
  camOffset : Nat
  historyLines : Nat
  extents  : List Nat
  /-- sensors 0 to 3 (R284); none: not configured -/
  sensors  : List (Option Sensor) := [none, none, none, none]
  /-- tables 0 to 5 of cam.param_write in force, by byte; bytes not listed hold their value at creation (R303) -/
  tables   : List (SMap Byte) := List.replicate 6 []
  /-- bytes staged for them -/
  staged   : List (SMap Byte) := List.replicate 6 []
  /-- bytes of table 2 as last written by the host (R294) -/
  hostRef  : SMap Byte := []
  /-- exposure settings in force and staged: bytes 4 to 35 of CAM_CMD, the sensor numbers in their places (R281) -/
  exposure : List Byte := (List.range 4).flatMap fun k => [BitVec.ofNat 8 k, 0, 0, 0, 0, 0, 0, 0]
  exposureStaged : Option (List Byte) := none
  expSet   : Nat := 0
  expLast  : Nat := 0
  /-- commit waiting for its frame start (R287) -/
  pending  : Option CamCommit := none
  active   : Bool := false
  /-- activation or deactivation asked for, at the next frame start of the face (R304) -/
  activate : Option Bool := none
  /-- present frame number -/
  frame    : Nat := 0
  dropped  : Nat := 0
  /-- frames dropped since the activation, and the last frame whose block was written (R298, cam.stats_read) -/
  lost     : List Nat := []
  lastBlock : Option Nat := none
  missing  : Nat := 0
  late     : Nat := 0
  skipped  : Nat := 0
  mixed    : Nat := 0
  hubStatus : List Byte := List.replicate 16 0
  /-- statistics ring, the oldest block first (R299) -/
  ring     : List StatsBlock := []
  captures : List Captured := []
  capturing : List Capturing := []
  /-- temporal history by history line and face column, coded (R291); what is not listed reads 0 (log 12) -/
  history  : SMap (SMap Nat) := []
  /-- web position imaged at the activation, or of the last PLATE_SWITCHED, in 1/64 web line, by lane (R292) -/
  histFrom : SMap Nat := []
  /-- last FRAME_DROPPED: its clock, frames dropped since and the first of them -/
  dropAt   : Option Nat := none
  dropNew  : Nat := 0
  dropFirst : Nat := 0
  deriving DecidableEq, Repr

/-- A sensor line under assembly (R282, R283): its pixels as received, in segments. -/
structure SensorLine where
  line    : Nat
  sensor  : Nat
  /-- lane of the face link that it crosses (R282) -/
  lane    : Nat
  expSet  : Nat
  /-- capture tick [31:0], and its fraction in 1/256 tick -/
  tick    : Nat
  frac    : Nat
  pixels  : Nat
  /-- segments received, in order -/
  segs    : List (List Nat)
  ended   : Bool
  deriving DecidableEq, Repr

/-- One frame of a face under way (R286 to R289, R297), with the tables and exposure settings of its start. -/
structure FrameAcc where
  /-- slot of its CAMSET -/
  camset  : Nat
  frame   : Nat
  /-- frames started on the face before it (R312) -/
  serial  : Nat
  expSet  : Nat
  tables  : List (SMap Byte)
  exposure : List Byte
  flags   : Nat := 0
  missing : Nat := 0
  /-- output lines after stage 6, oldest first: output line, Φ >> 10 at the trigger of its first camera line, then per
  column o0..o3 -/
  out     : List (Nat × Nat × List (List Nat)) := []
  /-- windows of table 4 that collect an output line, by output line (R297) -/
  wins    : SMap (List Nat) := []
  /-- substrate samples after stage 3 by face column: number and sum (R294) -/
  substrate : SMap (Nat × Nat) := []
  /-- positions Φ >> 10 at the triggers of its first and last camera line; field device time of its first capture -/
  posFirst : Nat := 0
  posLast : Nat := 0
  time    : Option Nat := none
  /-- no statistics are kept: no accumulator was free, or throttle step T3 (R298, R464) -/
  dropped : Bool := false
  ended   : Bool := false
  deriving DecidableEq, Repr

/-- One camera face (R279 to R301). -/
structure Face where
  /-- slot of the active CAMSET; 09 R279; reset none -/
  active : Option Nat := none
  /-- camera line number of the next trigger; 09 R280; reset 0 -/
  nextLine : Nat := 0
  /-- Phi >> 10 at the last crossing, and clock of the last trigger; 09 R280; reset none -/
  trigPos : Option Nat := none
  trigAt : Option Nat := none
  /-- triggers sent, newest first, the last 131,072: line, Phi >> 10, exposure set; 09 R279, R291; reset none -/
  trigLog : List (Nat × Nat × Nat) := []
  /-- Phi >> 10 at the crossings that were skipped, newest first, the last 131,072; 09 R280, 11 R356; reset none -/
  skips : List Nat := []
  /-- sensor lines under assembly; 09 R283; reset none -/
  lines : List SensorLine := []
  /-- camera line of the last LINE_START, by 4 x lane + sensor; 09 R282, R283; reset none -/
  lineOn : SMap Nat := []
  /-- every line below this one is completed or discarded, and so are those listed; 09 R283; reset 0, none -/
  settledTo : Nat := 0
  settled : List Nat := []
  /-- mosaic lines after stage 2 that stage 3 still needs: line, pixels; 09 R293, R295; reset none -/
  recent : List (Nat × List Nat) := []
  /-- next output line that stages 3 to 6 take; 09 R295; reset 0 -/
  pairNext : Nat := 0
  /-- last frame started; 09 R298; reset none -/
  frameOn : Option Nat := none
  /-- frames started on the face, and that count at the last EXPOSURE_APPLIED; 10 R312; reset 0, none -/
  started : Nat := 0
  expAt : Option Nat := none
  /-- frames under way, and frames whose block waits for a ring entry, the oldest first; 09 R298; reset none -/
  frames : List FrameAcc := []
  /-- output lines kept for verification, newest first, the last 65,536: output line, columns; 11 R354; reset none -/
  outLog : List (Nat × List (List Nat)) := []
  /-- device clock of the last FLAT_DRIFT; 09 R294; reset none -/
  flatAt : Option Nat := none
  deriving DecidableEq, Repr

/-- The vision pipeline (R279 to R301). -/
structure Vision where
  /-- front and back face; 09 R279 -/
  faces : List Face := List.replicate 2 {}
  /-- VE0 and VE1 declared faulty; 09 R301; reset no -/
  fault : List Bool := [false, false]
  deriving DecidableEq, Repr

/-- Modes of a CALSET (R306). -/
inductive CalMode where
  | detached | observe | holding | correct
  deriving DecidableEq, Repr

/-- A registration window of a CALSET (table 2 of R335). -/
structure RegWindow where
  dotFirst : Nat
  dotCount : Nat
  linePhase : Nat
  lineCount : Nat
  enable : Bool
  deriving DecidableEq, Repr

/-- The parameter block of a CALSET, with its defaults (R335, R336). -/
structure CalParams where
  winFrames : Nat := 32
  lambda : Nat := 64
  commitEvents : Bool := false
  maxStep : Nat := 328
  gMin : Nat := 0x6000
  gMax : Nat := 0xA000
  obsN : Nat := 16
  obsVar : Nat := 40000
  obsCov : Nat := 205
  patchAfter : Nat := 4
  patchLines : Nat := 32
  tint : List Nat := [1024, 2048, 3072, 4095]
  regSearch : Nat := 256
  regMinCorr : Nat := 2458
  regStep : Nat := 2
  regRef : Nat := 0
  ffSettle : Nat := 8
  deriving DecidableEq, Repr

/-- What the last window found for one loop bin (table 6 of R335). -/
structure BinStat where
  e : Nat
  c : Nat
  observable : Bool
  patched : Bool
  atLimit : Bool
  n : Nat
  deriving DecidableEq, Repr

/-- A CALSET (R305 to R327, R335 to R339). -/
structure CalSet where
  face : Nat
  channelC : Nat
  registration : Bool
  patches : Bool
  mirrored : Bool
  x0 : Int
  colPitch : Nat
  extents : List Nat
  mode : CalMode := .detached
  channel : BitVec 32 := 0
  params : CalParams := {}
  ink : List Int := [0, 0, 0, 0, 0, 0, 0, 0]
  regWindows : List RegWindow := []
  /-- params, ink and windows that take effect at the next window start (R336) -/
  newTables : Option (CalParams × List Int × List RegWindow) := none
  /-- references written in CORRECT, from the next window on (R336) -/
  newRefs : Option (SMap Nat) := none
  /-- ref(j), bins not listed 0; g(j), bins not listed 0x8000; base[n], nozzles not listed 0x8000 (R336) -/
  ref : SMap Nat := []
  g : SMap Nat := []
  base : SMap Nat := []
  bins : SMap BinStat := []
  /-- used frames of the present window: frame, per bin x = P_own and y (R314) -/
  samples : List (Nat × List (Nat × Nat × Int)) := []
  /-- used frames so far in the window, windows since attach, windows in a row without observation per bin -/
  frames : Nat := 0
  windowsDone : Nat := 0
  unseen : SMap Nat := []
  /-- bar bins marked for patching (R321) -/
  patching : List Nat := []
  /-- bar bins excluded from the present window by FLAT_DRIFT (R313) -/
  excluded : List Nat := []
  /-- width and bin_log2 recorded at the first frame after attach (R312) -/
  camShape : Option (Nat × Nat) := none
  /-- bins whose gains wait for the next loop commit, and the largest step (R318) -/
  changed : List Nat := []
  largestStep : Nat := 0
  /-- line from which frames count for the next window (R318) -/
  fromLine : Nat := 0
  calCount : Nat := 0
  calTime : Nat := 0
  /-- a recalculation runs: reverting, its message with its opcode, its stage (0 waits for the loan, 1 computes, 2 committed),
  on a loaned spare (R326) -/
  recalc : Option (Bool × Option (Nat × Msg) × Nat × Bool) := none
  visionHold : Bool := false
  thermalPause : Bool := false
  headOffsets : List Int := List.replicate 32 0
  bandFactors : List Nat := List.replicate 31 0x8000
  /-- registration profile measured in the present window: window × 33 + head, position in 1/64 web line, density (R323) -/
  regProfile : List (Nat × Nat × Nat) := []
  /-- shift found by the last window in 1/256 sixteenth, its peak, and whether it was valid (R323) -/
  regFine : Int := 0
  regPeak : Int := 0
  regValid : Bool := false
  /-- first and last frame of that window, and whether the correction has used it (R324) -/
  regWindow : Option (Nat × Nat) := none
  regUsed : Bool := false
  deriving DecidableEq, Repr

/-- Codes of item states (R351). -/
inductive ItemState where
  | queued | rendered | fired | verified | failed | indeterminate | void
  deriving DecidableEq, Repr

/-- An element of a record (R344). -/
structure VdElement where
  type : Nat
  rot : Nat
  x : Nat
  y : Nat
  mw : Nat
  mh : Nat
  param : Nat
  invert : Bool
  data : List Byte
  deriving DecidableEq, Repr

/-- Verification settings of a stream (vd.verify_config). -/
structure VerifyCfg where
  on : Bool := false
  face : Nat := 0
  channelC : Nat := 0
  search : Nat := 0
  mirrored : Bool := false
  eventVerified : Bool := false
  x0 : Int := 0
  colPitch : Nat := 0
  passScore : Nat := 2867
  minContrast : Nat := 400
  timeoutMs : Nat := 10000
  deriving DecidableEq, Repr

/-- Reject settings of a stream (vd.reject_config). -/
structure RejectCfg where
  enable : Bool := false
  rejectIndet : Bool := false
  output : Nat := 0
  offset : Nat := 0
  lead : Nat := 0
  lag : Nat := 0
  deriving DecidableEq, Repr

/-- An item that is not final (R344 to R352). -/
structure Item where
  seq : Nat
  line : Nat
  verify : Bool
  dotX : Nat
  winW : Nat
  winH : Nat
  mode : Nat
  level : Nat
  elements : List VdElement
  size : Nat
  state : ItemState := .queued
  /-- the bench has decided: whether the window is used (R350) -/
  decided : Option Bool := none
  /-- rows of the rendered window, one Bool per dot (R348) -/
  bitmap : List (List Bool) := []
  /-- a line of the window has been lost (R352), the last line has fired or been lost, and when -/
  lostLine : Bool := false
  lastAt : Option Nat := none
  /-- the stream's settings when the item became FIRED (R365) -/
  verifyCfg : VerifyCfg := {}
  rejectCfg : RejectCfg := {}
  deriving DecidableEq, Repr

/-- A result record (vd.results). -/
structure VdResult where
  seq : Nat
  state : Nat
  armed : Bool
  late : Bool
  cause : Nat
  score : Nat
  contrast : Int
  dx : Int
  dy : Int
  line : Nat
  time : Nat
  deriving DecidableEq, Repr

/-- An armed reject: output, start and end in 1/64 web line (R358). -/
structure Reject where
  output : Nat
  start : Int
  stop : Int
  driving : Bool
  deriving DecidableEq, Repr

/-- A VDSTREAM (R341 to R365). -/
structure VdStream where
  streamId : Nat
  itemsPerS : Nat
  maxRecord : Nat
  maxWindow : Nat
  ringRecords : Nat
  storeBytes : Nat
  results : Nat
  extents : List Nat
  engine : Nat
  channel : BitVec 32 := 0
  items : List Item := []
  lastSeq : Option Nat := none
  lastLine : Nat := 0
  resultRing : List VdResult := []
  resultNext : Nat := 0
  verified : Nat := 0
  failed : Nat := 0
  indet : Nat := 0
  voided : Nat := 0
  verifyCfg : VerifyCfg := {}
  rejectCfg : RejectCfg := {}
  rejects : List Reject := []
  /-- field outputs that rejects beyond 1,024 hold high (R360) -/
  held : List Nat := []
  deriving DecidableEq, Repr

/-- A font slot (R346, R366). -/
structure Font where
  bytes : List Byte := []
  usable : Bool := false
  deriving DecidableEq, Repr

/-- Variable data outside the streams (R343 to R366). -/
structure Vd where
  /-- VD0 and VD1 declared faulty; 11 R363; reset no -/
  fault : List Bool := [false, false]
  /-- font slots 0 to 7; 11 R346; reset DESIGN CHOICE empty and unusable (log 10) -/
  fonts : List Font := List.replicate 8 {}
  /-- Cairn's table of items in RENDERED or FIRED: stream_id, seq, line, state; at most 32,768; 11 R349; reset none -/
  cairn : List (Nat × Nat × Nat × Nat) := []
  /-- recovery lists: stream_id, entries of seq, line, state; 11 R361; reset none -/
  recovery : List (Nat × List (Nat × Nat × Nat)) := []
  /-- Cairn's counters of final states: VERIFIED, FAILED, INDETERMINATE, VOID; 11 R351; reset 0 -/
  finals : List Nat := [0, 0, 0, 0]
  deriving DecidableEq, Repr

end Sys2Proof.Machine
end

