-- ==== Sys2Proof/Machine/PartsSystem.lean ====
section
/-! DEFINITION. The records that `State` is built from, third part: image memory, arbitration, voltage, Ethernet ports,
time, Saddle, interlocks, temperature, supplies, reset, boot, fail-over and Cairn. -/

namespace Sys2Proof.Machine

/-- The memory record of diag.mem_config (R389), less the settings that take effect at once. -/
structure MemConfig where
  /-- rate; 0 4,800, 1 5,200, 2 5,600 MT/s; 12 R389; default 0 -/
  rate : Nat := 0
  /-- width; 0 x8, 1 x16; 12 R389; default 1 -/
  x16 : Bool := true
  /-- density; 0 8 Gbit, 1 16 Gbit, 2 32 Gbit; 12 R389; default 0 -/
  density : Nat := 0
  /-- ranks; 12 R389; default PRESUMED 1 (log 11) -/
  ranks : Nat := 1
  /-- grain_log2 g; 12 R372; default 8 -/
  grain : Nat := 8
  /-- map given; none = the default map of R372 -/
  map : Option (List (BitVec 8) × List (BitVec 32)) := none
  deriving DecidableEq, Repr

/-- The DDR5 image memory (R367 to R389). Lists of 8 are indexed by sc × 2 + rank. -/
structure Memory where
  /-- DRAM bytes by device address in the canonical form of `Memory.wf`; an unlisted byte reads 0: DESIGN CHOICE
  (log 12); 12 R370; reset none listed -/
  cells : List Host.Cell := []
  /-- numbers of the 8-byte words whose check bits make a read of their 64-byte segment uncorrectable; 12 R375, R376;
  reset none -/
  poison : List Nat := []
  /-- segments whose last read was uncorrectable, with its cause (1 ECC, 2 address tag), until they are written whole;
  12 R375; reset none (DESIGN CHOICE, log 42) -/
  bad : List (Nat × Nat) := []
  /-- level of DDR_RESET_N; 17 R480; reset low -/
  resetN : Bool := false
  /-- configuration in force; 12 R389; reset the record stored, or its default -/
  inForce : MemConfig := {}
  /-- memory record stored in the field NOR; 12 R389; reset DESIGN CHOICE none stored (log 11) -/
  stored : Option MemConfig := none
  /-- a stored record waits for the next field-die reset; 12 diag.mem_query; reset no -/
  recordPending : Bool := false
  /-- trained; 1 bit; 12 diag.mem_query; reset 0 -/
  trained : Bool := false
  /-- training has failed: the store holds no extents; 12 R387; reset 0 -/
  failed : Bool := false
  /-- fallback to 4,800; 1 bit; 12 R387; reset 0 -/
  fallback : Bool := false
  /-- trained delay words, 128 per sc × 2 + rank, by 128 × (2 sc + rank) + i; 12 R385; reset 0 -/
  delays : SMap (BitVec 32) := []
  /-- pd_clocks; 16 bits; 12 R378; reset DESIGN CHOICE 0 (never) (log 11) -/
  pdClocks : Nat := 0
  /-- sr_idle_us; 32 bits; 12 R379; reset 1,000,000 -/
  srIdleUs : Nat := 1000000
  /-- scrub_hours; 8 bits; 12 R377; reset 24 -/
  scrubHours : Nat := 24
  /-- ranks in precharge power-down; 12 R378; reset none -/
  powerDown : List Bool := List.replicate 8 false
  /-- clock of the last command to each rank; 12 R378; reset 0 -/
  lastCmd : List Nat := List.replicate 8 0
  /-- self-refresh: 0 out, 1 in, with the clock of the last request; 12 R379; reset out -/
  selfRefresh : Bool := false
  /-- an exit is under way, and the clock at which it completes; 12 R380; reset none -/
  srExit : Option Nat := none
  /-- clock since which the three conditions of R379 have held; 12 R379; reset 0 -/
  idleSince : Nat := 0
  /-- refresh band and temperature of each rank; 12 R381; reset DESIGN CHOICE band 0, 0 degrees (log 11) -/
  band : List Nat := List.replicate 8 0
  temp : List Int := List.replicate 8 0
  /-- temperatures at training; 12 R388; reset none -/
  trainTemp : Option (List Int) := none
  /-- MEM_DRIFT written and not yet rearmed; 12 R388; reset no -/
  drifted : List Bool := List.replicate 8 false
  /-- correctable and uncorrectable errors; 8 x 32 bits, saturating; 12 diag.mem_query; reset 0 -/
  ce : List Nat := List.replicate 8 0
  ue : List Nat := List.replicate 8 0
  /-- errors since the last MEM_CE of the rank, and its clock; 12 MEM_CE; reset 0, none -/
  ceNew : List Nat := List.replicate 8 0
  ceAt : List (Option Nat) := List.replicate 8 none
  /-- device address of the last correctable and uncorrectable error; 12 diag.mem_query; reset DESIGN CHOICE 0 (log 11) -/
  lastCe : Nat := 0
  lastUe : Nat := 0
  /-- scrub passes completed; 32 bits; 12 diag.mem_query; reset 0 -/
  scrubPasses : Nat := 0
  /-- next segment the scrub reads; 12 R377; reset 0 -/
  scrubNext : Nat := 0
  /-- clock of the start of the scrub pass; 12 R377; reset 0 -/
  scrubAt : Nat := 0
  /-- errors corrected by scrub, in all and in this pass; 64 bits; 12 R377; reset 0 -/
  scrubCe : Nat := 0
  scrubCePass : Nat := 0
  /-- refreshes issued, the clock at which the next falls due, and whether the last was a same-bank refresh, by
  sc × 2 + rank; 12 R383; reset 0, 0, no -/
  refreshes : List Nat := List.replicate 8 0
  refreshNext : List Nat := List.replicate 8 0
  sameBank : List Bool := List.replicate 8 false
  /-- clock of the last ZQ calibration, and of the last temperature reading; 12 R381, R383; reset 0, none -/
  zqAt : Nat := 0
  tempAt : Option Nat := none
  deriving DecidableEq, Repr

/-- The image store (R100): the free extents. -/
structure Store where
  /-- installed bytes found at training; 64 bits; 04 plate.store_query; reset 0 (DEDUCED: nothing is trained, log 13) -/
  installed : Nat := 0
  /-- extents in the store; 04 R100; reset 0 -/
  total : Nat := 0
  /-- free extents; 04 R100; reset none -/
  free : List Nat := []
  deriving DecidableEq, Repr

/-- A request that waits at an arbiter (R391 to R403). -/
structure Waiting where
  req      : ArbReq
  /-- latest-service tick; 32 bits (R15, R391) -/
  deadline : BitVec 32
  /-- segments still to grant -/
  left     : Nat
  arrived  : BitVec 32
  /-- latest tick at which it will be granted (R401) -/
  forecast : BitVec 32
  /-- its lock ended before its LAST: its response carries LOCK_EXPIRED (R396) -/
  expired  : Bool
  deriving DecidableEq, Repr

/-- A locked sequence in force at a port (R395 to R398). -/
structure LockState where
  owner    : Nat
  segments : Nat
  grantAt  : BitVec 32
  /-- ticks during which an emergency requester held the port -/
  paused   : Nat
  lastSeg  : Nat
  suspended : Bool
  /-- segments granted to the sequence, the newest first (R400) -/
  seen : List Nat
  deriving DecidableEq, Repr

/-- One arbiter: a DRAM port or a cluster (R390 to R408). Priority registers not listed hold their reset value: OFFSET 0
and the requester's default class. -/
structure Arbiter where
  /-- priority registers in force; 32 x 32 bits; 13; reset OFFSET 0, default CLASS -/
  active : SMap (BitVec 32) := []
  /-- shadows (ports only); 32 x 32 bits; 13 R404; reset as the registers in force -/
  shadow : SMap (BitVec 32) := []
  /-- a commit waits for the next decision; 13 R404; reset no -/
  commit : Bool := false
  /-- requests waiting; 13 R392; reset none -/
  queue : List Waiting := []
  /-- requester granted last; 13 R393; reset DESIGN CHOICE 31 (log 14) -/
  lastId : Nat := 31
  /-- the transfer under way: requester, tick of its last beat; 13 R394; reset none -/
  current : Option (Nat × BitVec 32) := none
  /-- the lock in force; ports only; 13 R395; reset none -/
  lock : Option LockState := none
  /-- PORTn_LOCK.OWNER, BROKEN; 5 and 1 bits; 13; reset 0 -/
  lockOwner : Nat := 0
  broken : Bool := false
  /-- PORTn_LOCK_SEG; 32 bits; 13; reset 0 -/
  lockSeg : BitVec 32 := 0
  /-- the next grantee is told LOCK_BROKEN; 13 R407; reset no -/
  tellBroken : Bool := false
  /-- debug writes held by a suspended lock; 13 R400; reset none -/
  heldDebug : List Waiting := []
  /-- owners of expired locks whose LAST is still to come: what is left of their sequences contends as ordinary requests; 13
  R396; reset none -/
  lapsed : List Nat := []
  /-- what the last grant told its requester: requester, address, LOCK_EXPIRED, LOCK_BROKEN -/
  granted : Option (Nat × Nat × Bool × Bool) := none
  deriving DecidableEq, Repr

/-- Arbitration and adaptive voltage (R390 to R411). -/
structure Fabric where
  /-- DRAM ports 0 to 3 -/
  ports : List Arbiter := List.replicate 4 {}
  /-- cluster arbiters 0 to 3 -/
  clusters : List Arbiter := List.replicate 4 {}
  /-- ARB_CTRL.DEBUG_WAIT; 16 bits; 13; reset 100 -/
  debugWait : Nat := 100
  /-- engines declared faulty for a lock protocol fault; 13 R397; reset none -/
  faulty : List Nat := []
  /-- FLOOR, HYST, IDLE_MV; 13 diag.avs_config; reset 384, 128, 700 -/
  floor : Nat := 384
  hyst : Nat := 128
  idleMv : Nat := 700
  /-- AVS on; 1 bit; 13; reset 1 -/
  avsOn : Bool := true
  /-- VDD_F commanded, mV; 13 R410, 17 R479; reset 900 -/
  vddMv : Nat := 900
  /-- the FS has commanded it: VID/PMBus is driven; 17 R479, R501; reset no -/
  vddDriven : Bool := false
  /-- window ends in a row with S_min below FLOOR; 13 R411; reset 0 -/
  lowRun : Nat := 0
  /-- clock of the last AVS_LIMIT; 13 R411; reset none -/
  limitAt : Option Nat := none
  deriving DecidableEq, Repr

/-- A frame that the device sends (R413, R414, R416, R63). -/
inductive SentFrame where
  | arpReply | gratuitousArp | echoReply | neighbourAdvert | ptp | mailbox
  deriving DecidableEq, Repr

/-- One Ethernet port (R412 to R415). -/
structure EthPort where
  /-- mode; 0 off to 3; 14 R412, 17 R501; reset 0 -/
  mode : Nat := 0
  /-- flags of sys.eth_config; 8 bits; 14; reset DESIGN CHOICE 0 (log 15) -/
  flags : BitVec 8 := 0
  prefix4 : Nat := 0
  vlan : Nat := 0
  mtu : Nat := 1280
  /-- MAC address; 48 bits; 14; reset DESIGN CHOICE 0 = that of OTP, `Config.otpMac` (log 15) -/
  mac : Nat := 0
  ipv4 : Nat := 0
  gateway4 : Nat := 0
  ipv6 : Nat := 0
  prefix6 : Nat := 1
  /-- default router learned; 14 R414; reset none -/
  router6 : Option Nat := none
  /-- link up; 14 sys.eth_query; reset 0 -/
  up : Bool := false
  /-- the link-local and the global IPv6 address found to be a duplicate and not used; 14 R414; reset no -/
  dupLocal : Bool := false
  dupGlobal : Bool := false
  /-- a configuration accepted and not yet in force: its 48 bytes and the clock of its acceptance; 14 R415 -/
  pending : Option (List Byte × Nat) := none
  /-- counters; 14 sys.eth_query; reset 0 (DESIGN CHOICE, log 15) -/
  rxFrames : Nat := 0
  txFrames : Nat := 0
  /-- frames sent, newest first: what they are and the VLAN tag they carry; 14 R413, R414; reset none -/
  frames : List (SentFrame × Option Nat) := []
  fcsErr : Nat := 0
  discarded : Nat := 0
  fecCorrected : Nat := 0
  fecUncorrected : Nat := 0
  deriving DecidableEq, Repr

/-- States of the servo (R423). -/
inductive ServoState where
  | freeRun | acquiring | locked | holdover
  deriving DecidableEq, Repr

/-- The messages that the device sends under PTP (R416). -/
inductive PtpKind where
  | sync | announce | delayReq | pdelayReq | delayResp | pdelayResp | followUp | pdelayRespFollowUp
  deriving DecidableEq, Repr

/-- A PTP message sent: its twoStepFlag, the correctionField and the time stamp in ns that it carries, and how its frame was
completed (R419, R420). -/
structure PtpSent where
  kind : PtpKind
  twoStep : Bool
  correction : Int
  stamp : Nat
  /-- sent over UDP/IPv4 with a checksum of 0x0000, for a field was inserted -/
  zeroChecksum : Bool
  /-- sent over UDP/IPv6 with the two bytes of Annex D after it -/
  trailer : Bool
  deriving DecidableEq, Repr

/-- PTP (R416 to R420) as configured by time.ptp_config. -/
structure Ptp where
  /-- PTP port, none = off; 14 time.ptp_config; reset none -/
  port : Option Nat := none
  p2p : Bool := false
  oneStep : Bool := false
  slaveOnly : Bool := false
  failover : Bool := false
  transport : Nat := 0
  domain : Nat := 0
  logSync : Int := 0
  logAnnounce : Int := 1
  logMinDelay : Int := 0
  announceTimeout : Nat := 3
  priority1 : Nat := 128
  priority2 : Nat := 128
  clockClass : Nat := 248
  /-- sync_timeout; 14 R424; reset 8 (default) -/
  syncTimeout : Nat := 8
  asymmetry : Int := 0
  /-- grandmaster chosen, clockIdentity; 64 bits; 14 time.query; reset none -/
  gm : Option (BitVec 64) := none
  /-- rank of that grandmaster: priority1, clockClass, priority2; 14 R424 -/
  gmRank : List Nat := []
  /-- clock of the last Sync and of the last Announce from it; 14 R424; reset none -/
  syncAt : Option Nat := none
  announceAt : Option Nat := none
  pathDelay : Nat := 0
  utcOffset : Int := 0
  /-- portState of IEEE 1588; 14 time.query; reset PRESUMED 1 INITIALIZING (log 16) -/
  portState : Nat := 1
  /-- messages sent, newest first; 14 R416, R419, R420; reset none -/
  sent : List PtpSent := []
  /-- clock of the last Sync, Announce and Delay_Req or Pdelay_Req sent; 14 R416; reset 0 -/
  sentAt : List Nat := [0, 0, 0]
  deriving DecidableEq, Repr

/-- One capture record (time.capture_read). -/
structure CaptureRec where
  time : Nat
  seq : Nat
  falling : Bool
  epoch : Nat
  deriving DecidableEq, Repr

/-- One capture input (R435, R436). -/
structure CaptureIn where
  /-- edges; 0 off to 3 both; 14 time.capture_config; reset 0 (DESIGN CHOICE, log 17) -/
  edges : Nat := 0
  /-- filter; in 5 ns; 14 R435; reset DESIGN CHOICE 0 (log 17) -/
  filter : Nat := 0
  /-- CAPTURE events; 1 bit; 14 R436; reset DESIGN CHOICE 0 (log 17) -/
  events : Bool := false
  /-- records kept, the oldest first; at most 64; 14 R436; reset none -/
  records : List CaptureRec := []
  /-- seq of the next edge; 16 bits; 14 R436; reset 0 (DESIGN CHOICE, log 17) -/
  seq : Nat := 0
  /-- edges dropped since the last CAPTURE_LOST, and its clock; 14 R436; reset 0, none -/
  dropped : Nat := 0
  lostAt : Option Nat := none
  /-- clocks of the CAPTURE events of the last second, and of the last edge; 14 R435, R436; reset none -/
  eventAts : List Nat := []
  edgeAt : Option Nat := none
  deriving DecidableEq, Repr

/-- Time (R421 to R439). -/
structure Time where
  /-- the device's own clock since power-up of the model, ns, in steps of one tick; every interval and deadline of the
  manual is measured by it: the MODEL's own field (DESIGN CHOICE, log 18); reset 0 -/
  clock : Nat := 0
  /-- TE device time in ns (seconds × 10^9 + ns); 64 + 32 bits; 14 R421; reset 0 -/
  te : Nat := 0
  /-- its fraction of a ns in 2^-32 ns; 14 R421 (16 bits shown); reset 0 -/
  frac : Nat := 0
  /-- field device time in ns; 01 R15, R27; reset 0 (DESIGN CHOICE, log 18) -/
  field : Nat := 0
  /-- its fraction of a ns in 2^-32 ns, and the rate at which it runs, as y; 14 R428, R429; reset 0 (DESIGN CHOICE, log 18) -/
  fieldFrac : Nat := 0
  fieldY : Int := 0
  /-- y and i of the servo, in 1/256 ppb; 14 R422; reset 0 -/
  y : Int := 0
  i : Int := 0
  /-- servo state; 14 R423; reset FREE_RUN -/
  servo : ServoState := .freeRun
  /-- kp, ki u8.8; 14; reset 179, 77 -/
  kp : Nat := 179
  ki : Nat := 77
  stepNs : Nat := 20000
  maxSlewPpb : Nat := 100000
  lockNs : Nat := 100
  lockCount : Nat := 16
  acceptCount : Nat := 8
  acceptSpread : Nat := 200
  holdoverAvgS : Nat := 16
  stepInRun : Bool := false
  /-- samples in lock, and out of lock, in a row; 14 R423; reset 0 -/
  lockRun : Nat := 0
  unlockRun : Nat := 0
  /-- samples of the candidate master; 14 R425; reset none -/
  candidate : Option (BitVec 64) := none
  samples : List Int := []
  /-- history of y in ACQUIRING or LOCKED: clock and value, newest first; 14 R424; reset none -/
  yLog : List (Nat × Int) := []
  /-- last offset sample; 14 time.query; reset DESIGN CHOICE 0 (log 16) -/
  lastOffset : Int := 0
  /-- clock at which HOLDOVER began; 14 R424; reset none -/
  holdAt : Option Nat := none
  /-- step epoch; 8 bits, and steps since host power-on; 14 R426; reset 0 -/
  epoch : Nat := 0
  steps : Nat := 0
  /-- epoch seen by the field side; 14 R427; reset 0 -/
  fieldEpoch : Nat := 0
  /-- last 64 latency echoes in 1/16 ns, newest first; 14 R428; reset none -/
  echoes : List Nat := []
  /-- echoes in a row within 2 ns of the average, and lock of the transfer; 14 R428; reset 0 -/
  echoRun : Nat := 0
  locked : Bool := false
  /-- clock of the last valid time word, echo and TIME channel loss; 14 R428, R429; reset 0 -/
  wordAt : Nat := 0
  echoAt : Nat := 0
  lost : Bool := false
  /-- last time word sent on the TIME channel: device time and step epoch, and the clock of its sending; 14 R428; reset
  none, 0 -/
  word : Option (Nat × Nat) := none
  wordSentAt : Nat := 0
  /-- capture inputs 0 to 5; 14 R435 -/
  captures : List CaptureIn := List.replicate 6 {}
  /-- pulse ends of the host outputs TOUT_H0, H1: trigger slot and end; 14 R430, 17 R501; reset none (low) -/
  hostPulses : List (List (Nat × Nat)) := List.replicate 2 []
  deriving DecidableEq, Repr

/-- Saddle (R10, R11, R31 to R33, R440 to R444). -/
structure Saddle where
  /-- forward data channels in service; 14 bits; 15 R441, 20 SADDLE_CHANNELS; reset 0 -/
  forward : List Bool := List.replicate 14 false
  /-- return data channels in service; 6 bits; 15 R441; reset 0 -/
  ret : List Bool := List.replicate 6 false
  /-- resends of each channel within the last 1 ms, by clock (forward then return); 15 R441; reset none -/
  resendAt : List (List Nat) := List.replicate 20 []
  /-- a removed channel: clock since which its idle-pattern check has passed; 15 R441; reset none -/
  cleanSince : List (Option Nat) := List.replicate 20 none
  /-- heartbeats present, host to field and field to host; 15 sys.saddle_query; reset 0 -/
  hbH2F : Bool := false
  hbF2H : Bool := false
  /-- clocks of the last valid beat each way, and of the start of the present run of beats; 01 R31, R33; reset 0 -/
  beatH2F : Nat := 0
  beatF2H : Nat := 0
  runH2F : Option Nat := none
  runF2H : Option Nat := none
  /-- clocks of the last valid forward and return data frame; 01 R31, R33; reset 0 -/
  frameFwd : Nat := 0
  frameRet : Nat := 0
  /-- the FS has declared the host side lost; 01 R31; reset no -/
  hostLost : Bool := false
  /-- event records kept on the field die meanwhile, at most 4,096, and those dropped; 01 R32; reset none -/
  fieldHeld : List EventRec := []
  fieldDropped : Nat := 0
  /-- the CP deems the field die unreachable; 01 R33, 20 FIELD_LOST; reset 0 -/
  fieldLost : Bool := false
  /-- payload bytes sent each way; 64 bits; 15 sys.saddle_query; reset 0 -/
  fwdBytes : Nat := 0
  retBytes : Nat := 0
  /-- frames sent again, channel removals; 32 bits; 15, 20; reset 0 (20: kept) -/
  resends : Nat := 0
  removals : Nat := 0
  /-- the FS runs an image approved by Cairn; 01 R33, 19 R521; reset no -/
  approved : Bool := false
  /-- FS command queue, at most 64 messages, each with its opcode and its place in the order of R52; 02 R48; reset empty -/
  fsQueue : List (Nat × Msg × Nat) := []
  deriving DecidableEq, Repr

/-- One interlock input (R452 to R456). -/
structure IlkInput where
  /-- type; 0 unused, 1 monitored loop, 2 plain contact; 15 R452; reset 0 (R456 clears the configuration) -/
  type : Nat := 0
  filter : Nat := 0
  latch : Bool := false
  events : Bool := false
  /-- healthy; 15 R452; reset no: counts as tripped after a reset -/
  healthy : Bool := false
  /-- latched; 15 R453; reset 0 (R456) -/
  latched : Bool := false
  /-- last trip was a short; 15 sys.interlock_query; reset DESIGN CHOICE 0 (log 19) -/
  short : Bool := false
  /-- clock since which the loop has been within its narrowed healthy range; 15 R452; reset none -/
  goodSince : Option Nat := none
  deriving DecidableEq, Repr

/-- The interlock matrix (R452 to R458). -/
structure Interlock where
  /-- inputs IL0 to IL15 -/
  inputs : List IlkInput := List.replicate 16 {}
  /-- rows of bars 0 to 7; 8 x 16 bits; 15 R456; reset 0 -/
  rows : List (BitVec 16) := List.replicate 8 0
  /-- locked; 15 R456; reset 0 -/
  locked : Bool := false
  /-- the 80-byte configuration in force; 15 R458; reset all 0 -/
  config : List Byte := List.replicate 80 0
  /-- trips since the last field-die reset; 32 bits; 15 sys.interlock_query; reset 0 -/
  trips : Nat := 0
  /-- Cairn's counts of trips, returns to health and rearms; 15 R457; reset 0 (DESIGN CHOICE, log 19) -/
  cairnTrips : Nat := 0
  cairnHealths : Nat := 0
  cairnRearms : Nat := 0
  /-- SHA-384 of the configuration at the last lock; 19 run body; reset 0 (DESIGN CHOICE, log 19) -/
  lockHash : BitVec 384 := 0
  deriving DecidableEq, Repr

/-- One sensor (R459 to R467). -/
structure TempSensor where
  /-- kind of a remote channel; 0 off, 1 diode, 2 NTC; 16 R466; reset 0 -/
  kind : Nat := 0
  /-- ignore flag; 16 R467; reset DESIGN CHOICE 0 (log 20) -/
  ignore : Bool := false
  /-- hysteresis, 0.1 degree; 16 R466; reset 20 (on-die); remote DESIGN CHOICE 20 (log 20) -/
  hyst : Nat := 20
  /-- limits T1 to T4, none = disarmed; 16 R466; reset as R466 -/
  limits : List (Option Int) := [none, none, none, none]
  ideality : Nat := 16515
  beta : Nat := 0
  r25 : Nat := 0
  /-- last reading, 0.1 degree; 16 sys.temp_query; reset DESIGN CHOICE 0 (log 20) -/
  reading : Int := 0
  /-- failed, good readings in a row, and readings in a row that differ from the partner; 16 R461; reset no, 0, 0 -/
  failed : Bool := false
  goodRun : Nat := 0
  apart : Nat := 0
  /-- step demanded; 16; reset 0 -/
  demand : Nat := 0
  /-- clock of the last reading; 16 R463; reset none -/
  readAt : Option Nat := none
  deriving DecidableEq, Repr

/-- Temperature (R459 to R475). -/
structure Thermal where
  /-- sensors 0 to 25; 16 R459 -/
  sensors : List TempSensor :=
    List.replicate 16 ({} : TempSensor) ++
      List.replicate 10 { limits := [some 1060, some 1090, some 1120, some 1150] }
  /-- throttle step; 0 to 4; 16 R464; reset 0 -/
  step : Nat := 0
  /-- zones F0 to F3, H0 without hardware protection; 16 R472; reset no -/
  bare : List Bool := List.replicate 5 false
  /-- housekeeping mode; 16 R463; reset yes -/
  housekeeping : Bool := true
  /-- SPEED_CEILING; 1 bit; 17 R501; reset low -/
  ceiling : Bool := false
  /-- host-die readings the FS received last: sensors 24, 25; 16 R462; reset DESIGN CHOICE 0 (log 20) -/
  hostReadings : List Int := [0, 0]
  /-- thermal-off: in it, its count, zone, sensor and TE time of the last trip; 16 R473; reset no, 0 -/
  off : Bool := false
  offCount : Nat := 0
  offZone : Nat := 0
  offSensor : Nat := 0
  offTime : Nat := 0
  /-- clock since which every zone has read below 110.0 degrees; 16 R474; reset none -/
  coolSince : Option Nat := none
  /-- THERMAL_OFF is to be written after the restart; 16 R474; reset no -/
  report : Bool := false
  deriving DecidableEq, Repr

/-- One copy of the option bytes (R494). -/
structure OptionCopy where
  bytes : List Byte
  writes : Nat
  deriving DecidableEq, Repr

/-- Supplies, domains, reset, options and boot (R476 to R502). -/
structure Power where
  /-- readings of the 12 supplies, mV; 17 sys.power_query; reset PRESUMED their nominal values (log 21) -/
  supply : List Nat := [800, 1800, 800, 900, 1800, 800, 1800, 900, 900, 1100, 1800, 5000]
  /-- readings in a row more than 5 % off nominal; 17 SUPPLY_WARN; reset 0 -/
  offNominal : List Nat := List.replicate 12 0
  /-- clock of the last round in which the monitors were read; 16 R463; reset none -/
  supplyAt : Option Nat := none
  /-- always-on reset held for want of good supplies: host, field; 17 R477; reset no -/
  noSupply : List Bool := [false, false]
  /-- domains on and domains in reset; 28 bits each; 17 R481; reset: the device has just been reset -/
  domainsOn : BitVec 28 := 0xFFFFFFF
  domainsReset : BitVec 28 := 0xFFFFFFF
  /-- reset asserted on the host die and on the field die, and not yet released; 17 R482; reset both asserted -/
  hostReset : Bool := true
  fieldReset : Bool := true
  /-- RST_N and FRST_N are low; 17 R485; reset no -/
  rstLow : Bool := false
  frstLow : Bool := false
  /-- reference lost: host, field; 17 R483; reset no -/
  refLost : List Bool := [false, false]
  /-- a reference has returned: reset release waits for 10 ms of clean running from this clock; 17 R483 -/
  refSince : List (Option Nat) := [none, none]
  /-- the field reset symbol is still to be sent by AO-H, for this code; 17 R489; reset code 1 (host power-on) -/
  symbolDue : Option Nat := some 1
  /-- option copies A and B in the store; 64 bytes each; 17 R494; reset DESIGN CHOICE both invalid, never written
  (log 22) -/
  copies : List OptionCopy := [⟨List.replicate 64 0, 0⟩, ⟨List.replicate 64 0, 0⟩]
  /-- options in force, OPT0 to OPT55; 17 R495, 20 R538; reset the defaults -/
  options : List Byte :=
    [0, 0, 0, 1, 0x4A, 5, 0, 0x0B, 0, 0, 0x40] ++ List.replicate 45 0
  /-- copy in use: 0 A, 1 B, 3 none; sequence number; 17, 20 OPT_STATUS; reset none, 0 -/
  optCopy : Nat := 3
  optSeq : BitVec 32 := 0
  /-- an option write awaits the next load; OPT3 awaits a field power-on; 20 OPT_STATUS; reset 0 -/
  writePending : Bool := false
  opt3Pending : Bool := false
  /-- the option copy in AO-F has arrived since the field release; 17 R497; reset no -/
  copyArrived : Bool := false
  /-- the field die has been powered on and has not yet taken OPT3; 17 R497; reset yes -/
  fieldPowerOn : Bool := true
  /-- energy class; 0 or 1; 15 R447; reset from OPT3's default 1 -/
  energyClass : Nat := 1
  /-- clock of the release of AO-H and of the field die; 17 sys.boot_query; reset 0 -/
  hostReleaseAt : Nat := 0
  fieldReleaseAt : Nat := 0
  /-- mbx_ready_ms and ready_ms; 32 bits; 17 sys.boot_query; reset DESIGN CHOICE 0, 0xFFFF_FFFF (log 22) -/
  mbxReadyMs : Nat := 0
  readyMs : Nat := 0xFFFFFFFF
  /-- scope of a software reset that starts 1 ms after its response: scope, clock; 17 R502; reset none -/
  softReset : Option (Nat × Nat) := none
  /-- a reset of the field die not yet reported by OBJECTS_RESET and, where it did not reach the host die, RESET_REPORT:
  whether it reached the host die; 17 R490, 03 R75; reset it did (the device has just been reset) -/
  reportField : Option Bool := some true
  deriving DecidableEq, Repr

/-- Standby states of a CP (R503). -/
inductive StandbyState where
  | reset | selftest | syncing | ready | removed
  deriving DecidableEq, Repr

/-- Fail-over (R503 to R511). Lists of 2 are indexed by CP. -/
structure Failover where
  /-- role register: the active CP; 18 R503; reset 0 -/
  active : Nat := 0
  /-- state of the other CP; 18 R503; reset RESET -/
  standby : StandbyState := .reset
  /-- FAILOVER_STATUS.SWITCHING; 20; reset 0 -/
  switching : Bool := false
  /-- heartbeat paths good: mailbox, wire pair; 20; reset 0 -/
  pathMbx : Bool := false
  pathWire : Bool := false
  /-- auto_return; 18 sys.failover_config; reset 1 -/
  autoReturn : Bool := true
  /-- clock of the last beat on the mailbox path and on the wire pair, and its fault flag, per CP; 18 R504 -/
  beatMbx : List (Option Nat) := [none, none]
  beatWire : List (Option Nat) := [none, none]
  faultMbx : List Bool := [false, false]
  faultWire : List Bool := [false, false]
  /-- beat sequence last seen on each path; 4 bits; 18 R504 -/
  seqMbx : List (BitVec 4) := [0, 0]
  seqWire : List (BitVec 4) := [0, 0]
  /-- a path reported lost by HB_PATH: mailbox, wire, per CP; 18 R505; reset no -/
  lostMbx : List Bool := [false, false]
  lostWire : List Bool := [false, false]
  /-- clocks of the declarations of the last 24 h; 18 R511; reset none -/
  declared : List (List Nat) := [[], []]
  /-- switch-overs, gap of the last, TE time of the last declaration; 18 sys.failover_query; reset 0 -/
  switchovers : Nat := 0
  lastGap : Nat := 0
  lastDecl : Nat := 0
  /-- self-test passes completed; 18 sys.failover_query; reset 0 -/
  tests : Nat := 0
  /-- Cairn has released CP0, or CP0 runs the recovery code; 19 R520, R522; reset no -/
  released : Bool := false
  /-- halted by a debug session: CP0, CP1, FS; 17 R493; reset no -/
  halted : List Bool := [false, false, false]
  deriving DecidableEq, Repr

/-- A firmware bank of one die (R518, R519). -/
structure Bank where
  /-- version and security version of the image's header -/
  fwVersion : Nat := 0
  security  : Nat := 0
  /-- SHA-384 of the header -/
  headerHash : BitVec 384 := 0
  /-- what has been programmed since the last erase, the newest block first: bank offset, bytes (R525) -/
  image : List (Nat × List Byte) := []
  /-- bytes of the image behind the header -/
  imageBytes : Nat := 0
  advance : Bool := false
  /-- the seal record as programmed (R519), nothing while the seal sector is erased -/
  sealRec : List Byte := []
  /-- the image's first reach of mailbox ready has been counted (R524) -/
  booted : Bool := false
  deriving DecidableEq, Repr

/-- The seal record of seal_seq 1 and fw_version 1 over a header whose hash is 0 (log 23). -/
def factorySeal : List Byte := [0x01, 0x00, 0xA1, 0x5E, 1, 0, 0, 0, 1, 0, 0, 0] ++ List.replicate 48 0 ++ [0xE0, 0x7C, 0x72, 0x8A]

/-- An enrolled host key (R517). -/
structure HostKey where
  key : List Byte
  rights : Nat
  deriving DecidableEq, Repr

/-- An open debug session (R532). -/
structure DebugSession where
  scope : Nat
  duration : Nat
  until_ : Nat
  deriving DecidableEq, Repr

/-- Cairn (R517 to R532). -/
structure Cairn where
  /-- measurement registers M0 to M3; 384 bits each; 19 R523; reset 0 -/
  m : List (BitVec 384) := List.replicate 4 0
  /-- banks: host A, host B, field A, field B; 19 R518; reset DESIGN CHOICE one sealed bank A of version 1 (log 23) -/
  banks : List Bank :=
    [{ fwVersion := 1, sealRec := factorySeal }, {}, { fwVersion := 1, sealRec := factorySeal }, {}]
  /-- running bank; 0 A, 1 B; 20 DEVICE_STATUS; reset 0 -/
  bank : Nat := 0
  /-- the host die runs the recovery code; 19 R522; reset no -/
  recovery : Bool := false
  /-- banks rejected at this boot; 19 R522, R527; reset none -/
  rejected : List Nat := []
  /-- a seal rejected, to enter in the next boot record; 19 R526, R527; reset no -/
  sealRejected : Bool := false
  /-- revocation fuses of the root keys; 4; 19 R517; reset DESIGN CHOICE none blown (log 23) -/
  revoked : List Bool := List.replicate 4 false
  /-- security counters: host, field; 64 fuse bits each; 19 R517; reset DESIGN CHOICE 0 (log 23) -/
  counters : List Nat := [0, 0]
  /-- host keys 0 to 7; 19 R517; reset DESIGN CHOICE none enrolled (log 23) -/
  keys : List (Option HostKey) := List.replicate 8 none
  /-- audit records in the ring, the oldest first, at most 4,096; 19 R527; reset DESIGN CHOICE none (log 23) -/
  ring : List (Nat × List Byte) := []
  /-- rec_seq of the next record; 64 bits; 19 R527; reset DESIGN CHOICE 0 (log 23) -/
  nextRec : Nat := 0
  /-- SHA-384 of the last record; 19 R527; reset DESIGN CHOICE 0 (log 23) -/
  lastHash : BitVec 384 := 0
  /-- highest rec_seq acknowledged plus 1; 19 R529; reset DESIGN CHOICE 0 (log 23) -/
  acked : Nat := 0
  /-- records due and held while the ring is full, at most 64; 19 R529; reset none -/
  due : List (List Byte) := []
  /-- run records that wait for Saddle: session, flags, plate entries, body; 19 R528; reset none -/
  waiting : List (Nat × Nat × Nat × List Byte) := []
  /-- dies begun in the open update with their image_bytes, and its target bank; 19 R525; reset none -/
  update : List (Nat × Nat) := []
  updateBank : Option Nat := none
  /-- challenge outstanding and its clock; 48 bytes; 19 R531; reset none -/
  challenge : Option (BitVec 384 × Nat) := none
  /-- open debug session; 19 R532; reset none -/
  dbg : Option DebugSession := none
  /-- resets asked for, newest first: the scope and the transport instance that asked, none for the debugger; 17 R502; reset
  none (DESIGN CHOICE, log 160) -/
  resetCalls : List (Nat × Option Nat) := []
  deriving DecidableEq, Repr

/-- What the two ordering codes and the package fix (R1, R2): read-only. -/
structure Identity where
  /-- the audit lock is fused: K8W22-IA; 00 R1; reset DESIGN CHOICE K8W22-IS (log 24) -/
  auditFused : Bool := false
  deriving DecidableEq, Repr

end Sys2Proof.Machine
end

