-- ==== Sys2Proof/Machine/State.lean ====
section
/-! DEFINITION. The state of the K8W22 block, the reasons a step can stop, and the state after reset. Every field holds
after reset the value its part of `Machine/Parts*.lean` gives as its default; the manual's reset values and the
model's own choices are told apart there and in the assumption log. -/

namespace Sys2Proof.Machine

/-- The run-time objects, one table per type (R71 to R76). -/
structure Objects where
  plates   : ObjTable Plate        := ObjTable.empty Plate 256
  channels : ObjTable Channel      := ObjTable.empty Channel 64
  runs     : ObjTable Run          := ObjTable.empty Run 8
  streams  : ObjTable VdStream     := ObjTable.empty VdStream 16
  triggers : ObjTable Trigger      := ObjTable.empty Trigger 128
  camsets  : ObjTable CamSet       := ObjTable.empty CamSet 8
  calsets  : ObjTable CalSet       := ObjTable.empty CalSet 64
  sessions : ObjTable AuditSession := ObjTable.empty AuditSession 4
  timers   : ObjTable Timer        := ObjTable.empty Timer 32
  deriving DecidableEq, Repr

/-- The state of the block: everything the manual gives it, and the queue of commands that wait. -/
structure State where
  ident    : Identity  := {}
  mbx      : Mailbox   := {}
  eth      : EthMbx    := {}
  win      : Window    := {}
  objs     : Objects   := {}
  store    : Store     := {}
  mem      : Memory    := {}
  bars     : List Bar  := List.replicate 8 {}
  bench    : Benches   := {}
  pos      : Position  := {}
  sett     : Sett      := {}
  vision   : Vision    := {}
  vd       : Vd        := {}
  fabric   : Fabric    := {}
  ports    : List EthPort := List.replicate 2 {}
  ptp      : Ptp       := {}
  time     : Time      := {}
  saddle   : Saddle    := {}
  ilk      : Interlock := {}
  thermal  : Thermal   := {}
  power    : Power     := {}
  cps      : Failover  := {}
  cairn    : Cairn     := {}
  /-- event records raised and on their way to the active CP, the first raised first (R59) -/
  transit  : List EventRec := []
  /-- the MODEL's own counter of free values used so far (log 25) -/
  fresh    : Nat := 0
  /-- commands that wait, first in, first out -/
  pending  : List Instr := []
  deriving DecidableEq, Repr

/-- The machine right after the reset of the whole device: host power-on with the supplies good (R486 code 1, R489),
reset asserted and not yet released. -/
def State.reset : State := {}

/-- Reasons a step can stop with a fault. There is none: no rule of spec/ lets a command stop the block, and every
command that the manual refuses is answered or ignored, which is a next state. -/
inductive Fault where
  deriving DecidableEq, Repr

/-- Reasons a step can be refused. -/
inductive Refusal where
  /-- raised by an arm of `exec` whose command has no meaning yet; safe: the model stops where the block goes on -/
  | notModelled (mnemonic : String)
  deriving DecidableEq, Repr

end Sys2Proof.Machine
end

