-- ==== Sys2Proof/Machine/Flags.lean ====
section
/-! DEFINITION. Status words and interrupt flags: the read-only words of the host window (20), INT_STATUS with its
MSI-X messages (R539), and the error flags of discarded writes (R533, R534) and refused index writes (R36). -/

namespace Sys2Proof.Machine

/-- The channels of one direction below their minimum (OPT4 as R443 reads it) put Saddle in the degraded state. -/
def minForward (s : State) : Nat :=
  let v := field (byteAt s.power.options 4) 3 0
  if 1 ≤ v ∧ v ≤ 14 then v else 10

/-- The least number of return channels (OPT4 bits [6:4], R443). -/
def minReturn (s : State) : Nat :=
  let v := field (byteAt s.power.options 4) 6 4
  if 1 ≤ v ∧ v ≤ 6 then v else 4

/-- The number of true entries of a list. -/
def countTrue (l : List Bool) : Nat := (l.filter id).length

/-- Saddle is degraded: fewer data channels in service than OPT4 asks for (R443). While an end of it is in reset it is
silent, not degraded, as the Reset column and the worked example of 20 have it (DEDUCED, log 57). -/
def saddleDegraded (s : State) : Bool :=
  !s.power.hostReset && !s.power.fieldReset &&
    (countTrue s.saddle.forward < minForward s || countTrue s.saddle.ret < minReturn s)

/-- DEVICE_STATUS.FIELD_UP: heartbeats both ways and a channel of each direction in service, the field die reachable. -/
def fieldUp (s : State) : Bool :=
  s.saddle.hbH2F && s.saddle.hbF2H && s.saddle.forward.any id && s.saddle.ret.any id && !s.saddle.fieldLost

/-- DEVICE_STATUS (20). -/
def deviceStatus (s : State) : Nat :=
  flag s.mbx.ready + 2 * flag (fieldUp s) + 4 * flag (s.mem.trained && fieldUp s) + 8 * flag s.cairn.recovery +
    16 * s.thermal.step + 256 * s.cairn.bank

/-- SADDLE_STATUS (20). -/
def saddleStatus (s : State) : Nat :=
  flag (saddleDegraded s) + 2 * flag s.time.locked + 4 * flag s.saddle.hbH2F +
    8 * flag s.saddle.hbF2H + 16 * flag s.saddle.fieldLost

/-- SADDLE_CHANNELS (20). -/
def saddleChannels (s : State) : Nat :=
  bitsOf s.saddle.forward + 2 ^ 16 * bitsOf s.saddle.ret + 2 ^ 24 * minForward s + 2 ^ 28 * minReturn s

/-- Number of a standby state in FAILOVER_STATUS and sys.failover_query. -/
def StandbyState.number : StandbyState → Nat
  | .reset => 0 | .selftest => 1 | .syncing => 2 | .ready => 3 | .removed => 4

/-- FAILOVER_STATUS (20). -/
def failoverStatus (s : State) : Nat :=
  s.cps.active + 2 * flag s.cps.switching + 4 * s.cps.standby.number + 32 * flag s.cps.pathMbx +
    64 * flag s.cps.pathWire + 128 * flag s.cps.autoReturn

/-- MBX_CTRL and MBX_STATUS (02). -/
def mbxCtrl (s : State) : Nat :=
  flag s.mbx.enable + 2 * flag s.mbx.ethEnable + 2 ^ 16 * s.mbx.ethPort.toNat

def mbxStatus (s : State) : Nat :=
  flag s.mbx.ready + 2 * flag s.mbx.running + 4 * flag s.mbx.setupErr + 8 * flag s.mbx.ringErr +
    16 * s.mbx.errRing + 256 * s.mbx.activeCp

/-- WIN_ERR (20). -/
def winErr (s : State) : Nat :=
  flag s.win.partialErr + 2 * flag s.win.undefinedErr + 2 ^ 16 * s.win.errIndex.toNat

/-- The mask bit of an entry of the MSI-X table, as PCI Express defines it: bit 0 of its vector control word. -/
def msixMasked (s : State) (k : Nat) : Bool := (s.win.msixTable.getD (4 * k + 3) 0).getLsbD 0

/-- Vector k's message is sent, or made pending while its table entry is masked (R539; PRESUMED: PCI Express, log 4). -/
def sendVector (k : Nat) (s : State) : State :=
  if msixMasked s k then { s with win := { s.win with pba := s.win.pba ||| BitVec.ofNat 4 (2 ^ k) } }
  else { s with win := { s.win with
    msixSent := modAt s.win.msixSent k (· + 1)
    holdUntil :=
      if k < 2 then setAt s.win.holdUntil k (if s.win.holdoff = 0 then 0 else s.time.clock + 1000 * s.win.holdoff.toNat)
      else s.win.holdUntil } }

/-- Vector k may send now: its bit is unmasked and, for vectors 0 and 1, no holdoff runs (R539). -/
def vectorOpen (s : State) (k : Nat) : Bool :=
  !s.win.intMask.getLsbD k && !(k < 2 && s.time.clock < s.win.holdUntil.getD k 0)

/-- A cause of INT_STATUS bit k: the bit is set, and its message follows when the bit was clear (R539). -/
def interrupt (k : Nat) (s : State) : State :=
  let was := s.win.intStatus.getLsbD k
  let s := { s with win := { s.win with intStatus := s.win.intStatus ||| BitVec.ofNat 4 (2 ^ k) } }
  if !was && vectorOpen s k then sendVector k s else s

/-- The three words whose change raises INT_STATUS.STATUS. -/
def statusWords (s : State) : List Nat := [deviceStatus s, saddleStatus s, failoverStatus s]

/-- A meaning's end where it may change a status word: INT_STATUS.STATUS is raised when one changed (20, bit 2). -/
def noteStatus (before after : State) : State :=
  if statusWords before = statusWords after then after else interrupt 2 after

/-- A write that the window discards (R533, R534): the error bit, the register index and INT_STATUS.ERROR. -/
def discardWrite (undefinedReg : Bool) (offset : Nat) (s : State) : State :=
  interrupt 3 { s with win := { s.win with
    partialErr := s.win.partialErr || !undefinedReg
    undefinedErr := s.win.undefinedErr || undefinedReg
    errIndex := BitVec.ofNat 14 (offset / 4) } }

end Sys2Proof.Machine
end

