-- ==== Sys2Proof/Machine/Operands.lean ====
section
/-! DEFINITION. Operand forms of a message: the handle (R71), which objects it may name (R46 checks 6 to 9), and the
conditions on payload fields, each with the frame offset that R47 puts into the error payload. -/

namespace Sys2Proof.Machine

/-- An error answer: status and error payload (R47). -/
structure OpErr where
  status  : Nat
  payload : Bytes
  deriving DecidableEq, Repr

/-- A good answer: the state the operation leaves, the status (OK, ACCEPTED or LATE), the handle of a created object
and the response payload. -/
structure OpOk where
  state   : State
  status  : Nat := 0
  handle  : Option (BitVec 32) := none
  payload : Bytes := []
  /-- an operation answered ACCEPTED has already reached its completion point with this status (R49) -/
  final   : Option Nat := none

abbrev OpResult := Except OpErr OpOk

/-- Status codes (R48). -/
def stOk : Nat := 0x0000
def stAccepted : Nat := 0x0001
def stBusy : Nat := 0x0100
def stNoSpace : Nat := 0x0101
def stBadOp : Nat := 0x0200
def stBadArg : Nat := 0x0201
def stBadLen : Nat := 0x0202
def stNoHandle : Nat := 0x0300
def stStale : Nat := 0x0301
def stWrongType : Nat := 0x0302
def stState : Nat := 0x0400
def stAdmission : Nat := 0x0401
def stOffline : Nat := 0x0500
def stDenied : Nat := 0x0600
def stSignature : Nat := 0x0601
def stLate : Nat := 0x0700
def stInternal : Nat := 0x0F00

/-- An error whose payload is 0 (R47, last sentence). -/
def plainErr (status : Nat) : OpErr := ⟨status, le 4 0⟩

/-- An error whose payload is the frame offset of the offending field (R47). -/
def offsetErr (status offset : Nat) : OpErr := ⟨status, le 4 offset⟩

/-- BADARG at a payload offset: the frame offset is 16 more. -/
def badArg (payloadOffset : Nat) : OpErr := offsetErr stBadArg (16 + payloadOffset)

/-- BADLEN for a wrong length: offset 12, the length field (R573). -/
def badLen : OpErr := offsetErr stBadLen 12

/-- Type, generation and index of a handle (R71). -/
def hType (h : BitVec 32) : Nat := h.toNat / 2 ^ 27
def hGen (h : BitVec 32) : Nat := h.toNat / 2 ^ 16 % 2 ^ 11
def hIdx (h : BitVec 32) : Nat := h.toNat % 2 ^ 16

/-- The handle of a type, generation and index (R71). -/
def mkHandle (ty gen idx : Nat) : BitVec 32 := BitVec.ofNat 32 (ty * 2 ^ 27 + gen * 2 ^ 16 + idx)

/-- Object types (R76). -/
def tyPlate : Nat := 1
def tyChannel : Nat := 2
def tyRun : Nat := 3
def tyStream : Nat := 4
def tyTrigger : Nat := 5
def tyCamset : Nat := 6
def tyCalset : Nat := 7
def tyAudit : Nat := 8
def tyTimer : Nat := 9

/-- The limit of each type (R76). -/
def typeLimit : Nat → Nat
  | 1 => 256 | 2 => 64 | 3 => 8 | 4 => 16 | 5 => 128 | 6 => 8 | 7 => 64 | 8 => 4 | 9 => 32 | _ => 0

/-- The present generation of a slot; 0 for a slot never used (R72). -/
def ObjTable.gen {α : Type} (t : ObjTable α) (i : Nat) : Nat := smGet t.gens 0 i

/-- The object of a slot, none when the slot is free. -/
def ObjTable.at? {α : Type} (t : ObjTable α) (i : Nat) : Option α := smFind t.live i

/-- Generation of a slot and whether it is in use, by type. -/
def slotView (ty i : Nat) (o : Objects) : Nat × Bool :=
  match ty with
  | 1 => (o.plates.gen i, (o.plates.at? i).isSome)
  | 2 => (o.channels.gen i, (o.channels.at? i).isSome)
  | 3 => (o.runs.gen i, (o.runs.at? i).isSome)
  | 4 => (o.streams.gen i, (o.streams.at? i).isSome)
  | 5 => (o.triggers.gen i, (o.triggers.at? i).isSome)
  | 6 => (o.camsets.gen i, (o.camsets.at? i).isSome)
  | 7 => (o.calsets.gen i, (o.calsets.at? i).isSome)
  | 8 => (o.sessions.gen i, (o.sessions.at? i).isSome)
  | 9 => (o.timers.gen i, (o.timers.at? i).isSome)
  | _ => (0, false)

/-- A handle of a command: the types of object that it may name (0 in the list: it names none, or need not, and may be handle
0), the handle, and its frame offset. -/
structure HandleUse where
  types  : List Nat
  handle : BitVec 32
  offset : Nat

/-- The check from 6 to 9 of R46 that a handle fails, with its answer. -/
def handleFault (u : HandleUse) (o : Objects) : Option (Nat × OpErr) :=
  let h := u.handle
  if h = 0 then
    if u.types.contains 0 then none else some (6, offsetErr stWrongType u.offset)
  else if hType h = 0 ∨ 9 < hType h ∨ !u.types.contains (hType h) then some (6, offsetErr stWrongType u.offset)
  else if typeLimit (hType h) ≤ hIdx h then some (7, plainErr stNoHandle)
  else if hGen h ≠ (slotView (hType h) (hIdx h) o).1 then some (8, plainErr stStale)
  else if !(slotView (hType h) (hIdx h) o).2 then some (9, plainErr stNoHandle)
  else none

/-- Checks 6 to 9 of R46 on the handles of a command, the header's first: each check on all of them before the next. -/
def checkHandles (l : List HandleUse) (o : Objects) : Except OpErr Unit :=
  let bad := l.filterMap fun u => handleFault u o
  match (List.range 10).findSome? fun k => bad.find? fun e => e.1 == k with
  | some e => .error e.2
  | none => .ok ()

/-- A condition on payload fields: whether it holds, and the payload offset of its lowest field. -/
abbrev FieldCheck := Bool × Nat

/-- Check 10 of R46: the lowest offset among the failed conditions (R47). -/
def checkFields (l : List FieldCheck) : Except OpErr Unit :=
  match minOf ((l.filter fun c => !c.1).map (·.2)) with
  | none => .ok ()
  | some o => .error (badArg o)

/-- A reserved field of `n` bytes: one condition at the field's own offset (R7). -/
def reserved (b : Bytes) (i n : Nat) : FieldCheck := (leAt b i n == 0, i)

/-- A field in a range. -/
def within (n lo hi off : Nat) : FieldCheck := (lo ≤ n && n ≤ hi, off)

/-- A signed field in a range. -/
def withinInt (z lo hi : Int) (off : Nat) : FieldCheck := (lo ≤ z && z ≤ hi, off)

/-- A field whose bits at and above `k` must be 0. -/
def below (n k off : Nat) : FieldCheck := (n / 2 ^ k == 0, off)

/-- A requirement inside an operation: an error where it does not hold. -/
def require (c : Bool) (e : OpErr) : Except OpErr Unit := if c then .ok () else .error e

/-- The value of an option, an error for none. -/
def orErr {α : Type} (o : Option α) (e : OpErr) : Except OpErr α :=
  match o with
  | some a => .ok a
  | none => .error e

/-- A budget record of an ADMISSION answer (R92). `floor`: the limit is a floor. -/
structure Budget where
  id : Nat
  scope : Nat
  index : Nat
  unit : Nat
  limit : Nat
  demand : Nat
  floor : Bool := false
  deriving DecidableEq, Repr

/-- A budget record as its 32 bytes (R92). -/
def Budget.bytes (b : Budget) : Bytes :=
  le 1 b.id ++ le 1 b.scope ++ le 2 b.index ++ le 1 b.unit ++ zeros 3 ++ le 8 b.limit ++ le 8 b.demand ++
    le 8 (if b.floor then b.limit - b.demand else b.demand - b.limit)

/-- Whether a budget is broken (R91: a demand equal to its limit is admitted). -/
def Budget.broken (b : Budget) : Bool := if b.floor then b.demand < b.limit else b.limit < b.demand

/-- The ADMISSION error: the count and the first eight broken budgets (R92), in the order of the rule's table and of the bars;
which eight are listed when more are broken is left open (DESIGN CHOICE, log 142). -/
def admissionErr (l : List Budget) : OpErr :=
  let l := l.take 8
  ⟨stAdmission, le 4 l.length ++ l.flatMap Budget.bytes⟩

/-- Check 14: ADMISSION with every broken budget (R91). -/
def admitAll (l : List Budget) : Except OpErr Unit :=
  match l.filter Budget.broken with
  | [] => .ok ()
  | broken => .error (admissionErr broken)

end Sys2Proof.Machine
end

