-- ==== Sys2Proof/Machine/Ops.lean ====
section
/-! DEFINITION. The operations that every meaning shares: events on their way to the Talus queue (R58, R59, R32), object
tables (R72), image memory, the answer to a message (R45, R50, R51) and the run of a message operation through the
checks of R46. -/

namespace Sys2Proof.Machine

/-- The outcome of a command. -/
abbrev Out := Host.Outcome State Fault Refusal

/-! ### Free values -/

/-- A fresh free value of `w` bits, and the state with its counter advanced (log 25). -/
def takeFree (w : Nat) (s : State) : Nat × State :=
  ((Config.freeValue s.fresh).toNat % 2 ^ w, { s with fresh := s.fresh + 1 })

/-! ### Supplies and domains -/

/-- VDD_F commanded (R410, R479); the supply reads what is commanded. -/
def commandVdd (mv : Nat) (s : State) : State :=
  { s with fabric := { s.fabric with vddMv := mv, vddDriven := true }, power := { s.power with supply := setAt s.power.supply 7 mv } }

/-- VDD_F at its power-up value, VID/PMBus not driven (R479, R501). -/
def floatVdd (s : State) : State :=
  { s with fabric := { s.fabric with vddMv := 900, vddDriven := false }, power := { s.power with supply := setAt s.power.supply 7 900 } }

/-- A power domain switched off, and so held in reset (R481). -/
def domainOff (n : Nat) (s : State) : State :=
  { s with power := { s.power with
    domainsOn := s.power.domainsOn &&& ~~~(BitVec.ofNat 28 (2 ^ n))
    domainsReset := s.power.domainsReset ||| BitVec.ofNat 28 (2 ^ n) } }

/-! ### Events -/

/-- An event record raised on the host die: TE time (R58). -/
def hostEventTo (dest : Option Nat) (code : Nat) (src : BitVec 32) (args : Bytes) (s : State) : State :=
  { s with transit := s.transit ++ [⟨code, src, s.time.te, none, fit 8 args, dest, false⟩] }

/-- An event record raised on the host die, for every instance. -/
def hostEvent (code : Nat) (src : BitVec 32) (args : Bytes) (s : State) : State := hostEventTo none code src args s

/-- The field die holds its events: the host side is lost (R32), or no return data channel is in service (R443). -/
def fieldHolds (s : State) : Bool := s.saddle.hostLost || !s.saddle.ret.any id

/-- A record handed to Saddle, or kept on the field die, at most 4,096 (R32). -/
def sendFieldRecord (r : EventRec) (s : State) : State :=
  if fieldHolds s then
    if s.saddle.fieldHeld.length < 4096 then
      { s with saddle := { s.saddle with fieldHeld := s.saddle.fieldHeld ++ [r] } }
    else { s with saddle := { s.saddle with fieldDropped := s.saddle.fieldDropped + 1 } }
  else { s with transit := s.transit ++ [r] }

/-- An event record raised on the field die with a web position: field device time (R58). -/
def fieldEventAt (code : Nat) (src : BitVec 32) (web : Option Nat) (args : Bytes) (s : State) : State :=
  sendFieldRecord ⟨code, src, s.time.field, web, fit 8 args, none, true⟩ s

/-- An event record raised on the field die, no web position. -/
def fieldEvent (code : Nat) (src : BitVec 32) (args : Bytes) (s : State) : State := fieldEventAt code src none args s

/-- The records the field die kept are delivered in order once its way to the host is open; a TALUS_LOST record with
the number dropped goes first when any were dropped (R32; DEDUCED, log 27). -/
def deliverHeld (s : State) : State :=
  if fieldHolds s then s else
  let lost := if s.saddle.fieldDropped = 0 then [] else
    [(⟨0x0102, 0, s.time.field, none, le 8 s.saddle.fieldDropped, none, true⟩ : EventRec)]
  { s with
    transit := s.transit ++ lost ++ s.saddle.fieldHeld
    saddle := { s.saddle with fieldHeld := [], fieldDropped := 0 } }

/-- At most one event per `gapNs`: the clock of the last one against now. -/
def due (last : Option Nat) (gapNs now : Nat) : Bool :=
  match last with
  | none => true
  | some t => t + gapNs ≤ now

/-! ### Objects -/

/-- The object a handle names, if its type, generation and slot match. -/
def ObjTable.find {α : Type} (t : ObjTable α) (ty : Nat) (h : BitVec 32) : Option α :=
  if hType h = ty ∧ hGen h = t.gen (hIdx h) then t.at? (hIdx h) else none

/-- The present handle of a slot. -/
def ObjTable.handle {α : Type} (t : ObjTable α) (ty i : Nat) : BitVec 32 := mkHandle ty (t.gen i) i

/-- The object of a slot written. -/
def ObjTable.put {α : Type} (t : ObjTable α) (i : Nat) (a : α) : ObjTable α := { t with live := smSet t.live i a }

/-- The object of a slot changed, if the slot is in use. -/
def ObjTable.update {α : Type} (t : ObjTable α) (i : Nat) (f : α → α) : ObjTable α :=
  match t.at? i with
  | none => t
  | some a => t.put i (f a)

/-- Every object changed. -/
def ObjTable.mapLive {α : Type} (t : ObjTable α) (f : α → α) : ObjTable α :=
  { t with live := t.live.map fun e => (e.1, f e.2) }

/-- An object created in the slot that has been free the longest: the slot and the table, none where the table is full
(R72, R76). -/
def ObjTable.create {α : Type} (t : ObjTable α) (a : α) : Option (Nat × ObjTable α) :=
  match t.free with
  | [] => none
  | i :: rest =>
    let g := match smFind t.gens i with
      | none => 0
      | some g => (g + 1) % 2048
    some (i, ⟨smSet t.live i a, smSet t.gens i g, rest⟩)

/-- A slot freed; its generation stays (R72). -/
def ObjTable.release {α : Type} (t : ObjTable α) (i : Nat) : ObjTable α :=
  match t.at? i with
  | none => t
  | some _ => ⟨smDel t.live i, t.gens, t.free ++ [i]⟩

/-- Every slot in use freed with its generation advanced by 1 (R75). -/
def ObjTable.reset {α : Type} (t : ObjTable α) : ObjTable α :=
  t.live.foldl (fun acc e => ⟨smDel acc.live e.1, smSet acc.gens e.1 ((acc.gen e.1 + 1) % 2048), acc.free ++ [e.1]⟩) t

def plateOf (s : State) (h : BitVec 32) : Option Plate := s.objs.plates.find tyPlate h
def channelOf (s : State) (h : BitVec 32) : Option Channel := s.objs.channels.find tyChannel h
def runOf (s : State) (h : BitVec 32) : Option Run := s.objs.runs.find tyRun h
def streamOf (s : State) (h : BitVec 32) : Option VdStream := s.objs.streams.find tyStream h
def triggerOf (s : State) (h : BitVec 32) : Option Trigger := s.objs.triggers.find tyTrigger h
def camsetOf (s : State) (h : BitVec 32) : Option CamSet := s.objs.camsets.find tyCamset h
def calsetOf (s : State) (h : BitVec 32) : Option CalSet := s.objs.calsets.find tyCalset h
def auditOf (s : State) (h : BitVec 32) : Option AuditSession := s.objs.sessions.find tyAudit h
def timerOf (s : State) (h : BitVec 32) : Option Timer := s.objs.timers.find tyTimer h

def setPlate (s : State) (h : BitVec 32) (f : Plate → Plate) : State :=
  { s with objs := { s.objs with plates := s.objs.plates.update (hIdx h) f } }
def setChannel (s : State) (h : BitVec 32) (f : Channel → Channel) : State :=
  { s with objs := { s.objs with channels := s.objs.channels.update (hIdx h) f } }
def setRun (s : State) (h : BitVec 32) (f : Run → Run) : State :=
  { s with objs := { s.objs with runs := s.objs.runs.update (hIdx h) f } }
def setStream (s : State) (h : BitVec 32) (f : VdStream → VdStream) : State :=
  { s with objs := { s.objs with streams := s.objs.streams.update (hIdx h) f } }
def setTrigger (s : State) (h : BitVec 32) (f : Trigger → Trigger) : State :=
  { s with objs := { s.objs with triggers := s.objs.triggers.update (hIdx h) f } }
def setCamset (s : State) (h : BitVec 32) (f : CamSet → CamSet) : State :=
  { s with objs := { s.objs with camsets := s.objs.camsets.update (hIdx h) f } }
def setCalset (s : State) (h : BitVec 32) (f : CalSet → CalSet) : State :=
  { s with objs := { s.objs with calsets := s.objs.calsets.update (hIdx h) f } }
def setTimer (s : State) (h : BitVec 32) (f : Timer → Timer) : State :=
  { s with objs := { s.objs with timers := s.objs.timers.update (hIdx h) f } }

/-- One bar, one head of a bar, changed. -/
def barAt (s : State) (b : Nat) : Bar := s.bars.getD b {}
def setBar (s : State) (b : Nat) (f : Bar → Bar) : State := { s with bars := modAt s.bars b f }
def headAt (s : State) (b i : Nat) : Head := (barAt s b).heads.getD i {}
def setHead (s : State) (b i : Nat) (f : Head → Head) : State :=
  setBar s b fun bar => { bar with heads := modAt bar.heads i f }

/-! ### Image memory -/

/-- The byte that a list of cells holds at an address; an unlisted address reads 0 (log 12). -/
def cellRead : List Host.Cell → Nat → Byte
  | [], _ => 0
  | (k, v) :: r, a => if k = a then v else cellRead r a

/-- One byte written, the canonical form kept: a byte of value 0 is not listed. -/
def cellWrite : List Host.Cell → Nat → Byte → List Host.Cell
  | [], a, v => if v = 0 then [] else [(a, v)]
  | (k, w) :: r, a, v =>
    if k = a then if v = 0 then r else (a, v) :: r
    else if a < k then if v = 0 then (k, w) :: r else (a, v) :: (k, w) :: r
    else (k, w) :: cellWrite r a v

/-- Bytes written from an address on. -/
def cellsWrite (m : List Host.Cell) (a : Nat) : Bytes → List Host.Cell
  | [] => m
  | b :: r => cellsWrite (cellWrite m a b) (a + 1) r

/-- `n` bytes of the DRAM's cells. -/
def cellsBytes (m : List Host.Cell) (a n : Nat) : Bytes := (List.range n).map fun k => cellRead m (a + k)

/-- The canonical form: addresses strictly rising from a bound on, no byte 0 listed. -/
def cellsOk : Option Nat → List Host.Cell → Bool
  | _, [] => true
  | lo, (k, v) :: r => (match lo with | none => true | some b => b < k) && v != 0 && cellsOk (some k) r

/-- The form of the image memory (log 12). -/
def Memory.wf (m : Memory) : Bool := cellsOk none m.cells

/-- A segment is uncorrectable: a word of it carries bad check bits, or its last read met an uncorrectable error; a read
of it delivers zeros (R375, R376). -/
def poisoned (m : Memory) (a : Nat) : Bool := m.poison.any (fun w => w / 8 == a / 64) || m.bad.any fun e => e.1 == a / 64

/-- One byte of DRAM as a reader gets it: a byte of a poisoned segment reads 0 (R375). -/
def memByte (m : Memory) (a : Nat) : Byte := if poisoned m a then 0 else cellRead m.cells a

/-- `n` bytes of DRAM. -/
def memBytes (m : Memory) (a n : Nat) : Bytes := (List.range n).map fun k => memByte m (a + k)

/-- The words that a store of `n` bytes at an address covers in part (R376). -/
def partWords (a n : Nat) : List Nat :=
  (if a % 8 = 0 ∧ 8 ≤ n then [] else [a / 8]) ++ (if (a + n) % 8 = 0 then [] else [(a + n) / 8])

/-- Bytes stored in DRAM. A word written whole has good check bits; a word written in part in an uncorrectable segment is
marked (R376). A segment found uncorrectable is good again once it is written whole (log 42). -/
def memStore (m : Memory) (a : Nat) (b : Bytes) : Memory :=
  if b = [] then m else
  let marked := ((partWords a b.length).filter fun w => poisoned m (8 * w) && !m.poison.contains w).eraseDups
  { m with
    cells := cellsWrite m.cells a b
    poison := (m.poison.filter fun w => !(a ≤ 8 * w && 8 * w + 8 ≤ a + b.length)) ++ marked
    bad := m.bad.filter fun e => !(a ≤ 64 * e.1 && 64 * e.1 + 64 ≤ a + b.length) }

/-- `n` free extents taken from the store, none where it has too few (R100). -/
def takeExtents (n : Nat) (s : State) : Option (List Nat × State) :=
  if n ≤ s.store.free.length then
    some (s.store.free.take n, { s with store := { s.store with free := s.store.free.drop n } })
  else none

/-- Extents given back to the store. -/
def giveExtents (l : List Nat) (s : State) : State :=
  { s with store := { s.store with free := s.store.free ++ l } }

/-- Bytes of one extent (R100). -/
def extentBytes : Nat := 2097152

/-! ### Answers -/

/-- Response slots reserved (R41): of a fetched command that is not answered yet, and of one without response until it
completes. -/
def reservedSlots (s : State) : Nat :=
  (s.mbx.inFlight.filter fun e => e.msg.inst == 0 &&
    (e.phase == .waiting || e.phase == .forwarded || e.msg.flags.getLsbD 2)).length

/-- A response can be reserved in the response ring (R41). -/
def responseFree (s : State) : Bool := s.mbx.responses.length + reservedSlots s < 256

/-- The place of an index in its ring (R35): a 4 KiB slot of rings 0 to 4, a 32-byte record of the Talus queue. -/
def ringSlot (ring : Nat) (index : BitVec 32) : Nat := index.toNat % if ring = 5 then 32768 else 256

/-- The host address of a place of a ring (R34, R35). -/
def ringAddress (s : State) (ring : Nat) (index : BitVec 32) : Nat :=
  (s.mbx.base.getD ring 0).toNat + ringSlot ring index * if ring = 5 then 32 else 4096

/-- Bytes written to host memory over PCIe. -/
def hostWrite (address : Nat) (b : Bytes) (s : State) : State :=
  { s with mbx := { s.mbx with hostMem := smSet s.mbx.hostMem address b } }

/-- The 64 bytes of the status block (R37). -/
def statusBlock (m : Mailbox) : Bytes :=
  ((List.range 4).flatMap fun i => leB 4 (m.sbCmdCi.getD i 0)) ++ leB 4 m.sbRespPi ++ leB 4 m.sbEventPi ++ le 1 m.sbActiveCp ++
    zeros 3 ++ leB 4 m.sbUpdates ++ zeros 32

/-- The 32 bytes of a Talus record (R58). -/
def TalusRec.bytes (r : TalusRec) : Bytes :=
  le 2 r.event.code ++ le 2 r.sequence ++ leB 4 r.event.source ++ le 4 (r.event.time % 1000000000) ++
    le 6 (r.event.time / 1000000000) ++ le 6 (r.event.web.getD 0xFFFFFFFFFFFF) ++ fit 8 r.event.args

/-- The status block written (R37): the mirrored indices and one update more. -/
def writeStatusBlock (s : State) : State :=
  let s1 := { s with mbx := { s.mbx with
    sbCmdCi := s.mbx.ci.take 4
    sbRespPi := s.mbx.pi.getD 4 0
    sbEventPi := s.mbx.pi.getD 5 0
    sbActiveCp := s.mbx.activeCp
    sbUpdates := s.mbx.sbUpdates + 1 } }
  hostWrite s.mbx.statusBlk.toNat (statusBlock s1.mbx) s1

/-- A response frame without its CRC (R45). -/
def Response.body (r : Response) : Bytes :=
  le 2 r.opcode ++ [1, BitVec.ofNat 8 r.ring] ++ leB 4 r.seq ++ leB 4 r.handle ++ le 2 r.status ++
    le 2 r.payload.length ++ r.payload

/-- A response frame with its CRC (R44, R45). -/
def Response.frame (r : Response) : Bytes := r.body ++ leB 4 (crc32c r.body)

/-- SESSION, to the PCIe Talus queue when the rings run (R69). -/
def sessionEvent (id : BitVec 32) (cause : Nat) (s : State) : State :=
  if s.mbx.running then hostEventTo (some 0) 0x0105 0 (leB 4 id ++ le 1 cause) s else s

/-- A session of an instance number, changed. -/
def setSession (inst : Nat) (f : Session → Session) (s : State) : State :=
  let g : Session → Session := fun q => if q.session.toNat = inst then f q else q
  { s with eth := { s.eth with sessions := s.eth.sessions.map g } }

def sessionAt (s : State) (inst : Nat) : Option Session := s.eth.sessions.find? fun q => q.session.toNat == inst

/-- A session closes (R69): its commands that have not started are discarded, those that have complete unseen. The device sends
no CLOSE datagram of its own, not even with cause 3 or 4: R69 allows CLOSE from either side and names no occasion (DESIGN
CHOICE, log 134). -/
def closeSession (inst cause : Nat) (s : State) : State :=
  match sessionAt s inst with
  | none => s
  | some q =>
    let stays := fun (e : InFlight) => e.msg.inst != inst || !(e.phase == .waiting || e.phase == .forwarded)
    sessionEvent q.session cause { s with
      eth := { s.eth with sessions := s.eth.sessions.filter fun q => q.session.toNat != inst }
      mbx := { s.mbx with inFlight := s.mbx.inFlight.filter stays }
      saddle := { s.saddle with fsQueue := s.saddle.fsQueue.filter fun e => e.2.1.inst != inst } }

/-- The transport header of a datagram (R63). -/
def transportHeader (session : BitVec 32) (kind ring counter : Nat) : Bytes :=
  leB 4 session ++ le 1 kind ++ le 1 ring ++ zeros 2 ++ le 8 counter

/-- The sizes of the IP parts of a packet of n bytes after its IP header, where the MTU leaves room for `room` (R70). -/
def ipParts (room : Nat) : Nat → Nat → List Nat
  | 0, _ => []
  | fuel + 1, n => if n ≤ room then [n] else room :: ipParts room fuel (n - room)

/-- A frame leaves a port; on a tagged port it carries the configured VID and PCP (R413). -/
def sendFrame (f : SentFrame) (e : EthPort) : EthPort :=
  { e with
    txFrames := e.txFrames + 1
    frames := (f, if e.flags.getLsbD 2 then some e.vlan else none) :: e.frames }

/-- The MAC address in force: that of OTP where 0 is configured. -/
def macInForce (s : State) (p : Nat) : Nat := let e := s.ports.getD p {}; if e.mac = 0 then (Config.otpMac p).toNat else e.mac

/-- The link-local IPv6 address of a MAC address by modified EUI-64 (R414): FE80::/64 and the six bytes with FF FE between them
and the second lowest bit of the first turned. -/
def linkLocal (mac : Nat) : Nat :=
  let m := le 6 mac
  let first := (m.take 1).map (· ^^^ 2)
  let b := [0xFE, 0x80] ++ zeros 6 ++ first ++ slice m 1 2 ++ [0xFF, 0xFE] ++ slice m 3 3
  leAt b 0 16

/-- The IPv6 address that a port sends from: the global one where there is one in use, else the link-local one (R414; log
156). -/
def ownV6 (s : State) (p : Nat) : Nat :=
  let e := s.ports.getD p {}
  if e.ipv6 ≠ 0 ∧ !e.dupGlobal then e.ipv6 else linkLocal (macInForce s p)

/-- A datagram sent at a port (R63, R70): 8 bytes of UDP header and the payload, in parts of a multiple of 8 bytes where the
MTU is too small; an IPv4 header is 20 bytes, an IPv6 header 40 with 8 more in a part. -/
def sendUdp (port : Nat) (v6 : Bool) (b : Bytes) (s : State) : State :=
  let mtu := (s.ports.getD port {}).mtu
  let n := b.length + 8
  let parts := if n + (if v6 then 40 else 20) ≤ mtu then [n] else ipParts ((mtu - if v6 then 48 else 20) / 8 * 8) 8 n
  { s with
    eth := { s.eth with out := s.eth.out ++ [⟨port, v6, if v6 then ownV6 s port else (s.ports.getD port {}).ipv4, b, parts⟩] }
    ports := modAt s.ports port fun e => parts.foldl (fun e _ => sendFrame .mailbox e) e }

/-- A datagram of a session (R63): header, ciphertext and tag, the nonce the salt followed by the counter; ring 4 for a
response, 5 for events. A session that would need counter 2^32 is closed with cause 4 (R66). -/
def sendDatagram (inst kind : Nat) (body : Bytes) (s : State) : State :=
  match sessionAt s inst with
  | none => s
  | some q =>
    if 2 ^ 32 ≤ q.txNext then closeSession inst 4 s
    else
      let s1 := setSession inst (fun q => { q with txNext := q.txNext + 1 }) s
      let head := transportHeader q.session kind (if kind = 0x10 then 4 else if kind = 0x11 then 5 else 0) q.txNext
      let cipher := (List.range (body.length + 16)).map (Config.gcmByte q.keyOut (q.saltOut ++ le 8 q.txNext) head body)
      sendUdp q.port q.v6 (head ++ cipher) s1

/-- A response becomes visible in its instance's response ring: PCIe (R37, R45), or an Ethernet session, which also
keeps it (R67) and sends it as a datagram (R63). -/
def writeResponse (inst : Nat) (r : Response) (s : State) : State :=
  if inst = 0 then
    if s.mbx.running ∧ s.mbx.responses.length < 256 then
      let s1 := hostWrite (ringAddress s 4 (s.mbx.pi.getD 4 0)) r.frame s
      interrupt 0 (writeStatusBlock { s1 with mbx := { s1.mbx with
        responses := s.mbx.responses ++ [r]
        pi := modAt s.mbx.pi 4 (· + 1) } })
    else s
  else
    let keep := fun (e : Nat × Nat × Response) => e.1 != r.ring || e.2.1 + 1024 > r.seq.toNat
    sendDatagram inst 0x10 r.frame
      (setSession inst (fun q => { q with stored := (r.ring, r.seq.toNat, r) :: q.stored.filter keep }) s)

/-- The DONE event of a message (R50), for the message's own instance. -/
def doneEvent (m : Msg) (status : Nat) (s : State) : State :=
  hostEventTo (some m.inst) 0x0101 m.handle (leB 4 m.seq ++ le 2 status ++ [BitVec.ofNat 8 m.ring.val, 0]) s

/-- A record goes to an instance. -/
def goesTo (r : EventRec) (inst : Nat) : Bool := r.dest == none || r.dest == some inst

/-- The ring and status block registers at their reset values (R487). -/
def clearRings (m : Mailbox) : Mailbox :=
  { m with
    statusBlk := 0, base := List.replicate 6 0, pi := List.replicate 6 0, ci := List.replicate 6 0
    responses := [], talus := [], clearAtStop := false }

/-- Fetching has stopped, every fetched PCIe message is complete and its events are written: RUNNING clears (R40), and after
PERST_N the ring registers with it (R487). -/
def settleDrain (s : State) : State :=
  if s.mbx.draining && !(s.mbx.inFlight.any fun e => e.msg.inst == 0) && !(s.transit.any (goesTo · 0)) then
    let m := { s.mbx with draining := false, running := false }
    { s with mbx := if m.clearAtStop then clearRings m else m }
  else s

/-- A fetched message, known by its place in the order of R52, leaves the list of incomplete messages. -/
def dropFlight (place : Nat) (s : State) : State :=
  settleDrain { s with mbx := { s.mbx with inFlight := s.mbx.inFlight.filter fun e => e.arrival != place } }

/-- An incomplete message of a phase: the one of its place, or a new one. -/
def keepFlight (op : Nat) (m : Msg) (place : Nat) (phase : MsgPhase) (s : State) : State :=
  let l := s.mbx.inFlight
  { s with mbx := { s.mbx with
    arrivals := max s.mbx.arrivals place
    inFlight :=
      if l.any (fun e => e.arrival == place) then l.map fun e => if e.arrival = place then { e with phase := phase } else e
      else l ++ [⟨op, m, place, phase, s.time.clock, 0, []⟩] } }

/-- The phase of a message answered ACCEPTED (R49): incomplete until its completion point; `final`: already reached. -/
def phaseOf (final : Option Nat) : MsgPhase :=
  match final with
  | none => .accepted
  | some st => .finished st

/-- The answer to the message of a place (R45, R50, R51): NO_RESPONSE suppresses a response of status OK or ACCEPTED; ACCEPTED
keeps the message open; any other status completes it, with a DONE event where EVENT_ON_DONE asks for one. -/
def answer (op : Nat) (m : Msg) (place : Nat) (status : Nat) (handle : Option (BitVec 32)) (payload : Bytes)
    (final : Option Nat) (s : State) : State :=
  let r : Response := ⟨op, m.ring.val, m.seq, handle.getD m.handle, status, payload.take 4072⟩
  let quiet := m.flags.getLsbD 2 && (status == stOk || status == stAccepted)
  let s := if quiet then s else writeResponse m.inst r s
  if status = stAccepted then keepFlight op m place (phaseOf final) s
  else
    let s := if m.flags.getLsbD 1 then doneEvent m status s else s
    dropFlight place s

/-- The first of a list that satisfies a test, changed. -/
def modFirst {α : Type} (p : α → Bool) (f : α → α) : List α → List α
  | [] => []
  | a :: l => if p a then f a :: l else a :: modFirst p f l

/-- A message's operation reaches its completion point after it was answered ACCEPTED: MESSAGE_COMPLETION will write
its DONE event (R49, R50). -/
def finishFlight (op : Nat) (m : Msg) (status : Nat) (s : State) : State :=
  { s with mbx := { s.mbx with
    inFlight := modFirst (fun e => e.opcode = op ∧ e.msg = m ∧ e.phase = .accepted)
      (fun e => { e with phase := .finished status }) s.mbx.inFlight } }

/-! ### The run of a message operation -/

/-- What a chapter gives for one opcode: what the checks of R46 need, and the operation itself. -/
structure OpDef where
  code    : Nat
  /-- may carry URGENT (R56) -/
  urgent  : Bool := false
  /-- where that depends on the payload (R191) -/
  urgentIf : Msg → Bool := fun _ => true
  /-- addressed to the field die: executed by the FS, OFFLINE while the field die is unreachable (R33) -/
  field   : Bool := true
  /-- of a family that R500 and R387 refuse until the memory is trained -/
  trained : Bool := false
  /-- check 5: the length the opcode defines (R573) -/
  len     : Bytes → Bool
  /-- check 5 where the length also depends on the object that the handle names -/
  shape   : Msg → State → Bool := fun _ _ => true
  /-- checks 6 to 9: the object types the handle may name; 0: handle 0 -/
  types   : List Nat := [0]
  /-- checks 6 to 9 on the handles that the payload names -/
  named   : Msg → List HandleUse := fun _ => []
  /-- the object named is of the kind that the family takes: compares and time triggers share a type (WRONGTYPE) -/
  kind    : Msg → State → Bool := fun _ _ => true
  /-- check 10: the conditions on the payload fields alone -/
  fields  : Msg → State → List FieldCheck := fun _ _ => []
  /-- check 11: the audit lock and the debug level permit the operation -/
  allowed : Msg → State → Bool := fun _ _ => true
  /-- checks 13 and 14 and the effect -/
  body    : Msg → State → OpResult

/-- Operations that the recovery code answers (R522). -/
def recoveryOp (code : Nat) : Bool :=
  code == 0x0104 || code == 0x0D05 || (0x0D10 ≤ code && code ≤ 0x0D13)

/-- The enrolled rights of a session's host key, none for PCIe (R62). -/
def sessionRights (inst : Nat) (s : State) : Option Nat :=
  match s.eth.sessions.find? (fun q => q.session.toNat == inst) with
  | none => none
  | some q => match s.cairn.keys.getD q.keyIdx none with
    | none => none
    | some k => some k.rights

/-- Check 4 of R46: reserved flags 0, URGENT only in ring 3 and on an urgent-capable opcode. -/
def flagsOk (d : OpDef) (m : Msg) : Bool :=
  m.flags.toNat < 16 && (!m.flags.getLsbD 3 || (m.ring == 3 && d.urgent && d.urgentIf m))

/-- Check 12 and the refusals by family: R33, R522, R387, R500. -/
def reachable (d : OpDef) (s : State) : Except OpErr Unit := do
  require (!(s.cairn.recovery && !recoveryOp d.code)) (plainErr stOffline)
  require (!(d.field && s.saddle.fieldLost)) (plainErr stOffline)
  require (!(d.trained && s.mem.failed)) (plainErr stInternal)
  require (!(d.trained && !s.mem.trained)) (plainErr stOffline)

/-- Checks 1 to 12 of R46, in order, as far as they concern a message whose CRC is good. -/
def opChecks (d : OpDef) (m : Msg) (s : State) : Except OpErr Unit := do
  require (m.payload.length ≤ 4072) badLen
  require (flagsOk d m) (offsetErr stBadArg 3)
  require (d.len m.payload && d.shape m s) badLen
  checkHandles (⟨d.types, m.handle, 8⟩ :: d.named m) s.objs
  require (d.kind m s) (offsetErr stWrongType 8)
  checkFields (d.fields m s)
  require (d.allowed m s && !(match sessionRights m.inst s with
    | none => false
    | some r => Config.rightDenies (BitVec.ofNat 8 r) d.code)) (plainErr stDenied)
  reachable d s

/-- What an operation answers (R46): the first failed check, or what its body gives. -/
def opResult (d : OpDef) (m : Msg) (s : State) : OpResult := do
  opChecks d m s
  d.body m s

/-- A message operation executed and answered. On an error nothing but the answer changes (R48). -/
def runOp (d : OpDef) (m : Msg) (place : Nat) (s : State) : State :=
  match opResult d m s with
  | .ok r => answer d.code m place r.status r.handle r.payload r.final r.state
  | .error e => answer d.code m place e.status none e.payload none s

/-- What a ring holds: PI − CI (R35). -/
def ringHeld (s : State) (n : Nat) : Nat := (s.mbx.pi.getD n 0 - s.mbx.ci.getD n 0).toNat

/-! ### Ordering -/

def isFence (m : Msg) : Bool := m.flags.getLsbD 0
def isUrgent (m : Msg) : Bool := m.flags.getLsbD 3

/-- sync.fence with a ring in its mask, its own ring always included (R55). -/
def fenceCovers (op : Nat) (m : Msg) (ring : Nat) : Bool :=
  op == 0x0F01 && (m.ring.val == ring || bit (byteAt m.payload 0) ring)

/-- The data blocks (R53): plate.data (R108) and audit.fw_data (19). -/
def isBlock (op : Nat) : Bool := op == 0x0302 || op == 0x0D11

/-- The earlier message (op a, message x) holds the later one (op b, message y) of the same instance (R53 to R56). An earlier
fence in ring 3 holds an URGENT message of its handle: R56's second paragraph says that any earlier message there does, its
first that no fence holds an URGENT message; the second is followed (DESIGN CHOICE, log 132). -/
def holds (a : Nat) (x : Msg) (b : Nat) (y : Msg) : Bool :=
  let same := x.ring == y.ring && x.handle == y.handle
  if isUrgent y then same
  else if isUrgent x then same && !isFence y && b != 0x0F01
  else isFence y || isFence x || fenceCovers b y x.ring.val || fenceCovers a x y.ring.val ||
    (same && !isBlock a && !isBlock b)

/-- A PCIe message recorded as ahead still lies unfetched in its slot; from the moment fetching stops it no longer counts
(R40). -/
def stillUnfetched (s : State) (a : Ahead) : Bool :=
  s.mbx.running && !s.mbx.draining && (a.index - s.mbx.ci.getD a.ring 0).toNat < ringHeld s a.ring

/-- What holds a waiting message: fetched messages (seq, ring, handle, place), and unfetched ones. -/
def heldBy (s : State) (e : InFlight) : List Ahead :=
  let fetched := s.mbx.inFlight.filter fun a =>
    a.msg.inst == e.msg.inst && a.arrival < e.arrival && holds a.opcode a.msg e.opcode e.msg
  fetched.map (fun a => ⟨a.msg.ring.val, 0, a.arrival, a.msg.seq, a.msg.handle⟩) ++ e.behind.filter (stillUnfetched s)

/-! ### The run of a message -/

/-- The FS executes messages: it runs an approved image, serves its host side and is not halted (R25, R31, R521, R531). -/
def fsRuns (s : State) : Bool :=
  !s.power.fieldReset && s.saddle.approved && !s.saddle.hostLost && !s.cps.halted.getD 2 false

/-- A message started (R25, R46, R48): executed on the host die, or checked and put into the command queue of the FS. -/
def startMessage (d : OpDef) (m : Msg) (place : Nat) (s : State) : State :=
  if d.field then
    match opChecks d m s with
    | .error e => answer d.code m place e.status none e.payload none s
    | .ok _ =>
      if 64 ≤ s.saddle.fsQueue.length then answer d.code m place stBusy none (le 4 0) none s
      else
        let s1 := keepFlight d.code m place .forwarded s
        { s1 with saddle := { s1.saddle with fsQueue := s1.saddle.fsQueue ++ [(d.code, m, place)] } }
  else runOp d m place s

/-- The place of a message that arrives now (R52). -/
def newPlace (s : State) : Nat := s.mbx.arrivals + 1

/-- A message that arrives now, as it would wait. -/
def newFlight (d : OpDef) (m : Msg) (s : State) : InFlight := ⟨d.code, m, newPlace s, .waiting, s.time.clock, 0, []⟩

/-- A new message can be taken: its instance runs and its response can be written (R41, R61). -/
def takes (m : Msg) (s : State) : Bool :=
  !s.power.hostReset &&
    if m.inst = 0 then s.mbx.running && !s.mbx.draining && responseFree s
    else s.eth.sessions.any fun q => q.session.toNat == m.inst

/-- Checks 1 to 4 of R46 pass, as far as they concern a message whose opcode is known and whose CRC is good (R574). -/
def ordered (d : OpDef) (m : Msg) : Bool := m.payload.length ≤ 4072 && flagsOk d m

/-- A new message runs in the command that brings it: nothing earlier holds it, and, for the field die, the FS has nothing
before it (R26, R53). -/
def direct (d : OpDef) (m : Msg) (s : State) : Bool :=
  (heldBy s (newFlight d m s)).isEmpty && (!d.field || (s.saddle.fsQueue.isEmpty && fsRuns s))

/-- A new message taken (R46, R53, R574): run at once, or held behind earlier messages, or forwarded to the FS. -/
def takeNew (d : OpDef) (m : Msg) (s : State) : State :=
  if !ordered d m || direct d m s then runOp d m (newPlace s) s
  else if (heldBy s (newFlight d m s)).isEmpty then startMessage d m (newPlace s) s
  else keepFlight d.code m (newPlace s) .waiting s

/-- The row of a message operation (log 28): a message at the front of the command queue of the FS is executed there; one that
waits is started once nothing holds it; one that is under way stays as it is; any other is new, and is taken if it can be. -/
def message (d : OpDef) (m : Msg) (s : State) : State :=
  if s.power.hostReset then s else
  match s.mbx.inFlight.find? fun e => e.opcode == d.code && e.msg == m && (e.phase == .waiting || e.phase == .forwarded) with
  | some e =>
    if e.phase = .waiting then if (heldBy s e).isEmpty then startMessage d m e.arrival s else s
    else if s.saddle.fsQueue.head? = some (d.code, m, e.arrival) ∧ fsRuns s then
      runOp d m e.arrival { s with saddle := { s.saddle with fsQueue := s.saddle.fsQueue.drop 1 } }
    else s
  | none => if takes m s then takeNew d m s else s

/-- A good answer with no more than a state. -/
def okState (s : State) : OpResult := .ok { state := s }

/-- A good answer with a payload. -/
def okBytes (s : State) (b : Bytes) : OpResult := .ok { state := s, payload := b }

/-- An answer LATE with the line or time that is taken (R48). -/
def okLate (s : State) (b : Bytes) : OpResult := .ok { state := s, status := stLate, payload := b }

/-- The outcome of a meaning that may change a status word of the window. -/
def done (before after : State) : Out := .next (noteStatus before after)

end Sys2Proof.Machine
end

