-- ==== Sys2Proof/Machine/Plates.lean ====
section
/-! DEFINITION. Plates and the image store (04): formats, the store's layout, blocks and digests, and the `plate`
family. -/

namespace Sys2Proof.Machine

/-- Packed bytes of one line (R95). -/
def packedBytes (format width : Nat) : Nat :=
  match format with
  | 2 => width / 4
  | 3 => 3 * width / 8
  | _ => width

/-- The widest plate of a format, in plate pixels (R95). -/
def maxWidth (format : Nat) : Nat := if format = 0 then 53248 else 106496

/-- Line stride in the store (R101). -/
def strideOf (format width : Nat) : Nat := ceilDiv (packedBytes format width) 4096 * 4096

/-- Blocks of a plate (R103). -/
def blockCount (format width lines : Nat) : Nat := ceilDiv (lines * packedBytes format width) 4064

/-- Bytes that block i carries (R103). -/
def blockBytes (format width lines i : Nat) : Nat := min 4064 (lines * packedBytes format width - 4064 * i)

/-- Extents of the image and of the digest list (R101, R104). -/
def imageExtents (format width lines : Nat) : Nat := ceilDiv (lines * strideOf format width) extentBytes
def digestExtents (format width lines : Nat) : Nat := ceilDiv (48 * blockCount format width lines) extentBytes

/-- The size of a plate in budget 6 and R83: its blocks × 4,092 bytes (R103). -/
def plateSize (p : Plate) : Nat := blockCount p.format p.width p.lines * 4092

/-- Extents and bytes that a plate holds. -/
def plateExtents (p : Plate) : Nat := p.extents.length + p.digestExtents.length
def allocBytes (p : Plate) : Nat := plateExtents p * extentBytes

/-- The repeat length of a plate in device lines under a line_pitch (R98). -/
def repeatLength (p : Plate) (pitch : Nat) : Nat :=
  match p.format, pitch with
  | 0, 0 => 2 * p.lines
  | 1, 1 => p.lines / 2
  | _, _ => p.lines

/-- The device address of a byte of the plate's image in the store (R101). -/
def imageAddr (p : Plate) (off : Nat) : Nat :=
  p.extents.getD (off / extentBytes) 0 * extentBytes + off % extentBytes

/-- The image offset of packed-image byte `o`: lines start at multiples of the stride (R101, R103). -/
def packedToImage (p : Plate) (o : Nat) : Nat :=
  let lb := packedBytes p.format p.width
  o / lb * strideOf p.format p.width + o % lb

/-- Packed-image bytes stored from offset `o` on, a run within one line and one extent at a time. -/
def storePacked (p : Plate) : Nat → Nat → Bytes → Memory → Memory
  | 0, _, _, m => m
  | fuel + 1, o, b, m =>
    if b.isEmpty then m else
    let lb := packedBytes p.format p.width
    let off := packedToImage p o
    let n := min (lb - o % lb) (extentBytes - off % extentBytes)
    storePacked p fuel (o + n) (b.drop n) (memStore m (imageAddr p off) (b.take n))

/-- Packed-image bytes read from offset `o` on. -/
def readPacked (p : Plate) (m : Memory) (o n : Nat) : Bytes :=
  (List.range n).map fun k => memByte m (imageAddr p (packedToImage p (o + k)))

/-- The descriptor that the plate hash starts with (R105). -/
def plateDescriptor (p : Plate) : Bytes :=
  le 1 p.format ++ zeros 3 ++ le 4 p.width ++ le 4 p.lines ++ le 4 (blockCount p.format p.width p.lines)

/-- The device address of byte `o` of the plate's digest list (R104). -/
def digestAddr (p : Plate) (o : Nat) : Nat :=
  p.digestExtents.getD (o / extentBytes) 0 * extentBytes + o % extentBytes

/-- The digest of block i stored in the plate's digest list, 48 bytes a block (R104). -/
def storeDigest (p : Plate) (i : Nat) (h : BitVec 384) (m : Memory) : Memory :=
  let n := min 48 (extentBytes - 48 * i % extentBytes)
  memStore (memStore m (digestAddr p (48 * i)) ((leB 48 h).take n)) (digestAddr p (48 * i + n)) ((leB 48 h).drop n)

/-- The digest of block i as the digest list holds it. -/
def readDigest (p : Plate) (m : Memory) (i : Nat) : Bytes :=
  (List.range 48).map fun k => memByte m (digestAddr p (48 * i + k))

/-- The plate hash (R105), over the digest list in memory. -/
def plateHash (m : Memory) (p : Plate) : BitVec 384 :=
  Config.sha384 (plateDescriptor p ++ (List.range (blockCount p.format p.width p.lines)).flatMap (readDigest p m))

/-- The lowest block not received, none when every block is (R110). -/
def missingBlock (p : Plate) : Option Nat :=
  (List.range (blockCount p.format p.width p.lines)).find? fun i => !p.blocks.contains i

/-- Channels that hold a plate as current, next or decided plate (R76, R119, R121). -/
def plateRefs (s : State) (h : BitVec 32) : Nat :=
  (s.objs.channels.live.filter fun e =>
    e.2.plate == h || (e.2.next.any fun n => n.plate == h) || e.2.decided.any (fun d => d.plate == h)).length

/-- Bits of a plate's format, width and lines are within R95. A width above the maximum of its own format is answered at the
width's offset, not the format's (DESIGN CHOICE, log 144). -/
def plateFields (b : Bytes) : List FieldCheck :=
  let f := byteAt b 0
  let w := u32 b 4
  [within f 0 3 0, reserved b 1 3,
   (w % 64 == 0 && 64 ≤ w && w ≤ maxWidth f, 4),
   within (u32 b 8) 1 16777216 8, reserved b 12 4]

/-- plate.create (0x0301, R95, R107). The width's limit is judged by the format's own maximum; a format that is not
defined fails at its own, lower, offset. -/
def opPlateCreate : OpDef where
  code := 0x0301
  trained := true
  len b := b.length == 16
  fields m _ := plateFields m.payload
  body m s := do
    let f := byteAt m.payload 0
    let w := u32 m.payload 4
    let n := u32 m.payload 8
    let ie := imageExtents f w n
    let de := digestExtents f w n
    let (ext, s1) ← orErr (takeExtents (ie + de) s) (plainErr stNoSpace)
    let p : Plate :=
      { format := f, width := w, lines := n, isSealed := false, extents := ext.take ie, digestExtents := ext.drop ie
        blocks := [], hash := 0, damaged := false, damagedBlocks := [] }
    let (i, t) ← orErr (s1.objs.plates.create p) (plainErr stNoSpace)
    .ok { state := { s1 with objs := { s1.objs with plates := t } }
          handle := some (t.handle tyPlate i)
          payload := le 4 (blockCount f w n) ++ le 4 (packedBytes f w) ++ le 4 (strideOf f w) ++ zeros 4 ++
            le 8 ((ie + de) * extentBytes) }

/-- plate.data (0x0302, R104, R108, R109): the data and the digest of the block are stored together. -/
def opPlateData : OpDef where
  code := 0x0302
  trained := true
  types := [tyPlate]
  len b := 8 < b.length
  shape m s := (plateOf s m.handle).all fun p =>
    let i := u32 m.payload 0
    blockCount p.format p.width p.lines ≤ i || m.payload.length == 8 + blockBytes p.format p.width p.lines i
  fields m s :=
    [((plateOf s m.handle).all fun p => u32 m.payload 0 < blockCount p.format p.width p.lines, 0), reserved m.payload 4 4]
  body m s := do
    let p ← orErr (plateOf s m.handle) (plainErr stNoHandle)
    let i := u32 m.payload 0
    let d := m.payload.drop 8
    require (!p.isSealed) (plainErr stState)
    let s1 := { s with mem := storeDigest p i (Config.sha384 d) (storePacked p d.length (4064 * i) d s.mem) }
    okState (setPlate s1 m.handle fun p => { p with blocks := i :: p.blocks.filter (· != i) })

/-- The blocks of a plate that the 64-byte segment at an image offset holds bytes of, each with the packed-image offset
within the block of its first byte in the segment (R114). -/
def segmentBlocks (p : Plate) (off : Nat) : List (Nat × Nat) :=
  let lb := packedBytes p.format p.width
  let stride := strideOf p.format p.width
  let y := off / stride
  let b := off % stride / 64 * 64
  if lb ≤ b ∨ p.lines ≤ y then [] else
  let first := y * lb + b
  let last := y * lb + min (b + 63) (lb - 1)
  if first / 4064 = last / 4064 then [(first / 4064, first % 4064)]
  else [(first / 4064, first % 4064), (last / 4064, 0)]

/-- A read of a sealed plate has met an uncorrectable segment at an image offset (R114): the plate is damaged, and
PLATE_DAMAGED is written once per block. -/
def damagePlate (h : BitVec 32) (off : Nat) (s : State) : State :=
  match plateOf s h with
  | none => s
  | some p =>
    if !p.isSealed then s else
    let hit := (segmentBlocks p off).filter fun e => !p.damagedBlocks.contains e.1
    let s := setPlate s h fun p => { p with damaged := true, damagedBlocks := p.damagedBlocks ++ hit.map (·.1) }
    hit.foldl (fun s e => fieldEvent 0x0301 h (le 4 e.1 ++ le 4 e.2) s) s

/-- A read of packed-image bytes that meets uncorrectable segments damages the plate (R114). -/
def damageRead (h : BitVec 32) (p : Plate) (o n : Nat) (s : State) : State :=
  if s.mem.poison.isEmpty ∧ s.mem.bad.isEmpty then s else
  (List.range n).foldl (fun s' k =>
    let off := packedToImage p (o + k)
    if poisoned s.mem (imageAddr p off) then damagePlate h off s' else s') s

/-- plate.read (0x0303, R113). -/
def opPlateRead : OpDef where
  code := 0x0303
  trained := true
  types := [tyPlate]
  len b := b.length == 8
  fields m s :=
    [(match plateOf s m.handle with
      | none => true
      | some p => u32 m.payload 0 < blockCount p.format p.width p.lines, 0),
     reserved m.payload 4 4]
  body m s := do
    let p ← orErr (plateOf s m.handle) (plainErr stNoHandle)
    let i := u32 m.payload 0
    require (p.isSealed || p.blocks.contains i) (plainErr stState)
    let n := blockBytes p.format p.width p.lines i
    okBytes (damageRead m.handle p (4064 * i) n s) (readPacked p s.mem (4064 * i) n)

/-- plate.seal (0x0304, R105, R110, R111). -/
def opPlateSeal : OpDef where
  code := 0x0304
  trained := true
  types := [tyPlate]
  len b := b.length == 0
  body m s := do
    let p ← orErr (plateOf s m.handle) (plainErr stNoHandle)
    require (!p.isSealed) ⟨stState, le 4 0xFFFFFFFF⟩
    match missingBlock p with
    | some i => .error ⟨stState, le 4 i⟩
    | none =>
      let h := plateHash s.mem p
      okBytes (setPlate s m.handle fun p => { p with isSealed := true, hash := h }) (leB 48 h)

/-- plate.destroy (0x0305, R112). -/
def opPlateDestroy : OpDef where
  code := 0x0305
  trained := true
  types := [tyPlate]
  len b := b.length == 0
  body m s := do
    let p ← orErr (plateOf s m.handle) (plainErr stNoHandle)
    require (plateRefs s m.handle == 0) (plainErr stState)
    okState (giveExtents (p.extents ++ p.digestExtents)
      { s with objs := { s.objs with plates := s.objs.plates.release (hIdx m.handle) } })

/-- plate.query (0x0306). -/
def opPlateQuery : OpDef where
  code := 0x0306
  trained := true
  types := [tyPlate]
  len b := b.length == 0
  body m s := do
    let p ← orErr (plateOf s m.handle) (plainErr stNoHandle)
    let refs := plateRefs s m.handle
    okBytes s (le 1 (flag p.isSealed) ++ le 1 p.format ++ le 1 (flag p.damaged + 2 * flag (refs != 0)) ++ zeros 1 ++
      le 4 p.width ++ le 4 p.lines ++ le 4 (packedBytes p.format p.width) ++ le 4 (strideOf p.format p.width) ++
      le 4 (blockCount p.format p.width p.lines) ++ le 4 p.blocks.length ++ le 8 (allocBytes p) ++ le 2 refs ++
      zeros 2 ++ leB 48 p.hash)

/-- plate.store_query (0x0307). -/
def opPlateStoreQuery : OpDef where
  code := 0x0307
  trained := true
  len b := b.length == 0
  body _ s :=
    let plates := sumOf (s.objs.plates.live.map fun e => plateExtents e.2)
    okBytes s (le 8 s.store.installed ++ le 8 1073741824 ++ le 4 extentBytes ++ le 4 s.store.total ++
      le 4 s.store.free.length ++ le 4 plates ++ le 4 (s.store.total - s.store.free.length - plates) ++
      le 2 s.objs.plates.live.length ++ zeros 2)

def execPlateCreate (m : Msg) (s : State) : Out := .next (message opPlateCreate m s)
def execPlateData (m : Msg) (s : State) : Out := .next (message opPlateData m s)
def execPlateRead (m : Msg) (s : State) : Out := .next (message opPlateRead m s)
def execPlateSeal (m : Msg) (s : State) : Out := .next (message opPlateSeal m s)
def execPlateDestroy (m : Msg) (s : State) : Out := .next (message opPlateDestroy m s)
def execPlateQuery (m : Msg) (s : State) : Out := .next (message opPlateQuery m s)
def execPlateStoreQuery (m : Msg) (s : State) : Out := .next (message opPlateStoreQuery m s)

end Sys2Proof.Machine
end

