-- ==== Sys2Proof/Machine/Ecc.lean ====
section
/-! DEFINITION. The ECC of a burst (R373 to R376): its eight codewords, their check bits and address tags, and what a read of
it finds. -/

namespace Sys2Proof.Machine

/-- What a read of a segment finds (R373 to R375). -/
inductive EccResult where
  /-- no error -/
  | clean
  /-- single-bit error in a codeword: corrected and written back (R374) -/
  | single
  /-- double-bit error, or an even-weight non-zero syndrome (R375) -/
  | double
  /-- the address tag of a codeword differs (R375) -/
  | tag
  deriving DecidableEq, Repr

/-- One codeword of a burst (R373): the 64 data bits of beats 2k and 2k + 1, the check byte of beat 2k and the address tag in
that of beat 2k + 1. -/
structure Codeword where
  data  : BitVec 64
  check : BitVec 8
  tag   : BitVec 8
  deriving DecidableEq, Repr

/-- The number of set bits of a byte. -/
def weight8 (c : BitVec 8) : Nat := countTrue ((List.range 8).map c.getLsbD)

/-- The columns of the data bits: bytes of odd weight above 1, so that no two columns, and no column and check bit, are alike
(R373). Which of them belong to which bit the manual does not say: the 64 first, those of weight 3 before those of weight 5
(DESIGN CHOICE, log 145). -/
def eccColumns : List (BitVec 8) :=
  let bytes := (List.range 256).map (BitVec.ofNat 8)
  (bytes.filter (fun c => weight8 c == 3) ++ bytes.filter fun c => weight8 c == 5).take 64

/-- The check bits of 64 data bits: the sum of the columns of those set (R373). -/
def checkBits (d : BitVec 64) : BitVec 8 :=
  eccColumns.zipIdx.foldl (fun c e => if d.getLsbD e.2 then c ^^^ e.1 else c) 0

/-- The address tag of a segment: CRC-8 over the five little-endian bytes of A >> 6 (R373). -/
def addressTag (a : Nat) : BitVec 8 := crcMsb (0x07#8) 0 (le 5 (a / 64))

/-- The codeword k of the burst at an address as it was written (R373); a word that a partial write over an uncorrectable read
has marked carries its check byte inverted (R376). -/
def codewordAt (m : Memory) (a k : Nat) : Codeword :=
  let seg := a / 64
  let d := BitVec.ofNat 64 (leAt (cellsBytes m.cells (64 * seg + 8 * k) 8) 0 8)
  let c := checkBits d
  ⟨d, if m.poison.contains (8 * seg + k) then ~~~c else c, addressTag a⟩

/-- A burst as the controller receives it: the stored codewords with the bits that the DRAM or the bus has turned. -/
def burstAt (m : Memory) (a : Nat) (flips : EccFlips) : List Codeword :=
  (List.range 8).map fun k =>
    let w := codewordAt m a k
    ⟨w.data ^^^ flips.data.getD k 0, w.check ^^^ flips.check.getD k 0, w.tag ^^^ flips.tag.getD k 0⟩

/-- The syndrome of a codeword (R373). -/
def syndrome (w : Codeword) : BitVec 8 := checkBits w.data ^^^ w.check

/-- What a codeword is found to be: none: uncorrectable (R375); else its data, corrected where one bit is wrong (R374). An odd
syndrome that no single bit has is uncorrectable too (log 145). -/
def correctWord (w : Codeword) : Option (BitVec 64) :=
  let z := syndrome w
  if z = 0 ∨ weight8 z = 1 then some w.data
  else match eccColumns.findIdx? (· == z) with
    | some i => some (w.data ^^^ (1#64 <<< i))
    | none => none

/-- What a read of the burst at an address finds (R373 to R375). -/
def readBurst (m : Memory) (a : Nat) (flips : EccFlips) : EccResult :=
  let l := burstAt m a flips
  if l.any fun w => w.tag != addressTag a then .tag
  else if l.any fun w => (correctWord w).isNone then .double
  else if l.any fun w => syndrome w != 0 then .single
  else .clean

/-- The 64 bytes that a corrected burst delivers, and that the controller writes back (R374). -/
def correctedBytes (m : Memory) (a : Nat) (flips : EccFlips) : Bytes :=
  (burstAt m a flips).flatMap fun w => leB 8 ((correctWord w).getD 0)

end Sys2Proof.Machine
end

