-- ==== Sys2Proof/Machine/Geometry.lean ====
section
/-! DEFINITION. Bar geometry (06): sixteenths, skews and delays (R159 to R169), slot and row records (R162, R163), the
dot map with its zones (R164), the refusal causes of a commit (R165), and FIRE_EN (R183). -/

namespace Sys2Proof.Machine

/-- Sixteenths per device line under a line_pitch (R159). -/
def qOf (pitch : Nat) : Nat := if pitch = 0 then 16 else 32

/-- Fetch skew s_h (R166). -/
def skewOf (u q : Nat) : Nat := ceilDiv u q

/-- Fire delay in 1/16 LP (R166). -/
def fireDelay (u q : Nat) : Nat := (q * skewOf u q - u) * 16 / q

/-- Row delay d_r in lines (R166). -/
def rowDelay (r q : Nat) : Nat := (r + q / 2) / q

/-- A slot is present when it has rows (R162). -/
def SlotRec.present (r : SlotRec) : Bool := !r.rows.isEmpty

/-- Head nozzles of a slot: the largest nozzle_first + nozzle_count (R172). -/
def slotNozzles (r : SlotRec) : Nat := maxOf (r.rows.map fun w => w.nozzleFirst + w.nozzleCount)

/-- The slots that are present, with their numbers. -/
def presentSlots (t : BarTable) : List (Nat × SlotRec) :=
  (t.slots.zipIdx.map fun e => (e.2, e.1)).filter fun e => e.2.present

/-- The head dot of the j-th nozzle of a row (R163). -/
def rowDot (w : RowRec) (j : Nat) : Nat := if w.descending then w.dotFirst - j * w.dotStep else w.dotFirst + j * w.dotStep

/-- The nozzle of a row on a head dot, as the offset j of R163; none where the row has no nozzle there. -/
def rowNozzle (w : RowRec) (hd : Nat) : Option Nat :=
  let d := if w.descending then w.dotFirst - hd else hd - w.dotFirst
  let side := if w.descending then hd ≤ w.dotFirst else w.dotFirst ≤ hd
  if side ∧ w.dotStep ≠ 0 ∧ d % w.dotStep = 0 ∧ d / w.dotStep < w.nozzleCount then some (d / w.dotStep) else none

/-- A nozzle that sits on a dot: its slot, its row and its bar nozzle index. -/
structure Cand where
  slot : Nat
  row  : RowRec
  idx  : Nat
  deriving DecidableEq, Repr

/-- The candidate set of a bar dot, in slot and row order (R163). -/
def candidates (t : BarTable) (x : Nat) : List Cand :=
  (presentSlots t).flatMap fun e =>
    if x < e.2.dotStart then [] else
    e.2.rows.filterMap fun w => (rowNozzle w (x - e.2.dotStart)).map fun j => ⟨e.1, w, e.2.nozzleBase + w.nozzleFirst + j⟩

/-- Zones of R164. `pos`: the position i in overlap `ovl`. -/
inductive Zone where
  | gap | single | redundant
  | stitch (ovl pos : Nat)
  deriving DecidableEq, Repr

/-- One entry of the dot map: zone, primary and alternate nozzle (R164). -/
structure DotEntry where
  zone : Zone
  prim : Option Cand
  alt  : Option Cand
  deriving DecidableEq, Repr

/-- Whether slots h and h + 1 share a dot. -/
def sharedDot (t : BarTable) (h x : Nat) : Bool :=
  let c := candidates t x
  c.any (fun k => k.slot == h) && c.any (fun k => k.slot == h + 1)

/-- The position of x in overlap h: its distance from the lowest dot that slots h and h + 1 share (R164), found among the
`fuel` dots below x, since no committed overlap is wider than 256 dots (R165). -/
def overlapPos (t : BarTable) (h : Nat) : Nat → Nat → Nat
  | 0, _ => 0
  | fuel + 1, x => if fuel + 1 ≤ x ∧ sharedDot t h (x - (fuel + 1)) then fuel + 1 else overlapPos t h fuel x

/-- The dot map entry of a dot; none for a candidate set that fits no zone (R164). -/
def zoneOf (t : BarTable) (x : Nat) : Option DotEntry :=
  match candidates t x with
  | [] => some ⟨.gap, none, none⟩
  | [a] => some ⟨.single, some a, none⟩
  | [a, b] =>
    if a.slot = b.slot then
      if a.row.redundant ≠ b.row.redundant then
        some (if b.row.redundant then ⟨.redundant, some a, some b⟩ else ⟨.redundant, some b, some a⟩)
      else none
    else if b.slot = a.slot + 1 then some ⟨.stitch a.slot (overlapPos t a.slot 255 x), some a, some b⟩
    else none
  | _ => none

/-- The dot map of a committed table (R189); a dot beyond the width has no nozzle. -/
def dotMap (t : BarTable) (x : Nat) : DotEntry :=
  if t.width ≤ x then ⟨.gap, none, none⟩ else (zoneOf t x).getD ⟨.gap, none, none⟩

/-- The largest and the smallest fetch skew of a bar (S of 06). -/
def skewMax (t : BarTable) (q : Nat) : Nat := maxOf ((presentSlots t).map fun e => skewOf e.2.downOffset q)
def skewMin (t : BarTable) (q : Nat) : Nat := (minOf ((presentSlots t).map fun e => skewOf e.2.downOffset q)).getD 0

/-- The largest row delay less skew of a bar: device line y has fired whole once fire line y plus this has fired. -/
def tailOf (t : BarTable) (q : Nat) : Int :=
  let l := (presentSlots t).flatMap fun e =>
    e.2.rows.map fun w => (rowDelay w.rowOffset q : Int) - (skewOf e.2.downOffset q : Int)
  match l with
  | [] => 0
  | a :: r => r.foldl max a

/-- Row-delay need in bytes of a span at a pitch (R90, R91, 06). -/
def rowDelayNeed (t : BarTable) (first width bits q : Nat) : Nat :=
  ceilDiv (sumOf ((presentSlots t).flatMap fun e => e.2.rows.map fun w =>
    ((List.range w.nozzleCount).filter fun j =>
      let x := e.2.dotStart + rowDot w j
      first ≤ x && x < first + width).length * bits * rowDelay w.rowOffset q)) 8

/-- The highest bar nozzle index of a table plus 1 (R157). -/
def nozzleCountOf (t : BarTable) : Nat := maxOf ((presentSlots t).map fun e => e.2.nozzleBase + slotNozzles e.2)

/-- Nozzles in a table, and dots below its width without a candidate (bar.query). -/
def nozzlesIn (t : BarTable) : Nat := sumOf ((presentSlots t).flatMap fun e => e.2.rows.map (·.nozzleCount))
def gapDots (t : BarTable) : Nat := ((List.range t.width).filter fun x => (candidates t x).isEmpty).length

/-- The lowest and the highest dot that slots o and o + 1 share (R164). -/
def overlapSpan (t : BarTable) (o : Nat) : Option (Nat × Nat) :=
  let dots := (List.range t.width).filter (sharedDot t o)
  dots.head?.bind fun a => dots.getLast?.map fun b => (a, b)

/-- Width of overlap o: from the lowest dot that slots o and o + 1 share to the highest (R140, R164); log 129. -/
def overlapWidth (t : BarTable) (o : Nat) : Nat :=
  match overlapSpan t o with
  | some (a, b) => b + 1 - a
  | none => 0

/-- The ramp that a table gives an overlap (R141); 0 at and beyond its width. -/
def defaultRamp (w i : Nat) : Nat := if i < w then (256 * (w - i) + (w + 1) / 2) / (w + 1) else 0

/-! ### Refusal causes (R165) -/

/-- The nozzle range of a slot. -/
def slotRange (e : Nat × SlotRec) : Nat × Nat := (e.2.nozzleBase, e.2.nozzleBase + slotNozzles e.2)

/-- Cause 1: two ranges overlap, or one ends beyond 131,071. -/
def rangeConflict (l : List (Nat × SlotRec)) : Option (Nat × Nat) :=
  l.findSome? fun a =>
    if 131072 < (slotRange a).2 then some (a.1, 0xFF)
    else l.findSome? fun b =>
      if a.1 < b.1 ∧ (slotRange a).1 < (slotRange b).2 ∧ (slotRange b).1 < (slotRange a).2 then some (a.1, b.1) else none

/-- Cause 2: a nozzle at or beyond the width. -/
def widthConflict (t : BarTable) : Option (Nat × Nat) :=
  (presentSlots t).findSome? fun e =>
    if e.2.rows.any fun w => (List.range w.nozzleCount).any fun j => t.width ≤ e.2.dotStart + rowDot w j
    then some (e.1, 0xFF) else none

/-- Cause 3: a dot that fits no zone; the second slot is the next that holds a candidate, 0xFF where there is none. -/
def zoneConflict (t : BarTable) : Option (Nat × Nat) :=
  (List.range t.width).findSome? fun x =>
    match zoneOf t x with
    | some _ => none
    | none => match candidates t x with
      | a :: rest => some (a.slot, ((rest.find? fun c => c.slot != a.slot).map (·.slot)).getD 0xFF)
      | _ => none

/-- Whether exactly one of slots h and h + 1 has a candidate on dot x. -/
def halfCovered (t : BarTable) (h x : Nat) : Bool :=
  let c := candidates t x
  c.any (fun k => k.slot == h) != c.any (fun k => k.slot == h + 1)

/-- Cause 4: an overlap wider than 256 dots, or with a dot that only one of its two slots covers; a dot in it that neither
covers is a gap (R164). -/
def overlapConflict (t : BarTable) : Option (Nat × Nat) :=
  (List.range 31).findSome? fun o =>
    (overlapSpan t o).bind fun (a, b) =>
      if 256 < b + 1 - a ∨ ((List.range (b + 1 - a)).any fun i => halfCovered t o (a + i)) then some (o, o + 1) else none

/-- Cause 5: a down_offset smaller than a row_offset of the same head. -/
def offsetConflict (t : BarTable) : Option (Nat × Nat) :=
  (presentSlots t).findSome? fun e => if e.2.rows.any fun w => e.2.downOffset < w.rowOffset then some (e.1, 0xFF) else none

/-- Cause 6: a row that needs a delay above 64 lines at line_pitch 0. -/
def delayConflict (t : BarTable) : Option (Nat × Nat) :=
  (presentSlots t).findSome? fun e => if e.2.rows.any fun w => 64 < rowDelay w.rowOffset 16 then some (e.1, 0xFF) else none

/-- The first rule of R165 that a staged table breaks: cause, first and second slot. -/
def commitRefusal (channelOnBar : Bool) (t : BarTable) : Option (Nat × Nat × Nat) :=
  if channelOnBar then some (0, 0xFF, 0xFF) else
  match rangeConflict (presentSlots t) with
  | some (a, b) => some (1, a, b)
  | none => match widthConflict t with
    | some (a, b) => some (2, a, b)
    | none => match zoneConflict t with
      | some (a, b) => some (3, a, b)
      | none => match overlapConflict t with
        | some (a, b) => some (4, a, b)
        | none => match offsetConflict t with
          | some (a, b) => some (5, a, b)
          | none => (delayConflict t).map fun e => (6, e.1, e.2)

/-! ### Records as bytes -/

/-- A row record from its 16 bytes (R162). -/
def parseRow (b : Bytes) (o : Nat) : RowRec :=
  { nozzleFirst := u16 b o, nozzleCount := u16 b (o + 2), dotFirst := u16 b (o + 4), dotStep := byteAt b (o + 6)
    redundant := bit (byteAt b (o + 7)) 0, descending := bit (byteAt b (o + 7)) 1, rowOffset := u16 b (o + 8) }

/-- A slot record and its rows from an offset on, with its slot number (R162). -/
def parseSlot (b : Bytes) (o : Nat) : Nat × SlotRec :=
  (byteAt b o,
   { typeCode := u16 b (o + 2), dotStart := u32 b (o + 4), downOffset := u32 b (o + 8), nozzleBase := u32 b (o + 12)
     rows := (List.range (byteAt b (o + 1))).map fun r => parseRow b (o + 16 + 16 * r) })

/-- Offsets of `count` slot records from an offset on, and the offset after the last (R573). -/
def walkSlots (b : Bytes) : Nat → Nat → List Nat × Nat
  | 0, o => ([], o)
  | n + 1, o =>
    let r := walkSlots b n (o + 16 + 16 * byteAt b (o + 1))
    (o :: r.1, r.2)

/-- Two rows of one head share a nozzle index. -/
def rowsShare (a b : RowRec) : Bool :=
  a.nozzleFirst < b.nozzleFirst + b.nozzleCount && b.nozzleFirst < a.nozzleFirst + a.nozzleCount

/-- Conditions on one row record (R162, R163). -/
def rowFields (b : Bytes) (o : Nat) : List FieldCheck :=
  let w := parseRow b o
  let span := (w.nozzleCount - 1) * w.dotStep
  [within w.nozzleCount 1 6144 (o + 2), within w.dotStep 1 16 (o + 6), below (byteAt b (o + 7)) 2 (o + 7),
   within w.rowOffset 0 1024 (o + 8), reserved b (o + 10) 6,
   (if w.descending then span ≤ w.dotFirst else w.dotFirst + span ≤ 65535, o + 4)]

/-- Conditions on one slot record (R162, R165). -/
def slotFields (b : Bytes) (o : Nat) : List FieldCheck :=
  let n := byteAt b (o + 1)
  let rows := (parseSlot b o).2.rows
  [within (byteAt b o) 0 31 o, within n 0 8 (o + 1), within (u32 b (o + 4)) 0 106495 (o + 4),
   within (u32 b (o + 8)) 0 4194303 (o + 8)] ++
  (List.range n).flatMap (fun r => rowFields b (o + 16 + 16 * r)) ++
  (List.range n).map fun r =>
    (!(rows.zipIdx.any fun e => e.2 != r && rowsShare e.1 (rows.getD r e.1)), o + 16 + 16 * r)

/-! ### FIRE_EN -/

/-- An interlock input trips: unhealthy, or latched (R452, R453). Type 0 never trips. -/
def ilkTrips (i : IlkInput) : Bool := i.type != 0 && (!i.healthy || i.latched)

/-- The interlock permit of a bar (R454). -/
def ilkPermit (s : State) (b : Nat) : Bool :=
  let row := s.ilk.rows.getD b 0
  s.ilk.locked && row != 0 &&
    (List.range 16).all fun i => !row.getLsbD i ||
      (let q := s.ilk.inputs.getD i {}
       q.type != 0 && q.healthy && !q.latched)

/-- FIRE_EN of a bar (R183). -/
def fireEn (s : State) (b : Nat) : Bool :=
  ilkPermit s b && (barAt s b).enable && !s.power.fieldReset && !s.thermal.off

/-- FIRE_EN levels, bit b = bar b. -/
def fireLevels (s : State) : Nat := bitsOf ((List.range 8).map (fireEn s))

/-- FIRE_EN_CHANGED where the levels differ (R183). `cause`: 0 software enable, 1 interlock, 2 reset or thermal-off. -/
def noteFireEn (cause : Nat) (before after : State) : State :=
  let a := fireLevels before
  let b := fireLevels after
  if a = b then after else fieldEvent 0x0605 0 (le 1 b ++ le 1 (a ^^^ b) ++ le 1 cause) after

end Sys2Proof.Machine
end

