-- ==== Sys2Proof/Machine/Lines.lean ====
section
/-! DEFINITION. Lines of a run: where a bar's fire phase stands (R203, R210), repeats (R99), the lines of a run that
print, what has been screened, packed and handed to the lanes, and the line from which a commit can take effect
(R146). -/

namespace Sys2Proof.Machine

/-- A run is active: armed, printing or stopping (R79). -/
def RunState.active : RunState → Bool
  | .armed | .printing | .stopping => true
  | _ => false

/-- A run holds reservations (R90). -/
def RunState.reserves : RunState → Bool
  | .ended => false
  | _ => true

/-- Number of a run state in run.query (R88). -/
def RunState.number : RunState → Nat
  | .created => 0 | .queued => 1 | .armed => 2 | .printing => 3 | .stopping => 4 | .ended => 5

/-- Some run is armed, printing or stopping. -/
def anyActive (s : State) : Bool := s.objs.runs.live.any fun e => e.2.state.active

/-- The line pitch of the lines that a bar fires or will fire: of an aborted run's handed lines (R87), else of the
reservations on it (R170); 0 without any. -/
def barPitch (s : State) (b : Nat) : Nat :=
  match (barAt s b).drain.head? with
  | some d => d.run.pitch
  | none =>
  match s.objs.runs.live.find? (fun e => e.2.state.reserves &&
      e.2.channels.any fun h => (channelOf s h).any fun c => c.bar == b) with
  | some e => e.2.pitch
  | none => 0

def barQ (s : State) (b : Nat) : Nat := qOf (barPitch s b)

/-- A bar has a channel of an active run. -/
def barActive (s : State) (b : Nat) : Bool :=
  s.objs.runs.live.any fun e => e.2.state.active && e.2.channels.any fun h => (channelOf s h).any fun c => c.bar == b

/-- A bar has lines to screen and fire: of an active run, or handed lines of an aborted one. -/
def barLive (s : State) (b : Nat) : Bool := barActive s b || !(barAt s b).drain.isEmpty

/-- FIFO depth D of a bar under budget 5: 256 while its driver has not been seen (R91). -/
def fifoDepth (s : State) (b : Nat) : Nat := let bar := barAt s b; if bar.driver = 0 then 256 else bar.fifo

/-- S of a bar at its present pitch. -/
def barSkew (s : State) (b : Nat) : Nat :=
  match (barAt s b).table with
  | none => 0
  | some t => skewMax t (barQ s b)

/-- Fire position of a run in its own lines: the integer part of Φ × 16 / q (R203). -/
def runPos (s : State) (pitch : Nat) : Nat := (s.pos.phi32 * 16 / ((qOf pitch : Int) * 2 ^ 32)).toNat

/-- Φ in web lines × 2^32 at which a bar fires line n (R210): trim4 counts quarters of a sixteenth. -/
def fireAt (bar : Bar) (q n : Nat) : Int := (4 * (n : Int) * (q : Int) + bar.trim4) * 2 ^ 26

/-- The fire phase of a bar, in lines of its runs: the last line whose instant Φ has reached. -/
def barPos (s : State) (b : Nat) : Int := (s.pos.phi32 / 2 ^ 26 - (barAt s b).trim4) / (4 * (barQ s b : Int))

/-- First device line of a repeat (R99). -/
def repeatStart (r : Run) (n : Nat) : Nat :=
  match r.segs.find? (fun g => g.rep ≤ n) with
  | some g => g.line + (n - g.rep) * g.len
  | none => r.firstLine

/-- The repeat that a device line lies in, and the line within it (R99). -/
def repeatOf (r : Run) (y : Nat) : Nat × Nat :=
  match r.segs.find? (fun g => g.line ≤ y) with
  | some g => if g.len = 0 then (g.rep, 0) else (g.rep + (y - g.line) / g.len, (y - g.line) % g.len)
  | none => (0, 0)

/-- Length of a repeat. -/
def repeatLen (r : Run) (n : Nat) : Nat :=
  match r.segs.find? (fun g => g.rep ≤ n) with
  | some g => g.len
  | none => 0

/-- First device line that a run does not print: its repeats done, or its armed stop (R86). -/
def runEnd (r : Run) : Option Nat :=
  let natural := if r.repeatCount = 0 then none else some (repeatStart r r.repeatCount)
  match natural, r.stopAt with
  | none, x => x
  | some a, none => some a
  | some a, some b => some (min a b)

/-- A device line is one that the run prints (R124). -/
def runPrints (r : Run) (y : Nat) : Bool :=
  r.state.active && r.firstLine ≤ y && (match runEnd r with | none => true | some e => y < e)

/-- The channels of a run with their handles. -/
def runChannels (s : State) (r : Run) : List (BitVec 32 × Channel) :=
  r.channels.filterMap fun h => (channelOf s h).map fun c => (h, c)

/-- Bars that carry a run's channels. -/
def runBars (s : State) (r : Run) : List Nat := ((runChannels s r).map fun e => e.2.bar).eraseDups

/-- S_run and the smallest skew of a run's bars at its pitch (R84, R85). -/
def runSkew (s : State) (r : Run) : Nat :=
  maxOf ((runBars s r).map fun b => match (barAt s b).table with | none => 0 | some t => skewMax t (qOf r.pitch))

/-- The largest FA of a run's channels. -/
def runFa (s : State) (r : Run) : Nat := maxOf ((runChannels s r).map fun e => e.2.fireAhead)

/-- The first device line of a run of which nothing has been handed to the lanes: the handed fire line plus S reaches a
device line (R86, R87; log 32). A run's handed lines fire whole. Never before the run's first line. -/
def firstUnhanded (s : State) (r : Run) : Nat :=
  max r.firstLine (maxOf ((runBars s r).map fun b => match (barAt s b).nextPack with
    | none => 0
    | some n => n + barSkew s b))

/-- The fire line of a bar at which device line y has fired whole. -/
def lastFireLine (s : State) (b y : Nat) : Int :=
  match (barAt s b).table with
  | none => y
  | some t => (y : Int) + tailOf t (barQ s b)

/-- Decision line of a repeat for a channel's bar (R116). -/
def decisionLine (s : State) (r : Run) (b n : Nat) : Int :=
  (repeatStart r n : Int) - ((fifoDepth s b + 64 + barSkew s b : Nat) : Int)

/-- The first device line of a bar for which a commit is on time: no output line that holds a dot landing on it has been
started (R146). -/
def firstOnTime (s : State) (b : Nat) : Nat :=
  match (barAt s b).nextOut with
  | none => 0
  | some n => n + barSkew s b

/-! ### Versions of a table -/

/-- The version that serves device line y (R125). -/
def Versioned.at {α : Type} (v : Versioned α) (y : Nat) : α :=
  match (v.armed.filter fun a => a.line ≤ y).getLast? with
  | some a => a.value
  | none => v.active

/-- The newest version, armed or active (R145). -/
def Versioned.newest {α : Type} (v : Versioned α) : α :=
  match v.armed.getLast? with
  | some a => a.value
  | none => v.active

/-- Every armed switch in force at once (R148). -/
def Versioned.settle {α : Type} (v : Versioned α) : Versioned α := ⟨v.newest, [], none⟩

/-- Armed switches up to line y in force (R146). -/
def Versioned.reach {α : Type} (v : Versioned α) (y : Nat) : Versioned α :=
  let done := v.armed.filter fun a => a.line ≤ y
  ⟨v.at y, v.armed.filter fun a => y < a.line, (done.getLast?.map (·.line)).orElse fun _ => v.last⟩

/-- A new version: at once (R148), or armed for a line; at the line of the last armed switch it joins it (R147). -/
def Versioned.enter {α : Type} (v : Versioned α) (line : Option Nat) (a : α) : Versioned α :=
  match line with
  | none => ⟨a, [], none⟩
  | some l => ⟨v.active, (v.armed.filter fun x => x.line != l) ++ [⟨l, a⟩], v.last⟩

/-! ### Where a run starts and stops -/

/-- The first repeat at or after n whose decision line on a bar lies ahead of the lane's present fire position (R118):
repeats that start up to D + 64 + S lines ahead are decided. -/
def firstAhead (s : State) (r : Run) (b n : Nat) : Nat :=
  let y := runPos s r.pitch + fifoDepth s b + 64 + barSkew s b
  if y < r.firstLine then n else max n ((repeatOf r y).1 + 1)

/-- The first device line of a run that has not fired whole on every bar of it (R88). -/
def doneTo (s : State) (r : Run) : Nat :=
  match r.state with
  | .created | .queued => r.firstLine
  | .ended => r.lastLine + 1
  | _ =>
    let upTo := (runBars s r).map fun b => match (barAt s b).nextFire with
      | none => r.firstLine
      | some n => ((n : Int) - (lastFireLine s b 0)).toNat
    let d := max r.firstLine ((minOf upTo).getD r.firstLine)
    match runEnd r with
    | none => d
    | some e => min d e

/-- A run arms on a bar, to print from fire line `first` on (R84): the bar's line counters start there. Where the bar
already runs ahead of it for other runs, its lines from there on are screened and handed anew, for every head prints the
first line whole (DEDUCED, log 74). -/
def startBar (first : Nat) (bar : Bar) : Bar :=
  let back : Option Nat → Option Nat := fun o => some (match o with
    | none => first
    | some n => min n first)
  { bar with
    nextFire := bar.nextFire.orElse fun _ => some first
    nextOut := back bar.nextOut
    nextPack := back bar.nextPack
    handed := bar.handed.filter fun e => e.1 < first }

/-- A run armed at a first line (R84, R85): repeats counted from it, its bars' line counters set, and every numbered
switch target whose decision line lies behind moved to the first repeat ahead (R118). -/
def armRun (h : BitVec 32) (first : Nat) (s : State) : State :=
  match runOf s h with
  | none => s
  | some r =>
    let len := match (runChannels s r).head? with
      | none => 0
      | some c => match plateOf s c.2.plate with
        | none => 0
        | some p => repeatLength p r.pitch
    let r' := { r with state := .armed, started := false, firstLine := first, segs := [⟨0, first, len⟩], fastLines := 0 }
    let s := setRun s h fun _ => r'
    let earliest := first - runSkew s r'
    let s := (runBars s r').foldl (fun s b => setBar s b (startBar earliest)) s
    (runChannels s r').foldl (fun s c =>
      setChannel s c.1 fun q => { q with
        prevSwitch := first
        runLines := 0
        next := q.next.map fun n => { n with target := firstAhead s r' q.bar n.target } }) s

/-- Blanking and resumption of a head of a bar without lines are in force at once (R185, R186, R148). -/
def settleHead (h : Head) : Head :=
  if h.resumeAt.isSome then { h with blank := false, outFrom := none, resumeAt := none, outPast := [] }
  else { h with outFrom := h.outFrom.map fun _ => 0, outPast := [] }

/-- A bar without lines to screen or fire parks its counters: no line of a run that ended before its first line fires
(R86). -/
def parkBars (s : State) : State :=
  { s with bars := s.bars.zipIdx.map fun e =>
      if barLive s e.2 then e.1
      else { e.1 with nextOut := none, nextPack := none, outLines := [], heads := e.1.heads.map settleHead,
                      nextFire := none, handed := [], missedAhead := [] } }

end Sys2Proof.Machine
end

