-- ==== Sys2Proof/Machine/Dram.lean ====
section
/-! DEFINITION. The DDR5 image memory (12): configurations and the address map (R367 to R372), what a read that meets an
error does (R373 to R376), scrub, power-down, self-refresh, refresh, temperature, training, and the `diag.mem_*`
operations. -/

namespace Sys2Proof.Machine

/-! ### Configurations and the map -/

/-- Bank-group bits, bank bits and row bits of a configuration (R367, R372). -/
def bgBits (c : MemConfig) : Nat := if c.x16 then 2 else 3
def baBits (c : MemConfig) : Nat := if c.density = 0 then 1 else 2
def rowBits (c : MemConfig) : Nat := if c.density = 2 then 17 else 16

/-- Bits of the segment number within one subchannel (R370). -/
def segBits (c : MemConfig) : Nat := 6 + bgBits c + baBits c + rowBits c + (c.ranks - 1)

/-- Installed bytes of a configuration (R367): four subchannels of 2^segBits segments of 64 bytes. -/
def installedBytes (c : MemConfig) : Nat := 2 ^ (segBits c + 8)

/-- The configurations of R367: the width x8 with 32 Gbit devices has one rank. -/
def configOk (width density ranks : Nat) : Bool :=
  width ≤ 1 && density ≤ 2 && 1 ≤ ranks && ranks ≤ 2 && !(width == 0 && density == 2 && ranks == 2)

/-- Map targets that a configuration has, in the order in which the default map fills them (R371, R372): 0 to 5 C4 to C9,
6 to 8 BG, 9 and 10 BA, 11 to 28 R, 29 rank. -/
def targetsOf (c : MemConfig) : List Nat :=
  List.range 6 ++ (List.range (bgBits c)).map (· + 6) ++ (List.range (baBits c)).map (· + 9) ++
    (List.range (rowBits c)).map (· + 11) ++ (if c.ranks = 2 then [29] else [])

/-- The s bit that feeds a target: of the map given, else of the default map (R371, R372). -/
def targetBit (c : MemConfig) (t : Nat) : Option Nat :=
  match c.map with
  | some (targets, _) => let v := byteAt targets t; if v = 0xFF then none else some v
  | none => (targetsOf c).findIdx? (· == t)

/-- The hash mask of bank-group bit 0 to 2 or bank bit 3 and 4 (R371, R372). -/
def hashMask (c : MemConfig) (i : Nat) : Nat :=
  match c.map with
  | some (_, masks) => (masks.getD i 0).toNat
  | none =>
    let row := fun k => match targetBit c (11 + k) with
      | some b => 2 ^ b
      | none => 0
    if i < 3 then row i + row (i + 3) else row (i - 3 + 6)

/-- The parity of a number of up to 32 bits. -/
def parity32 (n : Nat) : Bool := countTrue ((List.range 32).map (bit n)) % 2 == 1

/-- The subchannel of a device address (R370). -/
def subchannel (c : MemConfig) (a : Nat) : Nat := a / 2 ^ c.grain % 4

/-- The segment number within the subchannel (R370). -/
def segmentNo (c : MemConfig) (a : Nat) : Nat := (a / 2 ^ (c.grain + 2) * 2 ^ c.grain + a % 2 ^ c.grain) / 64

/-- A target bit of segment s, its hash applied (R371). -/
def mapBit (c : MemConfig) (s t : Nat) : Bool :=
  match targetBit c t with
  | none => false
  | some b =>
    let raw := bit s b
    if 6 ≤ t ∧ t ≤ 10 then raw != parity32 (s &&& hashMask c (t - 6)) else raw

/-- Where a segment lies: subchannel, rank, bank group, bank, row and first column (R370 to R372). -/
def dramPlace (c : MemConfig) (a : Nat) : List Nat :=
  let s := segmentNo c a
  let get := fun (t n : Nat) => bitsOf ((List.range n).map fun k => mapBit c s (t + k))
  [subchannel c a, get 29 1, get 6 3, get 9 2, get 11 18, 16 * get 0 6]

/-- The index sc × 2 + rank of a device address. -/
def rankIndex (c : MemConfig) (a : Nat) : Nat := 2 * subchannel c a + flag (mapBit c (segmentNo c a) 29)

/-- Rank index i exists. -/
def rankThere (c : MemConfig) (i : Nat) : Bool := i < 8 && (c.ranks == 2 || i % 2 == 0)

/-! ### Errors of a read -/

/-- A word of a segment was marked by a partial write (R376). -/
def markedSegment (m : Memory) (a : Nat) : Bool := (List.range 8).any fun k => m.poison.contains (a / 64 * 8 + k)

/-- Why a read of a segment finds it uncorrectable (MEM_UE): what the read itself meets, else what is known of the segment. -/
def readCause (m : Memory) (a : Nat) (ecc : EccResult) : Option Nat :=
  match ecc with
  | .double => some (if markedSegment m a then 3 else 1)
  | .tag => some 2
  | _ =>
    match m.bad.find? fun e => e.1 == a / 64 with
    | some e => some e.2
    | none => if poisoned m a then some 3 else none

/-- Every sealed plate that holds a device address is damaged there (R114). -/
def damageAddress (a : Nat) (s : State) : State :=
  s.objs.plates.live.foldl (fun s e =>
    match e.2.extents.findIdx? (· == a / extentBytes) with
    | none => s
    | some k => damagePlate (s.objs.plates.handle tyPlate e.1) (k * extentBytes + a % extentBytes) s) s

/-- An uncorrectable read (R375): counted, kept in mind, MEM_UE, and a sealed plate that holds the segment damaged. -/
def readUncorrectable (a cause : Nat) (s : State) : State :=
  let seg := a / 64
  let r := rankIndex s.mem.inForce a
  let bad := if cause = 3 then s.mem.bad else (seg, cause) :: s.mem.bad.filter fun e => e.1 != seg
  let mem := { s.mem with ue := modAt s.mem.ue r (fun n => min (n + 1) 0xFFFFFFFF), lastUe := 64 * seg, bad := bad }
  damageAddress (64 * seg) (fieldEvent 0x0E11 0 (le 6 (64 * seg) ++ le 1 r ++ le 1 cause) { s with mem := mem })

/-- A corrected read (R374): counted, for the scrub also in its own counts, and MEM_CE at most once a second per rank. -/
def readCorrected (a : Nat) (scrub : Bool) (s : State) : State :=
  let seg := a / 64
  let r := rankIndex s.mem.inForce a
  let news := s.mem.ceNew.getD r 0 + 1
  let m := { s.mem with
    ce := modAt s.mem.ce r (fun n => min (n + 1) 0xFFFFFFFF)
    lastCe := 64 * seg
    scrubCe := s.mem.scrubCe + flag scrub
    scrubCePass := s.mem.scrubCePass + flag scrub
    ceNew := setAt s.mem.ceNew r news }
  if due (s.mem.ceAt.getD r none) 1000000000 s.time.clock then
    let m := { m with ceNew := setAt m.ceNew r 0, ceAt := setAt m.ceAt r (some s.time.clock) }
    fieldEvent 0x0E10 0 (le 6 (64 * seg) ++ le 1 r ++ le 1 (min news 255)) { s with mem := m }
  else { s with mem := m }

/-! ### Scrub, power-down, self-refresh -/

/-- Segments installed. -/
def segmentCount (s : State) : Nat := s.store.installed / 64

/-- SCRUB_PASS (R377): the scrub has read every segment. -/
def execScrubPass (s : State) : Out :=
  .next (
    if segmentCount s = 0 ∨ s.mem.scrubNext < segmentCount s then s else
    let secs := (s.time.clock - s.mem.scrubAt) / 1000000000
    let s1 := fieldEvent 0x0E15 0 (le 4 (min secs 0xFFFFFFFF) ++ le 4 (min s.mem.scrubCePass 0xFFFFFFFF)) s
    { s1 with mem := { s1.mem with
      scrubPasses := (s1.mem.scrubPasses + 1) % 2 ^ 32, scrubNext := 0, scrubAt := s1.time.clock, scrubCePass := 0 } })

/-- The DRAM clock in MHz at a rate (R367). -/
def dramMhz (rate : Nat) : Nat := 2400 + 200 * rate

/-- POWER_DOWN_ENTRY (R378). -/
def execPowerDownEntry (rank : Fin 8) (s : State) : Out :=
  .next (
    let r := rank.val
    if s.mem.trained ∧ s.mem.pdClocks ≠ 0 ∧ rankThere s.mem.inForce r ∧ !s.mem.selfRefresh ∧
        1000 * s.mem.pdClocks ≤ (s.time.clock - s.mem.lastCmd.getD r 0) * dramMhz s.mem.inForce.rate then
      { s with mem := { s.mem with powerDown := setAt s.mem.powerDown r true } }
    else s)

/-- The three conditions of R379. -/
def memIdle (s : State) : Bool :=
  !anyActive s && s.fabric.ports.all fun p => p.queue.isEmpty && p.lock.isNone && p.heldDebug.isEmpty

/-- SELF_REFRESH_ENTRY (R379): the conditions have held for sr_idle_us. -/
def execSelfRefreshEntry (s : State) : Out :=
  .next (
    if s.mem.trained ∧ s.mem.srIdleUs ≠ 0 ∧ memIdle s ∧ !s.mem.selfRefresh ∧
        s.mem.idleSince + 1000 * s.mem.srIdleUs ≤ s.time.clock then
      { s with mem := { s.mem with selfRefresh := true, srExit := none } }
    else s)

/-- A request that finds the DRAM in self-refresh starts the exit, which is complete at most 1.2 µs later (R379, R380). -/
def wakeMemory (s : State) : State :=
  if s.mem.selfRefresh ∧ s.mem.srExit = none then
    { s with mem := { s.mem with srExit := some (s.time.clock + 1200) } }
  else s

/-- SELF_REFRESH_EXIT (R380): the exit that a request started is complete. -/
def execSelfRefreshExit (s : State) : Out :=
  .next (match s.mem.selfRefresh, s.mem.srExit with
    | true, some _ => { s with mem := { s.mem with
        selfRefresh := false, srExit := none, idleSince := s.time.clock
        lastCmd := List.replicate 8 s.time.clock } }
    | _, _ => s)

/-! ### Refresh, ZQ, temperature -/

/-- tREFI of a band in ns (R381). -/
def trefi (band : Nat) : Nat := if band = 0 then 3900 else 1950

/-- ZQ_CALIBRATION (R383): every 128 ms; it changes no trained delay. -/
def execZqCalibration (s : State) : Out :=
  .next (
    if s.mem.trained ∧ !s.mem.selfRefresh ∧ s.mem.zqAt + 128000000 ≤ s.time.clock then
      { s with mem := { s.mem with zqAt := s.time.clock } }
    else s)

/-- The refresh band at a temperature in 0.1 °C, from the band so far (R381). -/
def nextBand (band : Nat) (t : Int) : Nat :=
  if 950 < t then 2
  else if 930 < t then (if band = 2 then 2 else 1)
  else if 850 < t then 1
  else if 830 < t then min band 1
  else 0

/-- One rank's new temperature (R381, R388). -/
def rankTemp (temps : List Int) (r : Nat) (s : State) : State :=
  if !rankThere s.mem.inForce r then s else
  let t := temps.getD r 0
  let b0 := s.mem.band.getD r 0
  let b := nextBand b0 t
  let s1 := { s with mem := { s.mem with temp := setAt s.mem.temp r t, band := setAt s.mem.band r b } }
  let s2 := if b = b0 then s1 else fieldEvent 0x0E12 0 (le 1 r ++ le 1 b ++ leS 2 t) s1
  match s2.mem.trained, s2.mem.trainTemp with
  | true, some l =>
    let d := distInt t (l.getD r 0)
    let was := s2.mem.drifted.getD r false
    if !was ∧ 400 < d then
      fieldEvent 0x0E14 0 (le 1 r ++ zeros 1 ++ leS 2 (l.getD r 0) ++ leS 2 t)
        { s2 with mem := { s2.mem with drifted := setAt s2.mem.drifted r true } }
    else if was ∧ d < 300 then { s2 with mem := { s2.mem with drifted := setAt s2.mem.drifted r false } }
    else s2
  | _, _ => s2

/-- DRAM_TEMP_READ (R381, R388): every 32 ms; the first reading after a training that none preceded stands for the temperature
at training (log 44). -/
def execDramTempRead (temps : List Int) (s : State) : Out :=
  .next (
    if due s.mem.tempAt 32000000 s.time.clock then
      let at0 := if s.mem.trained ∧ s.mem.trainTemp = none then some (temps.take 8) else s.mem.trainTemp
      let s1 := { s with mem := { s.mem with tempAt := some s.time.clock, trainTemp := at0 } }
      (List.range 8).foldl (fun s r => rankTemp temps r s) s1
    else s)

/-! ### Training -/

/-- The bits of a delay word that exist, by its number i in its block (R385): FINE, COARSE and MARGIN, VREF in words 0 to 79;
words 105 to 127 are reserved. -/
def delayMask (i : Nat) : BitVec 32 := if i < 80 then 0xFF7F07FF else if i < 105 then 0xFF0007FF else 0

/-- MEM_TRAINED (R386, R387): training at the present rate has completed. A failure above 4,800 MT/s is trained once more
at 4,800; a success makes the store. Its extents lie from address 0 up, and the 1 GiB that the FS keeps at the top of the
installed memory, which R100 leaves open (DESIGN CHOICE, log 143). -/
def execMemTrained (stepsPass probePass : Bool) (margin : Nat) (rank : Fin 8) (words : List (BitVec 32)) (s : State) : Out :=
  let m := s.mem
  if s.power.fieldReset ∨ m.trained ∨ m.failed ∨ !s.saddle.approved then .next s
  else if stepsPass ∧ probePass ∧ 12 ≤ margin then
    let installed := installedBytes m.inForce
    let total := (installed - 1073741824) / extentBytes
    let delays := (words.take 1024).zipIdx.filterMap fun e =>
      let v := e.1 &&& delayMask (e.2 % 128)
      if rankThere m.inForce (e.2 / 128) ∧ v ≠ 0 then some (e.2, v) else none
    let at0 := if m.tempAt = none then none else some m.temp
    let m1 := { m with
      trained := true, delays := delays, trainTemp := at0, idleSince := s.time.clock, scrubAt := s.time.clock, zqAt := s.time.clock
      lastCmd := List.replicate 8 s.time.clock, refreshNext := m.band.map fun b => s.time.clock + trefi b }
    let s1 := { s with
      mem := m1
      store := { installed := installed, total := total, free := List.range total }
      thermal := { s.thermal with housekeeping := false }
      power := { s.power with readyMs := (s.time.clock - s.power.fieldReleaseAt) / 1000000 } }
    done s (fieldEvent 0x0E13 0 (le 1 m.inForce.rate ++ le 1 (flag m.fallback) ++ le 2 margin ++ le 1 rank.val) s1)
  else if m.inForce.rate ≠ 0 then
    .next { s with mem := { m with fallback := true, inForce := { m.inForce with rate := 0 } } }
  else
    let s1 := { s with mem := { m with failed := true }, thermal := { s.thermal with housekeeping := false } }
    done s (fieldEvent 0x0E13 0 (le 1 0 ++ le 1 2 ++ le 2 margin ++ le 1 rank.val) s1)

/-! ### diag.mem_config, diag.mem_query, diag.mem_training -/

/-- The configuration record of a payload. -/
def memConfigOf (b : Bytes) : MemConfig where
  rate := byteAt b 0
  x16 := byteAt b 1 == 1
  density := byteAt b 2
  ranks := byteAt b 3
  grain := byteAt b 4
  map := if byteAt b 5 = 1 then some (slice b 16 32, (List.range 5).map fun i => w32 b (48 + 4 * i)) else none

/-- The targets of a map keep R371: each s bit of the configuration feeds exactly one target that it has. -/
def targetsOk (c : MemConfig) (targets : Bytes) : Bool :=
  let have_ := targetsOf c
  (List.range 32).all (fun t => have_.contains t || byteAt targets t == 0xFF) &&
    (List.range (segBits c)).all (fun k => (have_.filter fun t => byteAt targets t == k).length == 1) &&
    have_.all fun t => byteAt targets t < segBits c

/-- The masks of a map keep R371: they select only s bits that feed row targets. -/
def masksOk (c : MemConfig) (targets : Bytes) (masks : List (BitVec 32)) : Bool :=
  let rows := ((targetsOf c).filter fun t => 11 ≤ t && t ≤ 28).map fun t => byteAt targets t
  masks.all fun w => (List.range 32).all fun k => !w.getLsbD k || rows.contains k

/-- diag.mem_config (0x0E11, R389). -/
def opDiagMemConfig : OpDef where
  code := 0x0E11
  len b := b.length == 68
  fields m _ :=
    let b := m.payload
    let c := memConfigOf b
    let custom := byteAt b 5 = 1
    [within (byteAt b 0) 0 2 0, (configOk (byteAt b 1) (byteAt b 2) (byteAt b 3), 1), within (byteAt b 4) 8 16 4,
     within (byteAt b 5) 0 1 5, within (u32 b 8) 0 10000000 8, within (byteAt b 12) 1 72 12, reserved b 13 3,
     (!custom || targetsOk c (slice b 16 32), 16),
     (!custom || masksOk c (slice b 16 32) ((List.range 5).map fun i => w32 b (48 + 4 * i)), 48)]
  body m s :=
    let b := m.payload
    okState { s with mem := { s.mem with
      pdClocks := u16 b 6, srIdleUs := u32 b 8, scrubHours := byteAt b 12
      stored := some (memConfigOf b), recordPending := true } }

/-- diag.mem_query (0x0E10). -/
def opDiagMemQuery : OpDef where
  code := 0x0E10
  len b := b.length == 0
  body _ s :=
    let m := s.mem
    let c := m.inForce
    let flags := flag m.trained + 2 * flag m.fallback + 4 * flag (m.band.any (· == 2)) + 8 * flag m.selfRefresh +
      16 * flag m.recordPending
    let progress := if segmentCount s = 0 then 0 else min 65535 (m.scrubNext * 65536 / segmentCount s)
    okBytes s (le 1 c.rate ++ le 1 (flag c.x16) ++ le 1 c.density ++ le 1 c.ranks ++ le 1 c.grain ++ le 1 flags ++ zeros 2 ++
      le 8 s.store.installed ++
      ((List.range 8).flatMap fun r => le 1 (if rankThere c r then m.band.getD r 0 else 0xFF)) ++
      ((List.range 8).flatMap fun r => leS 2 (m.temp.getD r 0)) ++
      ((List.range 8).flatMap fun r => le 4 (m.ce.getD r 0)) ++ ((List.range 8).flatMap fun r => le 4 (m.ue.getD r 0)) ++
      le 8 m.lastCe ++ le 8 m.lastUe ++ le 4 m.scrubPasses ++ le 2 progress ++ zeros 2 ++ le 8 m.scrubCe ++ zeros 8)

/-- diag.mem_training (0x0E12, R385). -/
def opDiagMemTraining : OpDef where
  code := 0x0E12
  len b := b.length == 8
  fields m _ :=
    let b := m.payload
    [within (byteAt b 0) 0 3 0, within (byteAt b 1) 0 1 1, within (u16 b 2) 0 127 2,
     within (u16 b 4) 1 128 4, (u16 b 2 + u16 b 4 ≤ 128, 2), reserved b 6 2]
  body m s :=
    let b := m.payload
    let start := 128 * (2 * byteAt b 0 + byteAt b 1) + u16 b 2
    okBytes s ((List.range (u16 b 4)).flatMap fun k => leB 4 (smGet s.mem.delays 0 (start + k)))

def execDiagMemConfig (m : Msg) (s : State) : Out := .next (message opDiagMemConfig m s)
def execDiagMemQuery (m : Msg) (s : State) : Out := .next (message opDiagMemQuery m s)
def execDiagMemTraining (m : Msg) (s : State) : Out := .next (message opDiagMemTraining m s)

end Sys2Proof.Machine
end

