-- ==== Sys2Proof/Machine/AuditRecords.lean ====
section
/-! DEFINITION. The audit ring of Cairn (R527 to R530): record header, run body, signing, the full ring. -/

namespace Sys2Proof.Machine

/-- The audit lock is engaged: OPT1 reads 0xA5, or the fuse of R2 is set (R530). -/
def auditLock (s : State) : Bool := s.ident.auditFused || byteAt s.power.options 1 == 0xA5

/-- A slot of the ring is free: acknowledged, or never written (R529). -/
def auditSlotFree (s : State) : Bool := s.cairn.nextRec < s.cairn.acked + 4096

/-- A device time as 4 bytes of ns and 6 of seconds (R58). -/
def timeFields (t : Nat) : Bytes := le 4 (t % 1000000000) ++ le 6 (t / 1000000000)

/-- The header of a record (R527): `body` follows it. -/
def recordHeader (ty : Nat) (session : BitVec 32) (flags entries : Nat) (body : Bytes) (s : State) : Bytes :=
  le 1 ty ++ [1] ++ le 2 (128 + body.length + 96) ++ le 2 entries ++ zeros 2 ++ le 8 s.cairn.nextRec ++
    leB 48 s.cairn.lastHash ++ leB 4 session ++ timeFields s.time.te ++ le 1 (s.time.epoch % 256) ++ le 1 flags ++
    leB 48 (s.cairn.m.getD 0 0)

/-- A record signed and put into the ring (R527): prev_hash chains it to the record before. -/
def enterRecord (ty : Nat) (session : BitVec 32) (flags entries : Nat) (body : Bytes) (s : State) : State :=
  let plain := recordHeader ty session flags entries body s ++ body
  let rec_ := plain ++ leB 96 (Config.ecdsaSign (Config.sha384 plain))
  let n := s.cairn.nextRec
  let s := { s with cairn := { s.cairn with
    ring := (s.cairn.ring.filter fun e => n < e.1 + 4096) ++ [(n, rec_)]
    nextRec := n + 1
    lastHash := Config.sha384 rec_
    acked := max s.cairn.acked (n + 1 - 4096) } }
  hostEvent 0x0D01 session (le 8 n) s

/-- A record that is due (R529): entered; or held, with the audit lock engaged and no slot free; or, without the lock,
entered over the oldest record. AUDIT_FULL in the last two cases. -/
def writeRecord (ty : Nat) (session : BitVec 32) (flags entries : Nat) (body : Bytes) (s : State) : State :=
  if auditSlotFree s then enterRecord ty session flags entries body s
  else if auditLock s then
    hostEvent 0x0D02 0 (le 8 (s.cairn.nextRec + s.cairn.due.length))
      (if s.cairn.due.length < 64 then
        { s with cairn := { s.cairn with
          due := s.cairn.due ++ [le 1 ty ++ leB 4 session ++ le 1 flags ++ le 2 entries ++ body] } }
      else s)
  else enterRecord ty session flags entries body (hostEvent 0x0D02 0 (le 8 (s.cairn.nextRec - 4096)) s)

/-- Held records entered while slots are free (R529). -/
def enterDue : Nat → State → State
  | 0, s => s
  | fuel + 1, s =>
    match s.cairn.due with
    | [] => s
    | d :: rest =>
      if auditSlotFree s then
        enterDue fuel (enterRecord (byteAt d 0) (w32 d 1) (byteAt d 5) (u16 d 6) (d.drop 8)
          { s with cairn := { s.cairn with due := rest } })
      else s

/-- The AUDITSESSION that covers a web lane, 0 for none. -/
def sessionOf (s : State) (lane : Nat) : BitVec 32 :=
  match s.objs.sessions.live.find? (fun e => bit e.2.lanes lane) with
  | some e => s.objs.sessions.handle tyAudit e.1
  | none => 0

/-- The counters of a run body from lines_suppressed to the interlock hash (R527). -/
def runCounters (a : RunAudit) (s : State) : Bytes :=
  le 8 a.suppressed ++ le 8 a.missed ++ le 8 a.verified ++ le 8 a.failed ++ le 8 a.indet ++ le 8 a.void ++
    le 2 a.tkCp ++ le 2 a.tkBench ++ le 2 a.tkSeq ++ le 2 a.tkLane ++ le 4 a.trips ++ le 4 a.rearms ++
    le 2 a.t4 ++ le 2 a.headBlanks ++ le 2 a.thermalOffs ++ zeros 2 ++ leB 48 s.ilk.lockHash

/-- A plate entry (R527). -/
def PlateEntry.bytes (e : PlateEntry) : Bytes :=
  le 1 e.bar ++ le 1 (flag e.damaged) ++ zeros 2 ++ le 4 e.repeats ++ le 8 e.lines ++ leB 48 e.hash

/-- A run body (R527): run, lane, cause, lines, repeats, counters, plate entries. Where `last` is false the counters
read 0 (R528). -/
def runBody (h : BitVec 32) (lane cause first lastLine repeats : Nat) (a : RunAudit) (plates : List PlateEntry)
    (isLast : Bool) (s : State) : Bytes :=
  leB 4 h ++ le 1 lane ++ le 1 cause ++ zeros 2 ++ le 6 first ++ le 6 lastLine ++ le 4 repeats ++
    (if isLast then runCounters a s else zeros 120) ++ plates.flatMap PlateEntry.bytes

/-- The records of a run, each with its flags, its number of plate entries and its body: at most 58 plate entries each,
all but the last flagged continued (R528). -/
def runParts (h : BitVec 32) (lane cause first lastLine repeats flags : Nat) (a : RunAudit) (s : State) :
    Nat → List PlateEntry → List (Nat × Nat × Bytes)
  | 0, _ => []
  | fuel + 1, plates =>
    let isLast : Bool := decide (plates.length ≤ 58)
    let part := plates.take 58
    let one := (flags + flag (!isLast), part.length, runBody h lane cause first lastLine repeats a part isLast s)
    if isLast then [one] else one :: runParts h lane cause first lastLine repeats flags a s fuel (plates.drop 58)

/-- The run counters added up for a session (R527, type 2). -/
def RunAudit.add (x y : RunAudit) : RunAudit :=
  { suppressed := x.suppressed + y.suppressed, missed := x.missed + y.missed, verified := x.verified + y.verified
    failed := x.failed + y.failed, indet := x.indet + y.indet, void := x.void + y.void, tkCp := x.tkCp + y.tkCp
    tkBench := x.tkBench + y.tkBench, tkSeq := x.tkSeq + y.tkSeq, tkLane := x.tkLane + y.tkLane
    trips := x.trips + y.trips, rearms := x.rearms + y.rearms, t4 := x.t4 + y.t4
    headBlanks := x.headBlanks + y.headBlanks, thermalOffs := x.thermalOffs + y.thermalOffs
    hostLost := x.hostLost || y.hostLost, debug := x.debug || y.debug, plates := [] }

/-- A run's record is written when it ENDS, is aborted or is freed by a field-die reset (R527); while the host side is
lost it waits for Saddle (R528). -/
def recordRun (h : BitVec 32) (r : Run) (cause : Nat) (s : State) : State :=
  let a := { r.audit with
    plates := r.audit.plates.map fun e => { e with damaged := e.damaged || (plateOf s e.plate).any fun p => p.damaged } }
  let flags := 2 * flag (a.debug || s.cairn.dbg.isSome) + 4 * flag (a.hostLost || s.saddle.hostLost)
  let session := sessionOf s r.lane
  let s := { s with objs := { s.objs with
    sessions := s.objs.sessions.mapLive fun q =>
      if bit q.lanes r.lane then
        { q with
          sums := q.sums.add a
          firstLine := if q.repeats = 0 then r.firstLine else q.firstLine
          lastLine := r.lastLine
          repeats := q.repeats + (repeatOf r (r.lastLine + 1)).1 }
      else q } }
  let parts := runParts h r.lane cause r.firstLine r.lastLine (repeatOf r (r.lastLine + 1)).1 flags a s
    (a.plates.length / 58 + 1) a.plates
  if s.saddle.hostLost then
    { s with cairn := { s.cairn with waiting := s.cairn.waiting ++ parts.map fun p => (session.toNat, p) } }
  else parts.foldl (fun s p => writeRecord 1 session p.1 p.2.1 p.2.2 s) s

/-- Records of runs that ended while the host side was lost are written once Saddle returns (R528). -/
def flushWaiting (s : State) : State :=
  s.cairn.waiting.foldl (fun s w => writeRecord 1 (BitVec.ofNat 32 w.1) w.2.1 w.2.2.1 w.2.2.2 s)
    { s with cairn := { s.cairn with waiting := [] } }

/-- A counter of the audit record raised in every active run that meets a test. -/
def auditRuns (p : Run → Bool) (f : RunAudit → RunAudit) (s : State) : State :=
  let runs := s.objs.runs.mapLive fun r => if r.state.active && p r then { r with audit := f r.audit } else r
  { s with objs := { s.objs with runs := runs } }

end Sys2Proof.Machine
end

