-- ==== Sys2Proof/Machine/VariableData.lean ====
section
/-! DEFINITION. Variable data (11): records and elements, rendering of windows, item states (R351), rejects (R358 to
R360) and the `vd` family. -/

namespace Sys2Proof.Machine

/-! ### Records (R344, R345, R347) -/

/-- Element offsets of a record: `count` elements from offset `o` on, and the offset after the last. -/
def walkElements (b : Bytes) : Nat → Nat → List Nat × Nat
  | 0, o => ([], o)
  | n + 1, o =>
    let r := walkElements b n (o + 16 + ceilDiv (u16 b (o + 12)) 4 * 4)
    (o :: r.1, r.2)

/-- One element (R344). -/
def parseElement (b : Bytes) (o : Nat) : VdElement :=
  { type := byteAt b o, rot := byteAt b (o + 1), x := u16 b (o + 2), y := u16 b (o + 4), mw := byteAt b (o + 6)
    mh := byteAt b (o + 7), param := u16 b (o + 8), invert := bit (byteAt b (o + 10)) 0
    data := slice b (o + 16) (u16 b (o + 12)) }

/-- One record (R344). -/
def parseRecord (b : Bytes) (o : Nat) : Item :=
  { seq := u64 b o, line := u48 b (o + 8), verify := bit (byteAt b (o + 14)) 0, dotX := u32 b (o + 16)
    winW := u16 b (o + 20), winH := u16 b (o + 22), mode := byteAt b (o + 24), level := byteAt b (o + 25)
    elements := (walkElements b (byteAt b (o + 15)) (o + 32)).1.map (parseElement b), size := u16 b (o + 26) }

/-- Offsets of `count` records, each as long as its own length field says (R573). -/
def walkRecords (b : Bytes) : Nat → Nat → List Nat × Nat
  | 0, o => ([], o)
  | n + 1, o =>
    let r := walkRecords b n (o + u16 b (o + 26))
    (o :: r.1, r.2)

/-- Stride and bytes of a rendered window (R348). -/
def windowStride (w : Nat) : Nat := ceilDiv w 512 * 64
def windowBytes (w h : Nat) : Nat := windowStride w * h

/-- The header of a font (R346): cell width and height, first code, count. -/
def fontCellW (f : Font) : Nat := byteAt f.bytes 0
def fontCellH (f : Font) : Nat := byteAt f.bytes 1
def fontFirst (f : Font) : Nat := byteAt f.bytes 2
def fontCount (f : Font) : Nat := byteAt f.bytes 3
def fontLength (f : Font) : Nat := 16 + fontCount f * fontCellH f * ceilDiv (fontCellW f) 8

/-- A font's header and length keep R346. -/
def fontOk (f : Font) : Bool :=
  1 ≤ fontCellW f && fontCellW f ≤ 64 && 1 ≤ fontCellH f && fontCellH f ≤ 64 && 1 ≤ fontCount f && fontCount f ≤ 224 &&
    leAt f.bytes 4 12 == 0 && f.bytes.length == fontLength f

/-- The data of an element suits its type (R345, R347). -/
def elementData (fonts : List Font) (e : VdElement) : Bool :=
  match e.type with
  | 1 => e.data.all fun c => c.toNat < 128 || c.toNat == 0xF1
  | 4 =>
    let f := fonts.getD (e.param % 8) {}
    f.usable && e.data.all fun c => fontFirst f ≤ c.toNat && c.toNat < fontFirst f + fontCount f
  | _ => true

/-- The param of an element suits its type (R345). -/
def elementParam (e : VdElement) : Bool :=
  match e.type with
  | 1 => 1 ≤ e.param && e.param ≤ 4096
  | 2 => e.param ≤ 30
  | 3 => field e.param 3 2 == 0 && field e.param 7 4 ≤ 10 && field e.param 15 8 == 0
  | _ => field e.param 7 3 == 0

/-- Conditions on one element (R344, R345). -/
def elementFields (fonts : List Font) (b : Bytes) (o : Nat) : List FieldCheck :=
  let e := parseElement b o
  let top := if e.type = 4 then 8 else 64
  [within e.type 1 4 o, within e.rot 0 3 (o + 1), within e.mw 1 top (o + 6), within e.mh 1 top (o + 7),
   (elementParam e, o + 8), below (byteAt b (o + 10)) 1 (o + 10), reserved b (o + 11) 1,
   within (u16 b (o + 12)) 1 460 (o + 12), reserved b (o + 14) 2, (elementData fonts e, o + 16)]

/-- Conditions on one record (R344, R347), for a stream, its channel and the record before it. -/
def recordFields (s : State) (st : VdStream) (ch : Option Channel) (prev : Option Nat) (prevLine : Nat) (b : Bytes)
    (o : Nat) : List FieldCheck :=
  let r := parseRecord b o
  let n := byteAt b (o + 15)
  let w := walkElements b n (o + 32)
  let lmax := match ch with
    | some c => if c.dropBits = 2 then 3 else 7
    | none => 7
  let rising : Bool := match prev with
    | none => true
    | some p => decide (p < r.seq)
  let inside : Bool := match ch with
    | none => true
    | some c => c.dotStart ≤ r.dotX && r.dotX + r.winW ≤ c.dotStart + c.dotWidth
  let checks : List FieldCheck := [(rising, o), (prevLine ≤ r.line, o + 8),
   below (byteAt b (o + 14)) 1 (o + 14), within n 1 8 (o + 15),
   (inside, o + 16),
   (r.winW % 8 == 0 && 8 ≤ r.winW && r.winW ≤ 4096, o + 20), within r.winH 1 4096 (o + 22),
   (windowBytes r.winW r.winH ≤ st.maxWindow, o + 20), within r.mode 0 2 (o + 24), within r.level 1 lmax (o + 25),
   (r.size % 4 == 0 && r.size ≤ st.maxRecord && o + r.size == w.2, o + 26), reserved b (o + 28) 4]
  checks ++ w.1.flatMap (elementFields s.vd.fonts b)

/-- Conditions on the records of a push, each judged after the one before (R347). -/
def pushFields (s : State) (st : VdStream) (ch : Option Channel) (b : Bytes) :
    List Nat → Option Nat → Nat → List FieldCheck
  | [], _, _ => []
  | o :: rest, prev, line =>
    let r := parseRecord b o
    recordFields s st ch prev line b o ++ pushFields s st ch b rest (some r.seq) r.line

/-! ### Rendering (R345, R346, R348) -/

/-- A glyph dot: character c, column and row of its cell (R346). -/
def glyphDot (f : Font) (c x y : Nat) : Bool :=
  let rowBytes := ceilDiv (fontCellW f) 8
  let g := f.bytes.getD (16 + ((c - fontFirst f) * fontCellH f + y) * rowBytes + x / 8) 0
  bit g.toNat (7 - x % 8)

/-- The box of an element before rotation, in dots and lines; none where it cannot be encoded (R345). -/
def elementBox (fonts : List Font) (e : VdElement) : Option (Nat × Nat) :=
  match e.type with
  | 4 =>
    let f := fonts.getD (e.param % 8) {}
    let n := e.data.length
    some (n * fontCellW f * e.mw + (n - 1) * (e.param / 256), fontCellH f * e.mh)
  | 1 => (Config.symbolSize 1 e.param e.data).map fun z => ((z.1 + 20) * e.mw, e.param)
  | t =>
    let quiet := if t = 2 then 2 else 8
    (Config.symbolSize t e.param e.data).map fun z => ((z.1 + quiet) * e.mw, (z.2 + quiet) * e.mh)

/-- Whether the module of a code's box at a column and row is set; its quiet zone of z modules is clear (R345). A bar code
has no quiet rows. -/
def moduleInk (e : VdElement) (t z col row : Nat) : Bool :=
  let top := if t = 1 then 0 else z
  match Config.symbolSize t e.param e.data with
  | none => false
  | some m => z ≤ col && col < z + m.1 && top ≤ row && (t == 1 || row < z + m.2) &&
      Config.symbolModule t e.param e.data (col - z) (row - top)

/-- Ink of an element at a dot and line of its unrotated box; false in the quiet zone (R345). -/
def elementInk (fonts : List Font) (e : VdElement) (x y : Nat) : Bool :=
  match e.type with
  | 4 =>
    let f := fonts.getD (e.param % 8) {}
    let adv := fontCellW f * e.mw + e.param / 256
    let cx := x % adv
    cx < fontCellW f * e.mw && glyphDot f (e.data.getD (x / adv) 0).toNat (cx / e.mw) (y / e.mh)
  | 1 => moduleInk e 1 10 (x / e.mw) 0
  | t => let z := if t = 2 then 1 else 4; moduleInk e t z (x / e.mw) (y / e.mh)

/-- The box after rotation (R345). -/
def rotatedBox (e : VdElement) (box : Nat × Nat) : Nat × Nat := if e.rot % 2 = 1 then (box.2, box.1) else box

/-- The unrotated place of a dot of the rotated box, rotation clockwise by `rot` quarters (R345). -/
def unrotate (e : VdElement) (box : Nat × Nat) (x y : Nat) : Nat × Nat :=
  match e.rot with
  | 0 => (x, y)
  | 1 => (y, box.2 - 1 - x)
  | 2 => (box.1 - 1 - x, box.2 - 1 - y)
  | _ => (box.1 - 1 - y, x)

/-- One dot of a window: the last element whose box holds it decides; background clear (R345). -/
def windowDot (fonts : List Font) (i : Item) (x y : Nat) : Bool :=
  i.elements.foldl (fun acc e =>
    match elementBox fonts e with
    | none => acc
    | some box =>
      let rb := rotatedBox e box
      if e.x ≤ x ∧ x < e.x + rb.1 ∧ e.y ≤ y ∧ y < e.y + rb.2 then
        let p := unrotate e box (x - e.x) (y - e.y)
        elementInk fonts e p.1 p.2 != e.invert
      else acc) false

/-- Every element can be encoded and its box lies in the window (R347). -/
def encodable (fonts : List Font) (i : Item) : Bool :=
  i.elements.all fun e => match elementBox fonts e with
    | none => false
    | some box => let rb := rotatedBox e box; e.x + rb.1 ≤ i.winW && e.y + rb.2 ≤ i.winH

/-- The rendered window, row by row (R348). -/
def renderWindow (fonts : List Font) (i : Item) : List (List Bool) :=
  (List.range i.winH).map fun y => (List.range i.winW).map fun x => windowDot fonts i x y

/-! ### Item states (R351) -/

/-- Code of an item state. -/
def ItemState.code : ItemState → Nat
  | .queued => 0 | .rendered => 1 | .fired => 2 | .verified => 3 | .failed => 4 | .indeterminate => 5 | .void => 6

/-- A result record's 32 bytes (vd.results). -/
def VdResult.bytes (r : VdResult) : Bytes :=
  le 8 r.seq ++ le 1 (r.state + 16 * flag r.armed + 32 * flag r.late) ++ le 1 r.cause ++ le 2 r.score ++
    leS 2 r.contrast ++ leS 1 r.dx ++ leS 1 r.dy ++ le 6 r.line ++ timeFields r.time

/-- The present place of Φ in 1/64 web line (R218, R358). -/
def phi64 (s : State) : Int := s.pos.phi32 / 2 ^ 26

/-- The interval of an item's reject (R358), in 1/64 web line. -/
def rejectSpan (i : Item) (q : Nat) : Int × Int :=
  (((i.line * q * 4 + i.rejectCfg.offset : Nat) : Int) - i.rejectCfg.lead,
   (((i.line + i.winH) * q * 4 + i.rejectCfg.offset + i.rejectCfg.lag : Nat) : Int))

/-- What the verdict found, for the result record. -/
structure Verdict where
  score    : Nat := 0
  contrast : Int := 0
  dx       : Int := 0
  dy       : Int := 0
  deriving DecidableEq, Repr

/-- Number of Cairn's counter of a final state. -/
def finalIndex : ItemState → Nat
  | .verified => 0 | .failed => 1 | .indeterminate => 2 | _ => 3

/-- The run of a stream's channel. -/
def streamRun (s : State) (st : VdStream) : Option (BitVec 32) := (channelOf s st.channel).map fun c => c.run

/-- An item reaches a final state (R351): Cairn records and counts it, the result ring takes its record, a reject is
armed where R358 asks for one (R359, R360), and VD_ITEM is written. -/
def finishItem (slot seq : Nat) (fin : ItemState) (cause : Nat) (v : Verdict) (s : State) : State :=
  match s.objs.streams.at? slot with
  | none => s
  | some st =>
    match st.items.find? (fun i => i.seq == seq) with
    | none => s
    | some i =>
      let h := s.objs.streams.handle tyStream slot
      let bar := ((channelOf s st.channel).map fun c => c.bar).getD 0
      let span := rejectSpan i (barQ s bar)
      let wants := i.rejectCfg.enable && (fin == .failed || (fin == .indeterminate && i.rejectCfg.rejectIndet))
      let pos := phi64 s
      let missed := wants && span.2 ≤ pos
      let armed := wants && !missed
      let full := armed && 1024 ≤ st.rejects.length
      let r : VdResult :=
        { seq := seq, state := fin.code, armed := armed, late := missed, cause := cause, score := v.score
          contrast := v.contrast, dx := v.dx, dy := v.dy, line := i.line, time := s.time.field }
      let keep := (st.resultRing ++ [r]).drop (st.resultRing.length + 1 - st.results)
      let st' := { st with
        items := st.items.filter fun j => j.seq != seq
        resultRing := keep
        resultNext := st.resultNext + 1
        verified := st.verified + flag (fin == .verified)
        failed := st.failed + flag (fin == .failed)
        indet := st.indet + flag (fin == .indeterminate)
        voided := st.voided + flag (fin == .void)
        rejects := if armed && !full then
          st.rejects ++ [⟨i.rejectCfg.output, span.1, span.2, span.1 ≤ pos⟩] else st.rejects
        held := if full && !st.held.contains i.rejectCfg.output then st.held ++ [i.rejectCfg.output] else st.held }
      let audit := fun a : RunAudit =>
        { a with verified := a.verified + flag (fin == .verified), failed := a.failed + flag (fin == .failed),
                 indet := a.indet + flag (fin == .indeterminate), void := a.void + flag (fin == .void) }
      let s1 := { s with
        objs := { s.objs with streams := s.objs.streams.put slot st' }
        vd := { s.vd with
          cairn := s.vd.cairn.filter fun e => !(e.1 == st.streamId && e.2.1 == seq)
          finals := modAt s.vd.finals (finalIndex fin) (· + 1) } }
      let s2 := match streamRun s st with
        | some rh => setRun s1 rh fun r => { r with audit := audit r.audit }
        | none => s1
      let s3 := if full && !st.held.contains i.rejectCfg.output then fieldEvent 0x0B04 h [1] s2 else s2
      let s4 := if missed then fieldEvent 0x0B03 h (le 6 seq) s3 else s3
      if fin = .verified ∧ !i.verifyCfg.eventVerified then s4
      else fieldEventAt 0x0B01 h (some i.line) (le 6 seq ++ le 1 fin.code ++ le 1 cause) s4

/-- Several items of a stream reach the same final state, in record order. -/
def finishItems (slot : Nat) (seqs : List Nat) (fin : ItemState) (cause : Nat) (s : State) : State :=
  seqs.foldl (fun s q => finishItem slot q fin cause {} s) s

/-- Items of a stream that meet a test. -/
def itemsWhere (s : State) (slot : Nat) (p : Item → Bool) : List Nat :=
  match s.objs.streams.at? slot with
  | none => []
  | some st => (st.items.filter p).map (·.seq)

/-- One item of a stream changed. -/
def setItem (slot seq : Nat) (f : Item → Item) (s : State) : State :=
  let streams := s.objs.streams.update slot fun st =>
    { st with items := st.items.map fun i => if i.seq = seq then f i else i }
  { s with objs := { s.objs with streams := streams } }

/-- The streams attached to a run's channels, by slot. -/
def runStreams (s : State) (r : Run) : List Nat :=
  (s.objs.streams.live.filter fun e => r.channels.contains e.2.channel).map (·.1)

/-- A run's items when it ends or is aborted (R351, R352): those of which no line was handed become VOID, those that
have fired and have lines beyond `last` lose them. -/
def settleItems (r : Run) (cause : Nat) (firstBlank : Nat) (s : State) : State :=
  (runStreams s r).foldl (fun s slot =>
    let s := finishItems slot (itemsWhere s slot fun i => i.state == .queued || i.state == .rendered) .void cause s
    (itemsWhere s slot fun i => i.state == .fired && firstBlank < i.line + i.winH).foldl
      (fun s q => setItem slot q (fun i => { i with lostLine := true }) s) s) s

/-! ### The `vd` family -/

/-- Demand of budget 19 on an engine (R342). -/
def vdDemand (s : State) (engine : Nat) : Nat :=
  sumOf ((s.objs.streams.live.filter fun e => e.2.engine == engine).map fun e =>
    e.2.itemsPerS * max 62500 e.2.maxWindow)

/-- Extents of a stream's record ring, window store and result ring (R341; each in whole extents, log 36). -/
def vdExtents (ringRecords maxRecord storeBytes results : Nat) : Nat :=
  ceilDiv (ringRecords * maxRecord) extentBytes + ceilDiv storeBytes extentBytes + ceilDiv (results * 32) extentBytes

/-- vd.create (0x0B01, R341, R342, R364). -/
def opVdCreate : OpDef where
  code := 0x0B01
  trained := true
  len b := b.length == 32
  fields m _ :=
    let b := m.payload
    [(u32 b 0 != 0, 0), within (u16 b 4) 1 8000 4, (u16 b 6 % 4 == 0 && 48 ≤ u16 b 6 && u16 b 6 ≤ 512, 6),
     within (u32 b 8) 64 1048576 8, within (u32 b 12) 2 65536 12, within (u32 b 20) 256 65536 20, reserved b 24 8]
  body m s := do
    let b := m.payload
    let ident := u32 b 0
    let win := u32 b 8
    require (!(s.objs.streams.live.any fun e => e.2.streamId == ident) &&
      !(s.vd.recovery.any fun e => e.1 == ident)) (plainErr stState)
    require (!s.objs.streams.free.isEmpty) (plainErr stNoSpace)
    let add := u16 b 4 * max 62500 win
    let d0 := vdDemand s 0 + add
    let d1 := vdDemand s 1 + add
    let eng := if s.vd.fault.getD 0 false then 1 else if s.vd.fault.getD 1 false then 0 else if d1 < d0 then 1 else 0
    admitAll [⟨8, 5, 0, 4, u32 b 16, 2 * win, false⟩, ⟨19, 0, eng, 3, 500000000, if eng = 0 then d0 else d1, false⟩]
    let n := vdExtents (u32 b 12) (u16 b 6) (u32 b 16) (u32 b 20)
    let (ext, s1) ← orErr (takeExtents n s) (plainErr stNoSpace)
    let st : VdStream :=
      { streamId := ident, itemsPerS := u16 b 4, maxRecord := u16 b 6, maxWindow := win, ringRecords := u32 b 12
        storeBytes := u32 b 16, results := u32 b 20, extents := ext, engine := eng }
    let (i, t) ← orErr (s1.objs.streams.create st) (plainErr stNoSpace)
    .ok { state := { s1 with objs := { s1.objs with streams := t } }, handle := some (t.handle tyStream i)
          payload := le 8 (n * extentBytes) }

/-- vd.destroy (0x0B02, R76, R364). -/
def opVdDestroy : OpDef where
  code := 0x0B02
  trained := true
  types := [tyStream]
  len b := b.length == 0
  body m s := do
    let st ← orErr (streamOf s m.handle) (plainErr stNoHandle)
    require (st.channel == 0) (plainErr stState)
    okState (giveExtents st.extents { s with objs := { s.objs with streams := s.objs.streams.release (hIdx m.handle) } })

/-- vd.attach (0x0B03, R341, R364). -/
def opVdAttach : OpDef where
  code := 0x0B03
  trained := true
  types := [tyStream]
  len b := b.length == 4
  named m := [⟨[tyChannel], w32 m.payload 0, 16⟩]
  body m s := do
    let st ← orErr (streamOf s m.handle) (plainErr stNoHandle)
    let ch := w32 m.payload 0
    let c ← orErr (channelOf s ch) (plainErr stNoHandle)
    require (st.channel == 0 && c.stream == 0) (plainErr stState)
    okState (setChannel (setStream s m.handle fun st => { st with channel := ch }) ch fun c => { c with stream := m.handle })

/-- vd.detach (0x0B04, R364). -/
def opVdDetach : OpDef where
  code := 0x0B04
  trained := true
  types := [tyStream]
  len b := b.length == 0
  body m s := do
    let st ← orErr (streamOf s m.handle) (plainErr stNoHandle)
    require (!(st.items.any fun i => i.state == .rendered || i.state == .fired)) (plainErr stState)
    let slot := hIdx m.handle
    let s1 := finishItems slot (itemsWhere s slot fun i => i.state == .queued) .void 5 s
    okState (setStream (setChannel s1 st.channel fun c => { c with stream := 0 }) m.handle fun st => { st with channel := 0 })

/-- Free slots of a stream's record ring. -/
def ringFree (st : VdStream) : Nat := st.ringRecords - st.items.length

/-- vd.push (0x0B05, R344, R347). -/
def opVdPush : OpDef where
  code := 0x0B05
  trained := true
  types := [tyStream]
  len b := 4 ≤ b.length && (walkRecords b (u16 b 0) 4).2 == b.length
  fields m s := [within (u16 m.payload 0) 1 84 0, reserved m.payload 2 2] ++ match streamOf s m.handle with
    | none => []
    | some st => pushFields s st (channelOf s st.channel) m.payload (walkRecords m.payload (u16 m.payload 0) 4).1 st.lastSeq
        st.lastLine
  body m s := do
    let st ← orErr (streamOf s m.handle) (plainErr stNoHandle)
    let offs := (walkRecords m.payload (u16 m.payload 0) 4).1
    require (st.channel != 0) (plainErr stState)
    require (offs.length ≤ ringFree st) (plainErr stNoSpace)
    let items := offs.map (parseRecord m.payload)
    let s1 := setStream s m.handle fun st => { st with
      items := st.items ++ items
      lastSeq := (items.getLast?.map (·.seq)).orElse fun _ => st.lastSeq
      lastLine := (items.getLast?.map (·.line)).getD st.lastLine }
    okBytes s1 (le 4 (ringFree st - offs.length))

/-- vd.verify_config (0x0B06). -/
def opVdVerifyConfig : OpDef where
  code := 0x0B06
  trained := true
  types := [tyStream]
  len b := b.length == 24
  fields m _ :=
    let b := m.payload
    [within (byteAt b 0) 0 1 0, within (byteAt b 1) 0 3 1, within (byteAt b 2) 0 8 2, below (byteAt b 3) 2 3,
     within (u16 b 12) 0 4096 12, within (u16 b 14) 0 4095 14, within (u16 b 16) 100 60000 16, reserved b 18 6]
  body m s :=
    let b := m.payload
    okState (setStream s m.handle fun st => { st with verifyCfg :=
      { on := true, face := byteAt b 0, channelC := byteAt b 1, search := byteAt b 2, mirrored := bit (byteAt b 3) 0
        eventVerified := bit (byteAt b 3) 1, x0 := s32 b 4, colPitch := u32 b 8, passScore := u16 b 12
        minContrast := u16 b 14, timeoutMs := u16 b 16 } })

/-- vd.reject_config (0x0B07). -/
def opVdRejectConfig : OpDef where
  code := 0x0B07
  trained := true
  types := [tyStream]
  len b := b.length == 24
  fields m _ :=
    let b := m.payload
    [within (byteAt b 0) 0 3 0, below (byteAt b 1) 2 1, reserved b 2 2, reserved b 20 4]
  body m s :=
    let b := m.payload
    okState (setStream s m.handle fun st => { st with rejectCfg :=
      { enable := bit (byteAt b 1) 0, rejectIndet := bit (byteAt b 1) 1, output := byteAt b 0, offset := u64 b 4
        lead := u32 b 12, lag := u32 b 16 } })

/-- vd.cancel (0x0B0C, R350, R351): urgent-capable. -/
def opVdCancel : OpDef where
  code := 0x0B0C
  urgent := true
  trained := true
  types := [tyStream]
  len b := b.length == 8
  body m s :=
    let slot := hIdx m.handle
    let l := itemsWhere s slot fun i =>
      i.seq ≤ u64 m.payload 0 && i.decided.isNone && (i.state == .queued || i.state == .rendered)
    okBytes (finishItems slot l .void 4 s) (le 4 l.length)

/-- vd.results (0x0B08). -/
def opVdResults : OpDef where
  code := 0x0B08
  trained := true
  types := [tyStream]
  len b := b.length == 8
  fields m _ := [within (u16 m.payload 4) 1 127 4, reserved m.payload 6 2]
  body m s := do
    let st ← orErr (streamOf s m.handle) (plainErr stNoHandle)
    let oldest := st.resultNext - st.resultRing.length
    let i := u32 m.payload 0
    -- the 32-bit index runs free: how far it lies ahead of the oldest record held
    let ahead := (i + 2 ^ 32 - oldest % 2 ^ 32) % 2 ^ 32
    let first := if i = 0xFFFFFFFF then oldest else oldest + ahead
    require (i == 0xFFFFFFFF || ahead < 2 ^ 31) (plainErr stStale)
    okBytes s (le 4 first ++ ((st.resultRing.drop (first - oldest)).take (u16 m.payload 4)).flatMap VdResult.bytes)

/-- vd.query (0x0B09). -/
def opVdQuery : OpDef where
  code := 0x0B09
  trained := true
  types := [tyStream]
  len b := b.length == 0
  body m s := do
    let st ← orErr (streamOf s m.handle) (plainErr stNoHandle)
    let n := fun k : ItemState => (st.items.filter fun i => i.state == k).length
    okBytes s (leB 4 st.channel ++ le 1 st.engine ++ le 1 (flag (st.channel != 0) + 2 * flag (!st.held.isEmpty)) ++ zeros 2 ++
      le 4 (n .queued) ++ le 4 (n .rendered) ++ le 4 (n .fired) ++ le 4 (ringFree st) ++ le 8 st.verified ++
      le 8 st.failed ++ le 8 st.indet ++ le 8 st.voided ++ le 8 st.resultNext)

/-- vd.recovery (0x0B0A, R361). -/
def opVdRecovery : OpDef where
  code := 0x0B0A
  trained := true
  len b := b.length == 12
  fields m _ := [within (byteAt m.payload 8) 0 1 8, reserved m.payload 9 3]
  body m s := do
    let ident := u32 m.payload 0
    let e ← orErr (s.vd.recovery.find? fun e => e.1 == ident) (plainErr stNoHandle)
    let part := (e.2.drop (u32 m.payload 4)).take 254
    let s1 := if byteAt m.payload 8 = 1 then
        { s with vd := { s.vd with recovery := s.vd.recovery.filter fun e => e.1 != ident } } else s
    okBytes s1 (le 4 e.2.length ++ part.flatMap fun i => le 8 i.1 ++ le 6 i.2.1 ++ le 1 i.2.2 ++ zeros 1)

/-- A queued or rendered record names a font (R366). -/
def fontInUse (s : State) (n : Nat) : Bool :=
  s.objs.streams.live.any fun e => e.2.items.any fun i =>
    (i.state == .queued || i.state == .rendered) && i.elements.any fun x => x.type == 4 && x.param % 8 == n

/-- vd.font_write (0x0B0B, R346, R366). A write makes the font unusable until a last part passes the check; a last part
that fails is answered with BADARG and leaves it so. -/
def opVdFontWrite : OpDef where
  code := 0x0B0B
  trained := true
  len b := 8 ≤ b.length
  fields m _ :=
    let b := m.payload
    [within (byteAt b 0) 0 7 0, below (byteAt b 1) 1 1, reserved b 2 2, (u32 b 4 + (b.length - 8) ≤ 114704, 4)]
  body m s := do
    let b := m.payload
    let n := byteAt b 0
    require (!fontInUse s n) (plainErr stState)
    let off := u32 b 4
    let d := b.drop 8
    let old := (s.vd.fonts.getD n {}).bytes
    let bytes := fit off old ++ d ++ old.drop (off + d.length)
    let isLast := bit (byteAt b 1) 0
    let f : Font := if isLast then ⟨bytes.take (off + d.length), false⟩ else ⟨bytes, false⟩
    let put := fun f : Font => { s with vd := { s.vd with fonts := setAt s.vd.fonts n f } }
    if isLast then
      if fontOk f then okState (put { f with usable := true })
      else .ok { state := put f, status := stBadArg, payload := le 4 24 }
    else okState (put f)

def execVdCreate (m : Msg) (s : State) : Out := .next (message opVdCreate m s)
def execVdDestroy (m : Msg) (s : State) : Out := .next (message opVdDestroy m s)
def execVdAttach (m : Msg) (s : State) : Out := .next (message opVdAttach m s)
def execVdDetach (m : Msg) (s : State) : Out := .next (message opVdDetach m s)
def execVdPush (m : Msg) (s : State) : Out := .next (message opVdPush m s)
def execVdVerifyConfig (m : Msg) (s : State) : Out := .next (message opVdVerifyConfig m s)
def execVdRejectConfig (m : Msg) (s : State) : Out := .next (message opVdRejectConfig m s)
def execVdCancel (m : Msg) (s : State) : Out := .next (message opVdCancel m s)
def execVdResults (m : Msg) (s : State) : Out := .next (message opVdResults m s)
def execVdQuery (m : Msg) (s : State) : Out := .next (message opVdQuery m s)
def execVdRecovery (m : Msg) (s : State) : Out := .next (message opVdRecovery m s)
def execVdFontWrite (m : Msg) (s : State) : Out := .next (message opVdFontWrite m s)

/-! ### Steps of the engines -/

/-- The bench has fetched the last line of an item's window: its store space is free (R350). -/
def windowFetched (s : State) (st : VdStream) (i : Item) : Bool :=
  match channelOf s st.channel with
  | none => false
  | some c => match (barAt s c.bar).nextOut, (barAt s c.bar).table with
    | some n, some t => i.line + i.winH ≤ n + skewMin t (barQ s c.bar)
    | _, _ => false

/-- An item can be rendered now: first queued and undecided, the host side present (R31), Cairn's table and the window
store have room (R349), an engine works (R363). -/
def renderable (s : State) (st : VdStream) : Option Item :=
  if s.saddle.hostLost ∨ 32768 ≤ s.vd.cairn.length ∨ s.vd.fault = [true, true] then none else
  match st.items.find? (fun i => i.state == .queued && i.decided.isNone) with
  | none => none
  | some i =>
    let used := sumOf ((st.items.filter fun j => !j.bitmap.isEmpty && !windowFetched s st j).map fun j => windowBytes j.winW j.winH)
    if used + windowBytes i.winW i.winH ≤ st.storeBytes then some i else none

/-- ITEM_RENDERED (R345, R348, R349). -/
def execItemRendered (slot : Fin 16) (s : State) : Out :=
  .next (match s.objs.streams.at? slot.val with
    | none => s
    | some st => match renderable s st with
      | none => s
      | some i =>
        if encodable s.vd.fonts i then
          let s := setItem slot.val i.seq (fun i => { i with state := .rendered, bitmap := renderWindow s.vd.fonts i }) s
          { s with vd := { s.vd with cairn := s.vd.cairn ++ [(st.streamId, i.seq, i.line, 1)] } }
        else s)

/-- ITEM_CONTENT_VOID (R347): the next item to be rendered cannot be encoded or placed. -/
def execItemContentVoid (slot : Fin 16) (s : State) : Out :=
  .next (match s.objs.streams.at? slot.val with
    | none => s
    | some st => match renderable s st with
      | none => s
      | some i => if encodable s.vd.fonts i then s else finishItem slot.val i.seq .void 6 {} s)

/-- The last line of an item's window has fired, or no run of its channel is there to fire it (R352). -/
def lastLinePassed (s : State) (st : VdStream) (i : Item) : Bool :=
  match channelOf s st.channel with
  | none => true
  | some c => match (barAt s c.bar).nextFire with
    | none => true
    | some n => lastFireLine s c.bar (i.line + i.winH - 1) < (n : Int)

/-- ITEM_LAST_LINE (R351, R352): the last of a fired item's lines has fired or has been lost. -/
def execItemLastLine (slot : Fin 16) (seq : BitVec 64) (s : State) : Out :=
  .next (match s.objs.streams.at? slot.val with
    | none => s
    | some st => match st.items.find? (fun i => i.seq == seq.toNat) with
      | none => s
      | some i =>
        if i.state = .fired ∧ i.lastAt = none ∧ lastLinePassed s st i then
          if i.lostLine then finishItem slot.val i.seq .failed 2 {} s
          else if !(i.verify && i.verifyCfg.on) then finishItem slot.val i.seq .indeterminate 0 {} s
          else setItem slot.val i.seq (fun i => { i with lastAt := some s.time.clock }) s
        else s)

/-- Web lines that output line k of a face covers: camera lines 2k and 2k + 1 (R279, R354), from the trigger log. -/
def outputWeb (f : Face) (k : Nat) : Option (Nat × Nat) :=
  match f.trigLog.find? (fun e => e.1 == 2 * k), f.trigLog.find? (fun e => e.1 == 2 * k + 1) with
  | some a, some b => some (a.2.1, b.2.1)
  | _, _ => none

/-- The camera set of a face. -/
def faceCamset (s : State) (face : Nat) : Option CamSet :=
  match (s.vision.faces.getD face {}).active with
  | none => none
  | some i => s.objs.camsets.at? i

/-- The device line of a bar's pitch that the camera images at a trigger position (R279, R354). -/
def imagedDevice (cam : CamSet) (q pos : Nat) : Int := ((pos : Int) - cam.camOffset) * 16 / (64 * q : Nat)

/-- The device lines that an output line of a face covers, first and last, for a bar's pitch (R354): from where its first
camera line lies up to where the line after its second would. -/
def outputLines (cam : CamSet) (q : Nat) (w : Nat × Nat) : Int × Int :=
  (imagedDevice cam q w.1, imagedDevice cam q (w.2 + cam.camPitch) - 1)

/-- The bar dots that output column u covers (R311, R354), in 1/65,536 dot: x0 is in 1/256 dot. -/
def columnDots (x0 : Int) (pitch u : Nat) (mirrored : Bool) : Int × Int :=
  if mirrored then (x0 * 256 - ((u + 1) * pitch : Nat), x0 * 256 - (u * pitch : Nat))
  else (x0 * 256 + (u * pitch : Nat), x0 * 256 + ((u + 1) * pitch : Nat))

/-- Prediction of one output pixel (R354): none where its footprint does not lie wholly inside the window. -/
def predict (i : Item) (dots lines : Int × Int) : Option Int :=
  let x0 := dots.1 / 65536
  let x1 := -(-dots.2 / 65536)
  if (i.dotX : Int) ≤ x0 ∧ x1 ≤ (i.dotX + i.winW : Nat) ∧ (i.line : Int) ≤ lines.1 ∧ lines.2 < (i.line + i.winH : Nat) ∧
      x0 < x1 ∧ lines.1 ≤ lines.2 then
    let xs := List.range (x1 - x0).toNat
    let ys := List.range (lines.2 + 1 - lines.1).toNat
    let set := sumOf (ys.flatMap fun y => xs.map fun x =>
      flag ((i.bitmap.getD ((lines.1 - i.line).toNat + y) []).getD ((x0 - i.dotX).toNat + x) false))
    some ((4096 * set / (xs.length * ys.length) : Nat) : Int)
  else none

/-- The measured value of a face column on an output line, channel c (R354). -/
def measure (i : Item) (f : Face) (c k u : Nat) : Option Int :=
  match f.outLog.find? (fun e => e.1 == k) with
  | none => none
  | some e =>
    let o := ((e.2.getD u []).getD c 0 : Int)
    some (if i.mode = 1 then o else 4095 - o)

/-- The output pixels of an item: column, output line and prediction. -/
def itemPixels (i : Item) (cam : CamSet) (f : Face) (q : Nat) : List (Nat × Nat × Int) :=
  f.outLog.flatMap fun e =>
    match outputWeb f e.1 with
    | none => []
    | some w =>
      let l := outputLines cam q w
      (List.range e.2.length).filterMap fun u =>
        (predict i (columnDots i.verifyCfg.x0 i.verifyCfg.colPitch u i.verifyCfg.mirrored) l).map fun p => (u, e.1, p)

/-- Score and contrast of an item at one shift (R355). -/
def shiftScore (i : Item) (f : Face) (px : List (Nat × Nat × Int)) (dx dy : Int) : Int × Option Int :=
  let pairs := px.filterMap fun p =>
    let u := (p.1 : Int) + dx
    let k := (p.2.1 : Int) + dy
    if u < 0 ∨ k < 0 then none
    else (measure i f i.verifyCfg.channelC k.toNat u.toNat).map fun m => (p.2.2, m)
  let hi := (pairs.filter fun p => 3072 ≤ p.1).map (·.2)
  let lo := (pairs.filter fun p => p.1 ≤ 1024).map (·.2)
  (clampInt 0 4096 (Config.ncc (pairs.map (·.1)) (pairs.map (·.2))),
   if hi.isEmpty ∨ lo.isEmpty then none else some (sumInt hi / hi.length - sumInt lo / lo.length))

/-- Every shift of a search, nearest first (R355). -/
def shifts (n : Nat) : List (Int × Int) :=
  let r : List Int := (List.range (2 * n + 1)).map fun k : Nat => (k : Int) - n
  sortBy (fun p => p.1.natAbs + p.2.natAbs) (r.flatMap fun y => r.map fun x => (x, y))

/-- The best shift: the largest score, the nearest shift where scores are equal. -/
def bestShift (i : Item) (f : Face) (px : List (Nat × Nat × Int)) : Int × Option Int × Int × Int :=
  (shifts i.verifyCfg.search).foldl (fun best d =>
    let r := shiftScore i f px d.1 d.2
    if best.1 < r.1 then (r.1, r.2, d.1, d.2) else best) (-1, none, 0, 0)

/-- Camera lines of an item's footprint that are missing (R283) or were skipped (R280). -/
def footprintMissing (i : Item) (cam : CamSet) (f : Face) (q : Nat) : Bool :=
  let within := fun (pos : Nat) =>
    let l := imagedDevice cam q pos
    (i.line : Int) ≤ l && l < (i.line + i.winH : Nat)
  f.skips.any within || f.trigLog.any fun e => within e.2.1 && !(f.outLog.any fun o => o.1 == e.1 / 2)

/-- The footprint of an item has passed the camera: a camera line beyond its last line has been output. -/
def footprintDone (i : Item) (cam : CamSet) (f : Face) (q : Nat) : Bool :=
  f.outLog.any fun o => match outputWeb f o.1 with
    | none => false
    | some w => ((i.line + i.winH : Nat) : Int) ≤ imagedDevice cam q w.1

/-- Items whose footprint has passed the camera and that wait for the correlator (R356 cause 3). -/
def correlatorQueue (s : State) : Nat :=
  sumOf (s.objs.streams.live.map fun e => (e.2.items.filter fun i =>
    i.state == .fired && i.verify && i.lastAt.isSome &&
      match faceCamset s i.verifyCfg.face with
      | none => false
      | some cam => footprintDone i cam (s.vision.faces.getD i.verifyCfg.face {})
          (barQ s (((channelOf s e.2.channel).map fun c => c.bar).getD 0))).length)

/-- ITEM_VERDICT (R354 to R356). -/
def execItemVerdict (slot : Fin 16) (seq : BitVec 64) (s : State) : Out :=
  .next (match s.objs.streams.at? slot.val with
    | none => s
    | some st => match st.items.find? (fun i => i.seq == seq.toNat) with
      | none => s
      | some i =>
        if !(i.state = .fired ∧ i.verify ∧ i.lastAt.isSome) then s else
        match faceCamset s i.verifyCfg.face with
        | none => finishItem slot.val i.seq .indeterminate 2 {} s
        | some cam =>
          let f := s.vision.faces.getD i.verifyCfg.face {}
          let q := barQ s (((channelOf s st.channel).map fun c => c.bar).getD 0)
          if s.vision.fault.any id then finishItem slot.val i.seq .indeterminate 2 {} s
          else if !footprintDone i cam f q then s
          else if 256 < correlatorQueue s then finishItem slot.val i.seq .indeterminate 3 {} s
          else if footprintMissing i cam f q then finishItem slot.val i.seq .indeterminate 1 {} s
          else
            let r := bestShift i f (itemPixels i cam f q)
            let v : Verdict := { score := r.1.toNat, contrast := r.2.1.getD 0, dx := r.2.2.1, dy := r.2.2.2 }
            if r.1 < i.verifyCfg.passScore then finishItem slot.val i.seq .failed 1 v s
            else if r.2.1.any fun c : Int => c < (i.verifyCfg.minContrast : Int) then finishItem slot.val i.seq .failed 3 v s
            else finishItem slot.val i.seq .verified 0 v s)

/-- VERIFY_TIMEOUT (R356 cause 4). -/
def execVerifyTimeout (slot : Fin 16) (seq : BitVec 64) (s : State) : Out :=
  .next (match s.objs.streams.at? slot.val with
    | none => s
    | some st => match st.items.find? (fun i => i.seq == seq.toNat) with
      | none => s
      | some i => match i.state, i.lastAt with
        | .fired, some t =>
          if t + i.verifyCfg.timeoutMs * 1000000 ≤ s.time.clock then finishItem slot.val i.seq .indeterminate 4 {} s else s
        | _, _ => s)

/-- The armed rejects of a stream changed. -/
def setRejects (slot : Nat) (f : List Reject → List Reject) (s : State) : State :=
  let streams := s.objs.streams.update slot fun st => { st with rejects := f st.rejects }
  { s with objs := { s.objs with streams := streams } }

/-- REJECT_START (R358): every armed reject whose interval Φ has reached drives its output. -/
def execRejectStart (slot : Fin 16) (s : State) : Out :=
  .next (setRejects slot.val (fun l => l.map fun r => if r.start ≤ phi64 s then { r with driving := true } else r) s)

/-- REJECT_END (R358): every armed reject whose interval Φ has passed is done. -/
def execRejectEnd (slot : Fin 16) (s : State) : Out :=
  .next (setRejects slot.val (fun l => l.filter fun r => phi64 s < r.stop) s)

/-- Level of a field pulse output (R221, R358, R360): high while a pulse of a compare or of a time trigger, an armed reject
in its interval, or a reject beyond 1,024 drives it. -/
def fieldOutput (s : State) (out : Nat) : Bool :=
  !(s.pos.pulses.getD out []).isEmpty ||
    s.objs.streams.live.any fun e => e.2.held.contains out || e.2.rejects.any fun r => r.output == out && r.driving

/-- REJECT_OVERFLOW (R360): an output held by rejects beyond 1,024 is released once fewer are armed; the hold itself
comes about where the reject is armed (`finishItem`). -/
def execRejectOverflow (slot : Fin 16) (s : State) : Out :=
  .next (match s.objs.streams.at? slot.val with
    | none => s
    | some st =>
      if st.rejects.length < 1024 then
        let streams := s.objs.streams.put slot.val { st with held := [] }
        st.held.foldl (fun s _ => fieldEvent 0x0B04 (s.objs.streams.handle tyStream slot.val) [0] s)
          { s with objs := { s.objs with streams := streams } }
      else s)

/-- A variable-data engine declared faulty (R363): its streams move to the other engine. -/
def vdEngineFault (engine cause : Nat) (s : State) : State :=
  let moved := if s.vd.fault.getD (1 - engine) false then 0
    else (s.objs.streams.live.filter fun e => e.2.engine == engine).length
  let streams := s.objs.streams.mapLive fun st =>
    if st.engine = engine ∧ !(s.vd.fault.getD (1 - engine) false) then { st with engine := 1 - engine } else st
  let s1 := { s with
    vd := { s.vd with fault := setAt s.vd.fault engine true }
    objs := { s.objs with streams := streams } }
  fieldEvent 0x0B05 0 (le 1 engine ++ le 1 cause ++ le 1 moved) s1

/-- VD_FAULT (R363): causes 1 SRAM uncorrectable, 2 datapath parity, 3 test failed. -/
def execVdFault (engine : Fin 2) (cause : Fin 3) (s : State) : Out :=
  .next (vdEngineFault engine.val (cause.val + 1) s)

end Sys2Proof.Machine
end

