-- ==== Sys2Proof/Machine/Bench.lean ====
section
/-! DEFINITION. Bench tables (05): their entries and defaults, staging by owner (R145), commits at device lines with the
on-time and spacing rules (R146, R147), switches at once (R148), and the `bench` family's table messages. -/

namespace Sys2Proof.Machine

/-! ### Entries -/

/-- Entry of the nozzle table that nothing has written (R133). -/
def nozDefault : BitVec 32 := 0x00008000

/-- Substitution class that nothing has written: order 1, side 0, bump 1 (R137). -/
def substDefault : BitVec 32 := 0x21

/-- One entry of a version of the nozzle table. -/
def nozEntry (v : SMap (BitVec 32)) (i : Nat) : BitVec 32 := smGet v nozDefault i

/-- Gain, offset, class and state bits of an entry (R131). -/
def nozGain (e : BitVec 32) : Nat := e.toNat % 65536
def nozOffset (e : BitVec 32) : Int := toSigned 8 (field e.toNat 23 16)
def nozClass (e : BitVec 32) : Nat := field e.toNat 27 24
def nozMarked (e : BitVec 32) : Bool := e.getLsbD 28 || e.getLsbD 29 || e.getLsbD 30
def nozWeak (e : BitVec 32) : Bool := e.getLsbD 31

/-- Lmax of a channel. -/
def lmaxOf (dropBits : Nat) : Nat := if dropBits = 2 then 3 else 7

/-- Bytes of a screen cell (R136). -/
def cellBytes (dropBits : Nat) : Nat := if dropBits = 2 then 8 else 16

/-- The identity drop map (R144). -/
def identityMap (dropBits : Nat) : BitVec 32 :=
  BitVec.ofNat 32 (sumOf ((List.range (lmaxOf dropBits + 1)).map fun k => k * 16 ^ k))

/-- The ROM screen of a new channel (R135). -/
def romScreenOf (bar : Nat) : Screen := ⟨false, 8, 8, 73 * bar % 256, 151 * bar % 256, []⟩

/-- Threshold k of a cell of a ROM screen: open but for R134's bounds, 1 to 4,095 and non-decreasing over k (R575). -/
def romThreshold (dropBits k x y : Nat) : Nat :=
  maxOf ((List.range (k + 1)).map fun j => max 1 (Config.romScreen dropBits j x y).toNat)

/-- The ROM stitch mask: open, but each value 0 to 255 stands in it exactly 16 times (R140, R575): a sixteenth of the
cell's rank among the 4,096 cells by their keys. -/
def stitchMaskAt (row col : Nat) : Nat :=
  let i := 64 * row + col
  let key := Config.stitchKey i
  let before := fun (j : Nat) => Config.stitchKey j < key || (Config.stitchKey j == key && j < i)
  ((List.range 4096).filter before).length / 16

/-- Threshold k (0 to Lmax − 1) of a cell of a screen: column, row (R134, R136, R575). -/
def screenCell (v : Screen) (dropBits k x y : Nat) : Nat :=
  if v.custom then (smGet v.cells [] (y * 2 ^ v.log2w + x)).getD k 4095
  else romThreshold dropBits k x y

/-- Ramp entry of an overlap at a position (R140, R141). -/
def rampEntry (t : Option BarTable) (v : SMap Nat) (o i : Nat) : Nat :=
  match smFind v (256 * o + i) with
  | some p => p
  | none => match t with
    | none => 0
    | some t => defaultRamp (overlapWidth t o) i

/-- The bar dot that a bar nozzle index prints; none for an index without a nozzle (R163). -/
def nozzleDot (t : BarTable) (idx : Nat) : Option Nat :=
  (presentSlots t).findSome? fun e => e.2.rows.findSome? fun w =>
    let base := e.2.nozzleBase + w.nozzleFirst
    if base ≤ idx ∧ idx < base + w.nozzleCount then some (e.2.dotStart + rowDot w (idx - base)) else none

/-- A nozzle's dot lies in a channel's span. -/
def nozzleIn (s : State) (c : Channel) (idx : Nat) : Bool :=
  match (barAt s c.bar).table with
  | none => false
  | some t => (nozzleDot t idx).any fun x => c.dotStart ≤ x && x < c.dotStart + c.dotWidth

/-- A CALSET owns the gains of its span (R306, R307). -/
def calOwns (q : CalSet) : Bool := q.mode == .holding || q.mode == .correct

/-- The colour loop holds gain and offset of a nozzle (R307). -/
def loopHolds (s : State) (bar idx : Nat) : Bool :=
  s.objs.calsets.live.any fun e => calOwns e.2 &&
    (channelOf s e.2.channel).any fun c => c.bar == bar && nozzleIn s c idx

/-! ### Serve data (R181, R256) -/

/-- Bytes of a serve item: the slot and row records of a bar table with its width, the stitch mask, the ramps, the
nozzle state. -/
def serveBytes (s : State) (b item : Nat) : Nat :=
  match item with
  | 0 => match (barAt s b).table with
    | none => 0
    | some t => 32 + sumOf ((presentSlots t).map fun e => 16 + 16 * e.2.rows.length)
  | 1 => 4096
  | 2 => 15872
  | _ => 32768

/-- A serve data change with its switch line queued for a bar driver that is up (R181); it carries an item as it stands for
device line `at_`. A driver that is not up gets the state when it is (`sendServe`). -/
def pushServeAt (b item line at_ : Nat) (s : State) : State :=
  if (barAt s b).driver = 1 then
    let total := serveBytes s b item
    setBar s b fun bar => { bar with
      serve := bar.serve ++ [⟨item, bar.serveNo, line, at_, 0, total⟩]
      serveNo := (bar.serveNo + 1) % 256 }
  else s

/-- A change for its own line; line 0: in force at once. -/
def pushServe (b item line : Nat) (s : State) : State :=
  pushServeAt b item line (if line = 0 then (barPos s b).toNat else line) s

/-! ### Staging and switching -/

/-- Edits of a sparse table of words applied to a version of it (R145). -/
def applyEdits (v : SMap (BitVec 32)) (e : SMap Edit) : SMap (BitVec 32) :=
  e.foldl (fun v d => smSet v d.1 ((nozEntry v d.1 &&& ~~~d.2.mask) ||| (d.2.value &&& d.2.mask))) v

/-- Entries written over a version of a sparse table. -/
def overlay {α : Type} (v e : SMap α) : SMap α := e.foldl (fun v d => smSet v d.1 d.2) v

/-- Edits merged into those already staged by the same owner. -/
def mergeEdit (l : SMap Edit) (i : Nat) (d : Edit) : SMap Edit :=
  let old := smGet l ⟨0, 0⟩ i
  smSet l i ⟨old.mask ||| d.mask, (old.value &&& ~~~d.mask) ||| (d.value &&& d.mask)⟩

/-- Fields of nozzle entries staged by an owner (R145); an edit of no field stages nothing. -/
def stageNozzles (b owner : Nat) (l : List (Nat × Edit)) (s : State) : State :=
  setBar s b fun bar => { bar with
    nozzleEdits := modAt bar.nozzleEdits owner fun e =>
      (l.filter fun d => d.2.mask != 0).foldl (fun e d => mergeEdit e d.1 d.2) e }

/-- Whether an owner has something staged in table k of a bar or of a channel (R145). -/
def hasStaged (s : State) (b : Nat) (h : BitVec 32) (owner k : Nat) : Bool :=
  let bar := barAt s b
  match k with
  | 0 => (channelOf s h).any fun c => !c.toneStaged.isEmpty
  | 1 => (channelOf s h).any fun c => c.screenStaged.isSome
  | 2 => (channelOf s h).any fun c => c.dropmapStaged.isSome
  | 3 => !(bar.nozzleEdits.getD owner []).isEmpty
  | 4 => !bar.substEdits.isEmpty
  | _ => !bar.rampEdits.isEmpty

/-- Lines of the armed switches of table k. -/
def armedLines (s : State) (b : Nat) (h : BitVec 32) (k : Nat) : List Nat :=
  let bar := barAt s b
  let c := channelOf s h
  match k with
  | 0 => (c.map fun c => c.tone.armed.map (·.line)).getD []
  | 1 => (c.map fun c => c.screen.armed.map (·.line)).getD []
  | 2 => (c.map fun c => c.dropmap.armed.map (·.line)).getD []
  | 3 => bar.nozzles.armed.map (·.line)
  | 4 => bar.subst.armed.map (·.line)
  | _ => bar.ramps.armed.map (·.line)

/-- An owner's staged fields of table k made a new version, at once or armed for a line (R145 to R148). -/
def enterTable (b : Nat) (h : BitVec 32) (owner k : Nat) (line : Option Nat) (s : State) : State :=
  match k with
  | 0 => setChannel s h fun c =>
    { c with tone := c.tone.enter line (overlay c.tone.newest c.toneStaged), toneStaged := [] }
  | 1 => setChannel s h fun c =>
    { c with screen := c.screen.enter line (c.screenStaged.getD c.screen.newest), screenStaged := none }
  | 2 => setChannel s h fun c =>
    { c with dropmap := c.dropmap.enter line (c.dropmapStaged.getD c.dropmap.newest), dropmapStaged := none }
  | 3 => setBar s b fun bar =>
    { bar with
      nozzles := bar.nozzles.enter line (applyEdits bar.nozzles.newest (bar.nozzleEdits.getD owner []))
      nozzleEdits := setAt bar.nozzleEdits owner [] }
  | 4 => setBar s b fun bar =>
    { bar with subst := bar.subst.enter line (overlay bar.subst.newest bar.substEdits), substEdits := [] }
  | _ => setBar s b fun bar =>
    { bar with ramps := bar.ramps.enter line (overlay bar.ramps.newest bar.rampEdits), rampEdits := [] }

/-- Nozzles whose entries an owner's staged fields change, and whether a state bit of one of them changes. -/
def changedNozzles (s : State) (b owner : Nat) : List Nat × Bool :=
  let bar := barAt s b
  let old := bar.nozzles.newest
  let new := applyEdits old (bar.nozzleEdits.getD owner [])
  let idx := ((bar.nozzleEdits.getD owner []).map (·.1)).filter fun i => nozEntry old i != nozEntry new i
  (idx, idx.any fun i => (nozEntry old i ^^^ nozEntry new i) &&& 0xF0000000 != 0)

/-- A device line of a bar at which its print changes for a reason other than the plate (R312). -/
def disturb (b line : Nat) (s : State) : State :=
  setBar s b fun bar => { bar with disturbed := (line :: bar.disturbed).take 4096 }

/-- TABLE_SWITCHED for a switch, in force from a line or at once, with the counts of R335. -/
def emitSwitch (b : Nat) (w : Switch) (line : Option Nat) (s : State) : State :=
  let now := s.time.field
  let touched := fun (h : BitVec 32) (c : Channel) =>
    c.bar == b && ((h == w.source && (bit w.mask 0 || bit w.mask 2)) || w.nozzles.any (nozzleIn s c))
  let live := s.objs.channels.live.map fun e =>
    if touched (s.objs.channels.handle tyChannel e.1) e.2 then
      (e.1, { e.2 with calCount := (e.2.calCount + 1) % 2 ^ 32, calTime := now })
    else e
  fieldEventAt 0x0501 w.source line
    (le 1 w.mask ++ le 1 b ++ le 1 w.owner ++ zeros 1 ++ leB 4 w.seq)
    (disturb b (line.getD (barPos s b).toNat)
      { s with objs := { s.objs with channels := { s.objs.channels with live := live } } })

/-- Several tables of one commit switched, at once or at a line. -/
def switchTables (b : Nat) (h : BitVec 32) (owner : Nat) (seq : BitVec 32) (keys : List Nat) (line : Option Nat)
    (s : State) : State :=
  let nz := if keys.contains 3 then changedNozzles s b owner else ([], false)
  let s1 := keys.foldl (fun s k => enterTable b h owner k line s) s
  let at_ := line.getD 0
  let s2 := if keys.contains 5 then pushServe b 2 at_ s1 else s1
  let s3 := if nz.2 then pushServe b 3 at_ s2 else s2
  let w : Switch := ⟨at_, h, owner, seq, sumOf (keys.map (2 ^ ·)), nz.1⟩
  match line with
  | none => emitSwitch b w none s3
  | some _ => setBar s3 b fun bar => { bar with switches := bar.switches ++ [w] }

/-- Line of the last switch of table k that has taken effect (R147). -/
def lastSwitch (s : State) (b : Nat) (h : BitVec 32) (k : Nat) : Option Nat :=
  let bar := barAt s b
  let c := channelOf s h
  match k with
  | 0 => c.bind fun c => c.tone.last
  | 1 => c.bind fun c => c.screen.last
  | 2 => c.bind fun c => c.dropmap.last
  | 3 => bar.nozzles.last
  | 4 => bar.subst.last
  | _ => bar.ramps.last

/-- A line as one table takes it (R147): `gap` lines at least after its last switch in force, and at its last armed switch or
`gap` lines at least after that. `first`: the commit names the first line possible, which joins an armed switch ahead. -/
def allowedLine (gap : Nat) (first : Bool) (l : Nat) (t : List Nat × Option Nat) : Nat :=
  let l := match t.2 with
    | some m => max l (m + gap)
    | none => l
  match t.1.getLast? with
  | some m => if first && decide (l ≤ m) then m else if l ≠ m ∧ l < m + gap then m + gap else l
  | none => l

/-- A line moved until every table takes it; `fuel` passes over the tables. -/
def spaced (tables : List (List Nat × Option Nat)) (gap : Nat) (first : Bool) : Nat → Nat → Nat
  | 0, l => l
  | fuel + 1, l => spaced tables gap first fuel (tables.foldl (allowedLine gap first) l)

/-- The line of effect of a commit of the tables `keys`, and whether it is LATE (R146, R147); none where it would need a
third armed switch. `line` none: the first line possible. -/
def planLine (s : State) (b : Nat) (h : BitVec 32) (keys : List Nat) (line : Option Nat) : Option (Nat × Bool) :=
  let tables := keys.map fun k => (armedLines s b h k, lastSwitch s b h k)
  let l := spaced tables (barSkew s b + 64) line.isNone 12 (max (firstOnTime s b) (line.getD 0))
  if tables.any fun t => t.1.getLast? != some l && 2 ≤ t.1.length then none
  else some (l, match line with | none => false | some x => l != x)

/-- A commit of owner 1 or 2 on the nozzle table, as the FS makes it: at once, at the first line possible, joined to the
later armed switch, or held (R148, R318, R319); a commit that is made takes one held along. Also the line of effect, none
where it is at once or held. -/
def ownerCommit (b : Nat) (h : BitVec 32) (owner : Nat) (s : State) : State × Option Nat :=
  let free := setBar s b fun bar => { bar with heldOwners := bar.heldOwners.filter fun o => o != owner }
  if !hasStaged s b h owner 3 then (free, none)
  else if !barActive s b then (switchTables b h owner 0 [3] none free, none)
  else match planLine s b h [3] none with
    | some (l, _) => (switchTables b h owner 0 [3] (some l) free, some l)
    | none =>
      match (armedLines s b h 3).getLast? with
      | none => (free, none)
      | some l =>
        if firstOnTime s b ≤ l then (switchTables b h owner 0 [3] (some l) free, some l)
        else (setBar free b fun bar => { bar with heldOwners := bar.heldOwners ++ [owner] }, none)

/-- Armed switches of the channels of a run that has ended take effect at once, and those of a bar's tables where no
other run is active on the bar (R148). -/
def settleTables (h : BitVec 32) (s : State) : State :=
  match channelOf s h with
  | none => s
  | some c =>
    let all := !barActive s c.bar
    let flush := fun (w : Switch) => if all then w.mask else if w.source = h then w.mask % 8 else 0
    let gone := (barAt s c.bar).switches.filter fun w => flush w != 0
    let s1 := setChannel s h fun c =>
      { c with tone := c.tone.settle, screen := c.screen.settle, dropmap := c.dropmap.settle }
    let s2 := setBar s1 c.bar fun bar => { bar with
      nozzles := if all then bar.nozzles.settle else bar.nozzles
      subst := if all then bar.subst.settle else bar.subst
      ramps := if all then bar.ramps.settle else bar.ramps
      switches := (bar.switches.map fun w => { w with mask := w.mask - flush w }).filter fun w => w.mask != 0 }
    let told := gone.foldl (fun s w => emitSwitch c.bar { w with mask := flush w } none s) s2
    -- the driver holds those changes for their lines: they are sent again, in force at once (R181)
    [2, 3].foldl (fun s i => if gone.any fun w => bit (flush w) (if i = 2 then 5 else 3) then pushServe c.bar i 0 s else s) told

/-! ### Write messages -/

/-- Lengths and fields of a write of `n` entries from `first` on. -/
def runFields (first count top limit firstOff countOff : Nat) : List FieldCheck :=
  [(first < limit && first + count ≤ limit, firstOff), within count 1 top countOff]

/-- bench.tone_write (0x0501, R130). -/
def opBenchToneWrite : OpDef where
  code := 0x0501
  trained := true
  types := [tyChannel]
  len b := 8 ≤ b.length && b.length == 8 + 2 * u16 b 2
  fields m _ :=
    let b := m.payload
    runFields (u16 b 0) (u16 b 2) 2032 4096 0 2 ++ [reserved b 4 4] ++
      (List.range (u16 b 2)).map fun j => below (u16 b (8 + 2 * j)) 12 (8 + 2 * j)
  body m s :=
    let b := m.payload
    okState (setChannel s m.handle fun c => { c with
      toneStaged := smSetRun c.toneStaged (u16 b 0) ((List.range (u16 b 2)).map fun j => u16 b (8 + 2 * j)) })

/-- Bits of a nozzle entry that a field_mask selects. -/
def nozzleMask (f : Nat) : BitVec 32 :=
  (if bit f 0 then 0xFFFF else 0) ||| (if bit f 1 then 0xFF0000 else 0) ||| (if bit f 2 then 0xF000000 else 0) |||
    (if bit f 3 then 0x40000000 else 0) ||| (if bit f 4 then 0x80000000 else 0)

/-- bench.nozzle_write (0x0502, R131, R157, R307). -/
def opBenchNozzleWrite : OpDef where
  code := 0x0502
  trained := true
  len b := 12 ≤ b.length && b.length == 12 + 4 * u16 b 8
  fields m s :=
    let b := m.payload
    let n := u16 b 8
    [within (byteAt b 0) 0 7 0, below (byteAt b 1) 5 1, reserved b 2 2,
     (match (barAt s (byteAt b 0)).table with
      | none => true
      | some t => u32 b 4 < nozzleCountOf t && u32 b 4 + n ≤ nozzleCountOf t, 4),
     within n 1 1015 8, reserved b 10 2]
  body m s := do
    let b := m.payload
    let bar := byteAt b 0
    let n := u16 b 8
    require (barAt s bar).table.isSome (plainErr stState)
    let mask := nozzleMask (byteAt b 1)
    if byteAt b 1 % 4 ≠ 0 then
      match (List.range n).find? (fun j => loopHolds s bar (u32 b 4 + j)) with
      | some j => .error (offsetErr stState (28 + 4 * j))
      | none => pure ()
    okState (stageNozzles bar 0 ((List.range n).map fun j => (u32 b 4 + j, ⟨mask, w32 b (12 + 4 * j)⟩)) s)

/-- Bytes a screen takes of its bar's pool (R136). -/
def screenPool (c : Channel) (v : Screen) : Nat :=
  if v.custom then 2 ^ (v.log2w + v.log2h) * cellBytes c.dropBits else 0

/-- Demand of a channel in budget 16 (R136), for a newest screen. -/
def screenDemand (s : State) (c : Channel) (newest : Screen) : Nat :=
  max (screenPool c (c.screen.at (barPos s c.bar).toNat)) (screenPool c newest)

/-- The newest staged or armed custom screen of a channel, `staged` the screen staged (R136); without one, the newest. -/
def newestScreen (c : Channel) (staged : Option Screen) : Screen :=
  (((c.screen.armed.map (·.value)) ++ staged.toList).filter (·.custom)).getLast?.getD c.screen.newest

/-- The newest version of a channel's screen: staged, armed or in force (R145). -/
def stagedScreen (c : Channel) : Screen := c.screenStaged.getD c.screen.newest

/-- Demand on a shared budget with R90's lane charging: each lane charges the largest charge among its runs that hold
reservations, `extra` a candidate. -/
def laneDemand (s : State) (extra : List Run) (term : Run → BitVec 32 → Channel → Nat) : Nat :=
  let runs := (s.objs.runs.live.map (·.2)).filter (fun r => r.state.reserves) ++ extra
  sumOf ((List.range 4).map fun lane => maxOf ((runs.filter fun r => r.lane == lane).map fun r =>
    sumOf ((runChannels s r).map fun e => term r e.1 e.2)))

/-- bench.screen_define (0x0503, R135, R136). -/
def opBenchScreenDefine : OpDef where
  code := 0x0503
  trained := true
  types := [tyChannel]
  len b := b.length == 8
  fields m _ :=
    let b := m.payload
    let lo := if byteAt b 0 = 0 then 8 else 4
    [within (byteAt b 0) 0 1 0, within (byteAt b 1) lo 8 1, within (byteAt b 2) lo 8 2, reserved b 5 3]
  body m s := do
    let b := m.payload
    let c ← orErr (channelOf s m.handle) (plainErr stNoHandle)
    let v : Screen := ⟨byteAt b 0 == 1, byteAt b 1, byteAt b 2, byteAt b 3 % 2 ^ byteAt b 1, byteAt b 4 % 2 ^ byteAt b 2, []⟩
    if c.run ≠ 0 then
      admitAll [⟨16, 1, c.bar, 4, 1048576, laneDemand s [] (fun _ h d =>
        if d.bar ≠ c.bar then 0 else screenDemand s d (newestScreen d (if h = m.handle then some v else d.screenStaged))), false⟩]
    okState (setChannel s m.handle fun c => { c with screenStaged := some v })

/-- One cell of bench.screen_write keeps R134 and R136: thresholds 1 to 4,095, non-decreasing, reserved words 0. -/
def cellFields (b : Bytes) (lmax words o : Nat) : List FieldCheck :=
  (List.range words).map fun k =>
    let w := u16 b (o + 2 * k)
    (if k < lmax then 1 ≤ w && w ≤ 4095 && (k + 1 == lmax || w ≤ u16 b (o + 2 * (k + 1))) else w == 0, o + 2 * k)

/-- bench.screen_write (0x0504, R134, R136). -/
def opBenchScreenWrite : OpDef where
  code := 0x0504
  trained := true
  types := [tyChannel]
  len b := 8 ≤ b.length && (b.length == 8 + 8 * u16 b 2 || b.length == 8 + 16 * u16 b 2)
  shape m s := (channelOf s m.handle).all fun c => m.payload.length == 8 + cellBytes c.dropBits * u16 m.payload 2
  fields m s :=
    let b := m.payload
    match channelOf s m.handle with
    | none => []
    | some c =>
      let v := stagedScreen c
      let cb := cellBytes c.dropBits
      [(!v.custom || u16 b 0 + u16 b 2 ≤ 2 ^ (v.log2w + v.log2h), 0), within (u16 b 2) 1 (4064 / cb) 2, reserved b 4 4] ++
        (List.range (u16 b 2)).flatMap fun j => cellFields b (lmaxOf c.dropBits) (cb / 2) (8 + cb * j)
  body m s := do
    let b := m.payload
    let c ← orErr (channelOf s m.handle) (plainErr stNoHandle)
    let cb := cellBytes c.dropBits
    let v := stagedScreen c
    require v.custom (plainErr stState)
    let cells := (List.range (u16 b 2)).map fun j =>
      (List.range (lmaxOf c.dropBits)).map fun k => u16 b (8 + cb * j + 2 * k)
    okState (setChannel s m.handle fun c => { c with screenStaged := some { v with cells := smSetRun v.cells (u16 b 0) cells } })

/-- bench.subst_write (0x0505, R137). -/
def opBenchSubstWrite : OpDef where
  code := 0x0505
  trained := true
  len b := 8 ≤ b.length && b.length == 8 + 4 * byteAt b 2
  fields m _ :=
    let b := m.payload
    [within (byteAt b 0) 0 7 0] ++ runFields (byteAt b 1) (byteAt b 2) 16 16 1 2 ++ [reserved b 3 5] ++
      (List.range (byteAt b 2)).map fun j =>
        let w := u32 b (8 + 4 * j)
        (w % 8 ≤ 4 && w < 128, 8 + 4 * j)
  body m s :=
    let b := m.payload
    okState (setBar s (byteAt b 0) fun bar => { bar with
      substEdits := smSetRun bar.substEdits (byteAt b 1) ((List.range (byteAt b 2)).map fun j => w32 b (8 + 4 * j)) })

/-- bench.stitch_write (0x0506, R140). -/
def opBenchStitchWrite : OpDef where
  code := 0x0506
  trained := true
  len b := 8 ≤ b.length && b.length == 8 + 2 * u16 b 4
  fields m s :=
    let b := m.payload
    [within (byteAt b 0) 0 7 0,
     (byteAt b 1 ≤ 30 && (match (barAt s (byteAt b 0)).table with
      | none => false
      | some t => overlapWidth t (byteAt b 1) != 0), 1)] ++
    runFields (u16 b 2) (u16 b 4) 256 256 2 4 ++ [reserved b 6 2] ++
      (List.range (u16 b 4)).map fun j => within (u16 b (8 + 2 * j)) 0 256 (8 + 2 * j)
  body m s :=
    let b := m.payload
    okState (setBar s (byteAt b 0) fun bar => { bar with
      rampEdits := smSetRun bar.rampEdits (256 * byteAt b 1 + u16 b 2)
        ((List.range (u16 b 4)).map fun j => u16 b (8 + 2 * j)) })

/-- Nibbles of a drop map keep R144. -/
def dropmapOk (lmax w : Nat) : Bool :=
  (List.range 8).all fun k =>
    let v := w / 16 ^ k % 16
    if k = 0 ∨ lmax < k then v == 0 else 1 ≤ v && v ≤ lmax

/-- bench.dropmap_write (0x0507, R144). -/
def opBenchDropmapWrite : OpDef where
  code := 0x0507
  trained := true
  types := [tyChannel]
  len b := b.length == 4
  fields m s := [((channelOf s m.handle).all fun c => dropmapOk (lmaxOf c.dropBits) (u32 m.payload 0), 0)]
  body m s := okState (setChannel s m.handle fun c => { c with dropmapStaged := some (w32 m.payload 0) })

/-! ### Commit, discard, read -/

/-- The bar of a message that names a channel, or handle 0 and a bar. -/
def namedBar (s : State) (h : BitVec 32) (bar : Nat) : Nat :=
  match channelOf s h with
  | some c => c.bar
  | none => bar

/-- The bar field: 0xFF with a channel, 0 to 7 with handle 0. -/
def barField (m : Msg) (off : Nat) : FieldCheck :=
  (if m.handle = 0 then byteAt m.payload off ≤ 7 else byteAt m.payload off == 0xFF, off)

/-- Tables that a mask names. -/
def maskTables (mask : Nat) : List Nat := (List.range 6).filter (bit mask)

/-- A channel whose run is active. -/
def channelActive (s : State) (h : BitVec 32) : Bool :=
  (channelOf s h).any fun c => (runOf s c.run).any fun r => r.state.active

/-- bench.commit (0x0508, R145 to R148, R158). -/
def opBenchCommit : OpDef where
  code := 0x0508
  trained := true
  types := [tyChannel, 0]
  len b := b.length == 12
  fields m _ := [below (byteAt m.payload 0) 6 0, barField m 1, reserved m.payload 2 2, reserved m.payload 10 2]
  body m s := do
    let b := m.payload
    let bar := namedBar s m.handle (byteAt b 1)
    let busy := barActive s bar
    require (!(m.handle == 0 && (byteAt b 0 % 8 != 0 || busy))) (plainErr stState)
    let keys := (maskTables (byteAt b 0)).filter (hasStaged s bar m.handle 0)
    let live := channelActive s m.handle
    let timed := keys.filter fun k => if k < 3 then live else busy
    let now := keys.filter fun k => !timed.contains k
    let line := if u48 b 4 = 0xFFFFFFFFFFFF then none else some (u48 b 4)
    let switchNow := fun s => if now.isEmpty then s else switchTables bar m.handle 0 m.seq now none s
    if timed.isEmpty then okState (switchNow s)
    else match planLine s bar m.handle timed line with
      | none => .error (plainErr stState)
      | some (l, isLate) =>
        let s1 := switchTables bar m.handle 0 m.seq timed (some l) (switchNow s)
        if isLate then okLate s1 (le 6 l) else okState s1

/-- Host-staged fields of table k dropped. -/
def dropStaged (b : Nat) (h : BitVec 32) (k : Nat) (s : State) : State :=
  match k with
  | 0 => setChannel s h fun c => { c with toneStaged := [] }
  | 1 => setChannel s h fun c => { c with screenStaged := none }
  | 2 => setChannel s h fun c => { c with dropmapStaged := none }
  | 3 => setBar s b fun bar => { bar with nozzleEdits := setAt bar.nozzleEdits 0 [] }
  | 4 => setBar s b fun bar => { bar with substEdits := [] }
  | _ => setBar s b fun bar => { bar with rampEdits := [] }

/-- bench.discard (0x0509). -/
def opBenchDiscard : OpDef where
  code := 0x0509
  trained := true
  types := [tyChannel, 0]
  len b := b.length == 4
  fields m _ := [below (byteAt m.payload 0) 6 0, barField m 1, reserved m.payload 2 2]
  body m s := do
    let b := m.payload
    require (!(m.handle == 0 && byteAt b 0 % 8 != 0)) (plainErr stState)
    let bar := namedBar s m.handle (byteAt b 1)
    okState ((maskTables (byteAt b 0)).foldl (fun s k => dropStaged bar m.handle k s) s)

/-- The screen that bench.read shows: in force at the present line, or the staged one (R576). -/
def readScreen (s : State) (c : Channel) (version : Nat) : Screen :=
  let now := c.screen.at (barPos s c.bar).toNat
  if version = 1 then (c.screenStaged.filter (·.custom)).getD now else now

/-- Entries of table k that exist, and bytes of one, for bench.read. -/
def tableShape (s : State) (h : BitVec 32) (k version : Nat) : Nat × Nat :=
  match k with
  | 0 => (4096, 2)
  | 1 => match channelOf s h with
    | none => (65536, 8)
    | some c => let v := readScreen s c version; (2 ^ (v.log2w + v.log2h), cellBytes c.dropBits)
  | 2 => (1, 4)
  | 3 => (131072, 4)
  | 4 => (16, 4)
  | 5 => (7936, 2)
  | _ => (4096, 1)

/-- One entry of table k as bench.read returns it (R575, R576). -/
def readEntry (s : State) (bar : Nat) (h : BitVec 32) (k version i : Nat) : Bytes :=
  let b := barAt s bar
  let y := (barPos s bar).toNat
  let c := channelOf s h
  match k with
  | 0 => le 2 ((c.map fun c =>
      smGet (if version = 1 then overlay c.tone.newest c.toneStaged else c.tone.at y) i i).getD 0)
  | 1 => match c with
    | none => []
    | some c =>
      let v := readScreen s c version
      (List.range (cellBytes c.dropBits / 2)).flatMap fun t =>
        le 2 (if t < lmaxOf c.dropBits then screenCell v c.dropBits t (i % 2 ^ v.log2w) (i / 2 ^ v.log2w) else 0)
  | 2 => leB 4 ((c.map fun c => if version = 1 then c.dropmapStaged.getD c.dropmap.newest else c.dropmap.at y).getD 0)
  | 3 => leB 4 (nozEntry (if version = 1 then applyEdits b.nozzles.newest (b.nozzleEdits.getD 0 []) else b.nozzles.at y) i)
  | 4 => leB 4 (smGet (if version = 1 then overlay b.subst.newest b.substEdits else b.subst.at y) substDefault i)
  | 5 => le 2 (rampEntry b.table (if version = 1 then overlay b.ramps.newest b.rampEdits else b.ramps.at y) (i / 256) (i % 256))
  | _ => le 1 (stitchMaskAt (i / 64) (i % 64))

/-- bench.read (0x050A, R575, R576). -/
def opBenchRead : OpDef where
  code := 0x050A
  trained := true
  types := [tyChannel, 0]
  len b := b.length == 12
  fields m s :=
    let b := m.payload
    let z := tableShape s m.handle (byteAt b 0) (byteAt b 1)
    [within (byteAt b 0) 0 6 0, (byteAt b 0 == 6 || byteAt b 1 ≤ 1, 1), barField m 2, reserved b 3 1,
     (u32 b 4 < z.1 && u32 b 4 + u32 b 8 ≤ z.1, 4), (u32 b 8 * z.2 ≤ 4072, 8)]
  body m s := do
    let b := m.payload
    require (!(m.handle == 0 && byteAt b 0 ≤ 2)) (plainErr stState)
    let bar := namedBar s m.handle (byteAt b 2)
    okBytes s ((List.range (u32 b 8)).flatMap fun j => readEntry s bar m.handle (byteAt b 0) (byteAt b 1) (u32 b 4 + j))

def execBenchToneWrite (m : Msg) (s : State) : Out := .next (message opBenchToneWrite m s)
def execBenchNozzleWrite (m : Msg) (s : State) : Out := .next (message opBenchNozzleWrite m s)
def execBenchScreenDefine (m : Msg) (s : State) : Out := .next (message opBenchScreenDefine m s)
def execBenchScreenWrite (m : Msg) (s : State) : Out := .next (message opBenchScreenWrite m s)
def execBenchSubstWrite (m : Msg) (s : State) : Out := .next (message opBenchSubstWrite m s)
def execBenchStitchWrite (m : Msg) (s : State) : Out := .next (message opBenchStitchWrite m s)
def execBenchDropmapWrite (m : Msg) (s : State) : Out := .next (message opBenchDropmapWrite m s)
def execBenchCommit (m : Msg) (s : State) : Out := .next (message opBenchCommit m s)
def execBenchDiscard (m : Msg) (s : State) : Out := .next (message opBenchDiscard m s)
def execBenchRead (m : Msg) (s : State) : Out := .next (message opBenchRead m s)

/-- TABLE_SWITCHED (R125, R146): the present fire position of the bar has reached the line of an armed switch; every
switch of that line is in force and reported. -/
def execTableSwitched (bar : Fin 8) (s : State) : Out :=
  .next (
    let y := barPos s bar.val
    let now := (barAt s bar.val).switches.filter fun w => (w.line : Int) ≤ y
    let reach : Channel → Channel := fun c =>
      if c.bar = bar.val then
        { c with tone := c.tone.reach y.toNat, screen := c.screen.reach y.toNat, dropmap := c.dropmap.reach y.toNat }
      else c
    if now.isEmpty then s else
    let s1 := setBar { s with objs := { s.objs with channels := s.objs.channels.mapLive reach } } bar.val fun b => { b with
      nozzles := b.nozzles.reach y.toNat
      subst := b.subst.reach y.toNat
      ramps := b.ramps.reach y.toNat
      switches := b.switches.filter fun w => y < (w.line : Int) }
    now.foldl (fun s w => emitSwitch bar.val w (some w.line) s) s1)

end Sys2Proof.Machine
end

