-- ==== Sys2Proof/Machine/Runs.lean ====
section
/-! DEFINITION. Channels and runs (03, 04): admission (R90 to R92), the life of a run (R84 to R89), plate switching
(R115 to R122), and the `chan` and `run` families. -/

namespace Sys2Proof.Machine

/-! ### chan.create and its budgets -/

/-- Device dots that a plate gives from a column on, for a format (R81): a C8-600 pixel covers two dots. -/
def platePixels (format dots : Nat) : Nat := if format = 0 then dots / 2 else dots

/-- A kernel suits a format (R81). -/
def kernelSuits (format kernel : Nat) : Bool :=
  match format with
  | 0 => true
  | 1 => kernel ≤ 1
  | _ => kernel == 0

/-- Two spans overlap. -/
def spansMeet (a b : Channel) : Bool :=
  a.dotStart < b.dotStart + b.dotWidth && b.dotStart < a.dotStart + a.dotWidth

/-- Row-delay need of a channel (R90, R91); without a run at line_pitch 0. -/
def rowNeed (s : State) (c : Channel) : Nat :=
  match (barAt s c.bar).table with
  | none => 0
  | some t => rowDelayNeed t c.dotStart c.dotWidth c.dropBits (qOf (((runOf s c.run).map fun r => r.pitch).getD 0))

/-- Demand of budget 4 on a bar with a candidate (R90). -/
def rowDemand (s : State) (c : Channel) : Nat :=
  let all := c :: ((s.objs.channels.live.map (·.2)).filter fun d => d.bar == c.bar)
  sumOf ((List.range 4).map fun lane => maxOf ((all.filter fun d => d.lane == lane).map (rowNeed s)))

/-- The channel that a chan.create payload describes. -/
def newChannel (b : Bytes) : Channel :=
  { plate := w32 b 0, bar := byteAt b 4, lane := byteAt b 5, dropBits := byteAt b 6, kernel := byteAt b 7
    dotStart := u32 b 8, dotWidth := u32 b 12, plateX := u32 b 16, fireAhead := u16 b 20, run := 0, next := none
    decided := [], prevSwitch := 0, linesPrinted := 0, runLines := 0, tone := ⟨[], [], none⟩
    screen := ⟨romScreenOf (byteAt b 4), [], none⟩, dropmap := ⟨identityMap (byteAt b 6), [], none⟩, toneStaged := []
    screenStaged := none, dropmapStaged := none, calset := 0, stream := 0, calCount := 0, calTime := 0 }

/-- chan.create (0x0201, R78, R81, R90, R91). -/
def opChanCreate : OpDef where
  code := 0x0201
  trained := true
  len b := b.length == 24
  named m := [⟨[tyPlate], w32 m.payload 0, 16⟩]
  fields m s :=
    let b := m.payload
    let c := newChannel b
    let fits : List FieldCheck := match plateOf s c.plate with
      | none => []
      | some p =>
        [(p.format < 2 || c.dropBits == p.format, 6), (kernelSuits p.format c.kernel, 7),
         (c.plateX + platePixels p.format c.dotWidth ≤ p.width, 12)]
    let wide : List FieldCheck := match (barAt s c.bar).table with
      | none => []
      | some t => [(c.dotStart + c.dotWidth ≤ t.width, 8)]
    [within c.bar 0 7 4, within c.lane 0 3 5, within c.dropBits 2 3 6, within c.kernel 0 2 7, (c.dotStart % 64 == 0, 8),
     (c.dotWidth % 64 == 0 && 64 ≤ c.dotWidth, 12), (c.plateX % 64 == 0, 16), within c.fireAhead 16 200 20,
     reserved b 22 2] ++ wide ++ fits
  body m s := do
    let c := newChannel m.payload
    let p ← orErr (plateOf s c.plate) (plainErr stNoHandle)
    require ((barAt s c.bar).table.isSome && p.isSealed) (plainErr stState)
    require (!(s.objs.channels.live.any fun e => e.2.bar == c.bar && e.2.lane != c.lane && spansMeet e.2 c)) (plainErr stState)
    let (i, t) ← orErr (s.objs.channels.create c) (plainErr stNoSpace)
    admitAll [⟨4, 1, c.bar, 4, 1703936, rowDemand s c, false⟩, ⟨5, 3, 0, 5, fifoDepth s c.bar, c.fireAhead + 72, false⟩]
    .ok { state := { s with objs := { s.objs with channels := t } }, handle := some (t.handle tyChannel i) }

/-- chan.destroy (0x0202, R82). -/
def opChanDestroy : OpDef where
  code := 0x0202
  trained := true
  types := [tyChannel]
  len b := b.length == 0
  body m s := do
    let c ← orErr (channelOf s m.handle) (plainErr stNoHandle)
    require (c.run == 0) (plainErr stState)
    let objs := { s.objs with
      channels := s.objs.channels.release (hIdx m.handle)
      streams := s.objs.streams.mapLive fun st => if st.channel = m.handle then { st with channel := 0 } else st
      calsets := s.objs.calsets.mapLive fun q =>
        if q.channel = m.handle then { q with channel := 0, mode := .detached } else q }
    -- a CALSET leaves CORRECT: the bar's registration correction returns to 0 (R324)
    let correcting := s.objs.calsets.live.any fun e => e.2.channel == m.handle && e.2.mode == .correct
    let s1 := if correcting then setBar s c.bar fun b => { b with regCorr := 0 } else s
    okState { s1 with objs := objs }

/-- The bench that serves a bar now: working on it, or loaned to it (R123, R156); for a bar that no bench serves, where no value
is given, the bar's own number (DESIGN CHOICE, log 137). -/
def benchOf (s : State) (b : Nat) : Nat :=
  match s.bench.bench.findIdx? (fun e => e.role == .loaned b) with
  | some i => i
  | none => (s.bench.bench.findIdx? fun e => e.role == .working b).getD b

/-- chan.query (0x0203). -/
def opChanQuery : OpDef where
  code := 0x0203
  trained := true
  types := [tyChannel]
  len b := b.length == 0
  body m s := do
    let c ← orErr (channelOf s m.handle) (plainErr stNoHandle)
    let next := match c.next, c.decided.getLast? with
      | some n, _ => n.plate
      | none, some d => d.plate
      | none, none => 0
    okBytes s (le 1 (flag (c.run != 0)) ++ le 1 (benchOf s c.bar) ++ zeros 2 ++ leB 4 c.run ++ leB 4 c.plate ++
      leB 4 next ++ le 8 c.linesPrinted)

/-! ### Switches (R115 to R122) -/

/-- The plate that prints a repeat of a channel: the last decided switch up to it, else the current plate (R119). -/
def plateFor (c : Channel) (n : Nat) : BitVec 32 :=
  match (c.decided.filter fun d => d.rep ≤ n).getLast? with
  | some d => d.plate
  | none => c.plate

/-- The newest plate of a channel: of its last decided switch, else the current one. -/
def newestPlate (c : Channel) : BitVec 32 := (c.decided.getLast?.map fun d => d.plate).getD c.plate

/-- Repeat length of a plate handle under a run's pitch; none for a plate that is not sealed or gone. -/
def sealedLength (s : State) (h : BitVec 32) (pitch : Nat) : Option Nat :=
  match plateOf s h with
  | some p => if p.isSealed then some (repeatLength p pitch) else none
  | none => none

/-- chan.next_plate (0x0204, R83, R118). -/
def opChanNextPlate : OpDef where
  code := 0x0204
  trained := true
  types := [tyChannel]
  len b := b.length == 8
  named m := [⟨[tyPlate], w32 m.payload 0, 16⟩]
  body m s := do
    let c ← orErr (channelOf s m.handle) (plainErr stNoHandle)
    let ph := w32 m.payload 0
    let named := u32 m.payload 4
    let p ← orErr (plateOf s ph) (plainErr stNoHandle)
    let r ← orErr (runOf s c.run) (plainErr stState)
    require (r.switchMin != 0) (plainErr stState)
    let adm := r.admitted.find? fun e => e.1 == m.handle
    let live := r.state.active
    let any_ := named == 0xFFFFFFFF
    let target := if live then firstAhead s r c.bar (if any_ then 0 else named) else if any_ then 0 else named
    let (size, format, width) := match adm with
      | some e => e.2
      | none => (plateSize p, p.format, p.width)
    require (p.format == format && p.width == width) (offsetErr stBadArg 16)
    admitAll [⟨6, 3, c.bar, 4, size, plateSize p, false⟩]
    let len := ((plateOf s c.plate).map fun p => repeatLength p r.pitch).getD 0
    let gap := if live then repeatStart r target - c.prevSwitch else target * len
    if !any_ then admitAll [⟨6, 3, c.bar, 5, r.switchMin, gap, true⟩]
    let isLate := !any_ && target != named
    let n : NextPlate := ⟨ph, if any_ then none else some target, target⟩
    let s1 := setChannel s m.handle fun c => { c with next := some n }
    if isLate then okLate s1 (le 4 target) else okState s1

/-- The conditions of R116 for a group that would switch at repeat n: the repeat length after the switch, none where one
fails. -/
def switchReady (s : State) (r : Run) (members : List (BitVec 32 × Channel)) (n : Nat) : Option Nat :=
  let lens := (runChannels s r).map fun e =>
    match members.find? (fun g => g.1 == e.1) with
    | some g => match g.2.next with
      | some x => sealedLength s x.plate r.pitch
      | none => none
    | none => (plateOf s (newestPlate e.2)).map fun p => repeatLength p r.pitch
  match lens with
  | some len :: rest =>
    if rest.all (fun l => l == some len) ∧ members.all (fun g => g.2.prevSwitch + r.switchMin ≤ repeatStart r n) then some len
    else none
  | _ => none

/-- The earliest decision line of a group at repeat n (R116). -/
def groupLine (s : State) (r : Run) (members : List (BitVec 32 × Channel)) (n : Nat) : Int :=
  members.foldl (fun l g => min l (decisionLine s r g.2.bar n)) (repeatStart r n : Int)

/-- The channels of a run that wait in one switch group (R115). -/
def groupMembers (s : State) (r : Run) (group : Option Nat) : List (BitVec 32 × Channel) :=
  (runChannels s r).filter fun e => e.2.next.any fun n => n.group == group

/-- The repeat that a group targets. -/
def groupTarget (members : List (BitVec 32 × Channel)) : Nat :=
  maxOf (members.map fun g => (g.2.next.map fun x => x.target).getD 0)

/-- A group's decision line has been reached, and its run prints the target repeat (R116). -/
def groupDue (s : State) (r : Run) (members : List (BitVec 32 × Channel)) : Bool :=
  let n := groupTarget members
  !members.isEmpty && groupLine s r members n ≤ (runPos s r.pitch : Int) && (match runEnd r with
    | none => true
    | some e => repeatStart r n < e)

/-- The switch groups of a run. -/
def switchGroups (s : State) (r : Run) : List (Option Nat) :=
  ((runChannels s r).filterMap fun e => e.2.next.map fun n => n.group).eraseDups

/-- Output line n of a bar would hold a dot of a repeat for which a switch group of a run on the bar is due and has not
decided: the bench screens no line of the target repeat before (R116; log 75). Lines before it, and the lines of other
lanes with them, are not held up (R122). -/
def decisionDue (s : State) (b n : Nat) : Bool :=
  s.objs.runs.live.any fun e => e.2.state.active && (runBars s e.2).contains b &&
    (switchGroups s e.2).any fun g =>
      let members := groupMembers s e.2 g
      groupDue s e.2 members && repeatStart e.2 (groupTarget members) ≤ n + barSkew s b

/-- One group decided at its decision line (R116, R117). -/
def decideGroup (h : BitVec 32) (group : Option Nat) (s : State) : State :=
  match runOf s h with
  | none => s
  | some r =>
    let members := groupMembers s r group
    let n := groupTarget members
    let line := repeatStart r n
    if !groupDue s r members then s
    else match switchReady s r members n with
      | some len =>
        let s1 := if len = repeatLen r n then s
          else setRun s h fun r => { r with segs := ⟨n, line, len⟩ :: r.segs }
        members.foldl (fun s g => setChannel s g.1 fun c => { c with
          decided := match c.next with
            | some x => c.decided ++ [⟨x.plate, n, line⟩]
            | none => c.decided
          next := none
          prevSwitch := line }) s1
      | none => members.foldl (fun s g =>
          let plate := (g.2.next.map fun x => x.plate).getD 0
          let s1 := setChannel s g.1 fun c => { c with next := c.next.map fun x => { x with target := n + 1 } }
          if group.isSome then fieldEventAt 0x0202 g.1 (some (runPos s r.pitch)) (leB 4 plate ++ le 4 n) s1 else s1) s

/-- SWITCH_DECISION (R116, R117): every switch group of a run whose decision line has been reached decides. -/
def execSwitchDecision (run : Fin 8) (s : State) : Out :=
  .next (match s.objs.runs.at? run.val with
    | none => s
    | some r =>
      if !r.state.active then s else
      let h := s.objs.runs.handle tyRun run.val
      (switchGroups s r).foldl (fun s g => decideGroup h g s) s)

/-- The temporal history of a lane starts anew at a web position in 1/64 web line (R292). -/
def renewHistory (lane web64 : Nat) (s : State) : State :=
  let fresh : CamSet → CamSet := fun c => { c with histFrom := smSet c.histFrom lane web64 }
  { s with objs := { s.objs with camsets := s.objs.camsets.mapLive fresh } }

/-- The first decided switch of a channel completes: its plate becomes the current one and PLATE_SWITCHED is written
(R119). -/
def completeSwitch (h : BitVec 32) (web : Nat) (s : State) : State :=
  match channelOf s h with
  | none => s
  | some c => match c.decided with
    | [] => s
    | d :: rest =>
      fieldEventAt 0x0201 h (some web) (leB 4 d.plate ++ le 4 d.rep)
        (renewHistory c.lane (4 * d.line * barQ s c.bar)
          (setChannel s h fun c => { c with plate := d.plate, decided := rest }))

/-- A decided switch completes only where its run prints the first line of the target repeat (R120). -/
def switchPrints (s : State) (run : BitVec 32) (line : Nat) : Bool :=
  match (runOf s run).bind runEnd with
  | none => true
  | some e => line < e

/-- The least skew of a bar's heads at its present pitch. -/
def leastSkew (s : State) (b : Nat) : Nat :=
  match (barAt s b).table with
  | none => 0
  | some t => skewMin t (barQ s b)

/-- PLATE_SWITCHED (R119, R120): every head row of the channel's bar has fetched its last line of the old plate, that is,
the rows of the least-skewed head have. -/
def execPlateSwitched (chan : Fin 64) (s : State) : Out :=
  .next (match s.objs.channels.at? chan.val with
    | none => s
    | some c => match c.decided, (barAt s c.bar).nextOut with
      | d :: _, some n =>
        if d.line ≤ n + leastSkew s c.bar ∧ switchPrints s c.run d.line then
          completeSwitch (s.objs.channels.handle tyChannel chan.val) (runPos s (barPitch s c.bar)) s
        else s
      | _, _ => s)

/-- A channel's pending next plate dropped; a decided switch completes if its first line is below `upTo`, else it is
dropped too (R120). -/
def dropSwitches (h : BitVec 32) (upTo web : Nat) (s : State) : State :=
  match channelOf s h with
  | none => s
  | some c =>
    let s1 := setChannel s h fun c => { c with next := none }
    let s2 := (c.decided.filter fun d => d.line < upTo).foldl (fun s _ => completeSwitch h web s) s1
    setChannel s2 h fun c => { c with decided := [] }

/-! ### The end of a run -/

/-- The queued run of a lane (R79). -/
def queuedRun (s : State) (lane : Nat) : Option (BitVec 32 × Run) :=
  (s.objs.runs.live.find? fun e => e.2.lane == lane && e.2.state == .queued).map fun e =>
    (s.objs.runs.handle tyRun e.1, e.2)

/-- The first device line at R84's distance from a fire position. -/
def firstFrom (s : State) (r : Run) (pos : Nat) : Nat := pos + runFa s r + 16 + runSkew s r

/-- The first device line at R84's distance from the lane's present fire position. -/
def earliestFirst (s : State) (r : Run) : Nat := firstFrom s r (runPos s r.pitch)

/-- The fire line at which a run that printed up to a device line ended: the last of its bars' (R85); for a run of which no
line fired, the present position. -/
def endFireLine (s : State) (r : Run) (last : Nat) : Nat :=
  if r.started then maxOf ((runBars s r).map fun b => (lastFireLine s b last).toNat) else runPos s r.pitch

/-- A line number of one pitch in the lines of another, rounded up (R203). -/
def repitch (from_ to_ n : Nat) : Nat := ceilDiv (n * qOf from_) (qOf to_)

/-- The channels of a run return to IDLE: unbound, their switches settled, their tables' armed switches in force
(R85, R120, R148). -/
def unbind (r : Run) (upTo : Nat) (s : State) : State :=
  let web := runPos s r.pitch
  let s1 := r.channels.foldl (fun s h => dropSwitches h upTo web (setChannel s h fun c => { c with run := 0 })) s
  r.channels.foldl (fun s h => settleTables h s) s1

/-- A run ends (R85, R86): its last line, its channels IDLE, its items settled, ENDED, the audit record, and the queued
run of its lane armed unless the host side is lost (R31). Its first line lies gap_lines after the last line, that is, at last +
1 + gap_lines: R85 counts them after the last line, the table of run.create between (DESIGN CHOICE, log 139). -/
def endRun (h : BitVec 32) (cause last : Nat) (s : State) : State :=
  match runOf s h with
  | none => s
  | some r =>
    let r' := { r with state := .ended, lastLine := last, cause := cause }
    let s1 := unbind r (last + 1) (setRun (settleItems r (if cause = 2 then 7 else 2) (last + 1) s) h fun _ => r')
    let s2 := fieldEventAt 0x0402 h (some (runPos s r.pitch)) (le 6 last ++ le 1 cause) s1
    let s3 := recordRun h ((runOf s2 h).getD r') cause s2
    let s4 := match queuedRun s3 r.lane with
      | some (qh, q) =>
        if s.saddle.hostLost then s3
        else
          let after := repitch r.pitch q.pitch (last + 1) + q.gapLines
          armRun qh (max after (firstFrom s3 q (repitch r.pitch q.pitch (endFireLine s r last)))) s3
      | none => s3
    parkBars s4

/-! ### The `run` family -/

/-- The channel handles that a run.create payload names. -/
def runHandles (b : Bytes) : List (BitVec 32) := (List.range (byteAt b 2)).map fun i => w32 b (28 + 4 * i)

/-- The run that a run.create payload describes. -/
def newRun (b : Bytes) : Run :=
  { lane := byteAt b 0, pitch := byteAt b 1, channels := runHandles b, maxRate := u32 b 4, startLine := u48 b 8
    gapLines := u16 b 14, repeatCount := u32 b 16, switchMin := u32 b 20, state := .created, started := false
    firstLine := 0, segs := [], stopAt := none, cause := 0, lastLine := 0, linesFired := 0, admitted := [], windows := []
    newWindows := none, leftAt := none, fastLines := 0, overspeedAt := none, lastFireAt := none, runningOut := false, audit := {} }

/-- Conditions on the channel named at place i, against the channels before it (R99, run.create). -/
def runChannelFields (s : State) (r : Run) (i : Nat) (h : BitVec 32) : List FieldCheck :=
  match channelOf s h with
  | none => []
  | some c =>
    let len := fun (c : Channel) => (plateOf s c.plate).map fun p => repeatLength p r.pitch
    let sameBar := (r.channels.take i).findIdx? fun g => (channelOf s g).any fun d => d.bar == c.bar
    let first := (r.channels.head?.bind (channelOf s)).getD c
    let p := plateOf s c.plate
    [(c.lane == r.lane, 0), (r.pitch == 0 || p.all (fun p => p.format < 2), 1),
     (sameBar.isNone, 28 + 4 * sameBar.getD 0),
     (len c == len first, 28 + 4 * i),
     (!(r.pitch == 1 && p.any fun p => p.format == 1 && p.lines % 2 == 1), 28 + 4 * i)]

/-- Guaranteed payload of a bar's lane pair in bit/s (R30, R276): 0 for a link that is not enabled. -/
def laneLimit (s : State) (b : Nat) : Nat :=
  let k := s.sett.links.getD b {}
  if !k.configured ∨ k.state = .disabled then 0
  else
    let rate := match k.trained with
      | some t => min k.rateCfg t
      | none => k.rateCfg
    match rate with
    | 0 => 14700000000
    | 1 => 22900000000
    | _ => 29400000000

/-- Plate bytes that a channel reads per device line (R91). -/
def bytesPerLine (s : State) (r : Run) (c : Channel) : Nat :=
  match ((plateOf s c.plate).map fun p => p.format).getD 0, r.pitch with
  | 0, 0 => c.dotWidth / 4
  | 0, _ => c.dotWidth / 2
  | 1, 0 => c.dotWidth
  | 1, _ => 2 * c.dotWidth
  | 2, _ => c.dotWidth / 4
  | _, _ => 3 * c.dotWidth / 8

/-- Charge of a channel to budget 6: the plate size at admission × rate over switch_min_lines, rounded up (R83, R91). -/
def loadRate (s : State) (r : Run) (h : BitVec 32) (c : Channel) : Nat :=
  if r.switchMin = 0 then 0
  else
    let size := match r.admitted.find? (fun e => e.1 == h) with
      | some e => e.2.1
      | none => ((plateOf s c.plate).map plateSize).getD 0
    ceilDiv (size * r.maxRate) r.switchMin

/-- The budgets of run.create (R91, R136). -/
def runBudgets (s : State) (r : Run) : List Budget :=
  let bars := sortBy (fun b : Nat => (b : Int)) (runBars s r)
  let on := fun (b : Nat) (f : Run → Channel → Nat) => laneDemand s [r] fun r _ c => if c.bar = b then f r c else 0
  bars.map (fun b => ⟨1, 1, b, 1, 10880000000, on b fun r c => c.dotWidth * r.maxRate, false⟩) ++
  bars.map (fun b => ⟨2, 1, b, 2, laneLimit s b, on b fun r c => c.dotWidth * c.dropBits * r.maxRate, false⟩) ++
  [⟨3, 0, 0, 3, 48000000000, laneDemand s [r] fun r _ c => bytesPerLine s r c * r.maxRate, false⟩,
   ⟨6, 0, 0, 3, 4400000000, laneDemand s [r] (loadRate s), false⟩,
   ⟨7, 4, 0, 6, if (runChannels s r).any fun e => e.2.dropBits == 3 then 64000 else 100000, r.maxRate, false⟩] ++
  bars.map (fun b => ⟨16, 1, b, 4, 1048576, on b fun _ c => screenDemand s c (newestScreen c c.screenStaged), false⟩)

/-- The device refuses new runs: a rank in band 2 (R382), a zone without protection (R472). -/
def runsBarred (s : State) : Except OpErr Unit := do
  let hottest := s.mem.temp.foldl max (s.mem.temp.headD 0)
  require (!(s.mem.band.any fun b => b == 2)) ⟨stState, leS 4 hottest⟩
  require (!s.thermal.bare.any id) (plainErr stState)

/-- A run with another pitch holds reservations on a bar of a candidate (R170). -/
def pitchClash (s : State) (r : Run) : Bool :=
  s.objs.runs.live.any fun e => e.2.state.reserves && e.2.pitch != r.pitch &&
    (runBars s e.2).any fun b => (runBars s r).contains b

/-- run.create (0x0401, R80, R91, R99, R170, R382, R472, R529). -/
def opRunCreate : OpDef where
  code := 0x0401
  trained := true
  len b := 28 ≤ b.length && b.length == 28 + 4 * byteAt b 2
  named m := (runHandles m.payload).zipIdx.map fun e => ⟨[tyChannel], e.1, 44 + 4 * e.2⟩
  fields m s :=
    let b := m.payload
    let r := newRun b
    [within r.lane 0 3 0, within r.pitch 0 1 1, within (byteAt b 2) 1 8 2, reserved b 3 1, within r.maxRate 1 100000 4,
     reserved b 24 4] ++ r.channels.zipIdx.flatMap fun e => runChannelFields s r e.2 e.1
  body m s := do
    let r := newRun m.payload
    require ((runChannels s r).all fun e => e.2.run == 0) (plainErr stState)
    require (!pitchClash s r) (plainErr stState)
    require (!(auditLock s && !auditSlotFree s)) (plainErr stState)
    runsBarred s
    let adm := (runChannels s r).map fun e =>
      let p := plateOf s e.2.plate
      (e.1, (p.map plateSize).getD 0, (p.map fun p => p.format).getD 0, (p.map fun p => p.width).getD 0)
    let (i, t) ← orErr (s.objs.runs.create { r with admitted := adm }) (plainErr stNoSpace)
    admitAll (runBudgets s r)
    let h := t.handle tyRun i
    -- R410: with a run created, VDD_F is at least 0.72 V
    let s1 := commandVdd (max 720 s.fabric.vddMv) { s with objs := { s.objs with runs := t } }
    .ok { state := r.channels.foldl (fun s c => setChannel s c fun c => { c with run := h }) s1, handle := some h }

/-- Whether the lane of a run has another run in a state. -/
def laneHas (s : State) (h : BitVec 32) (lane : Nat) (p : RunState → Bool) : Bool :=
  s.objs.runs.live.any fun e => e.2.lane == lane && p e.2.state && s.objs.runs.handle tyRun e.1 != h

/-- run.start (0x0402, R79, R84, R215, R382, R472). -/
def opRunStart : OpDef where
  code := 0x0402
  trained := true
  types := [tyRun]
  len b := b.length == 0
  body m s := do
    let r ← orErr (runOf s m.handle) (plainErr stNoHandle)
    require (r.state == .created && s.pos.configured) (plainErr stState)
    let follows := laneHas s m.handle r.lane RunState.active
    require (!(follows && laneHas s m.handle r.lane (· == .queued))) (plainErr stState)
    runsBarred s
    if follows then okState (setRun s m.handle fun r => { r with state := .queued })
    else
      let first := max r.startLine (earliestFirst s r)
      let s1 := armRun m.handle first s
      if first = r.startLine then okState s1 else okLate s1 (le 6 first)

/-- run.stop (0x0403, R86). An accepted stop at or beyond the run's natural end gives ENDED cause 1 there (DESIGN CHOICE, log
140). -/
def opRunStop : OpDef where
  code := 0x0403
  trained := true
  types := [tyRun]
  len b := b.length == 8
  fields m _ := [within (byteAt m.payload 0) 0 1 0, reserved m.payload 1 1]
  body m s := do
    let r ← orErr (runOf s m.handle) (plainErr stNoHandle)
    let mode := byteAt m.payload 0
    let line := u48 m.payload 2
    require r.state.active (plainErr stState)
    if r.state = .armed ∧ (mode = 0 ∨ line ≤ r.firstLine) then okState (endRun m.handle 1 (r.firstLine - 1) s)
    else
      let ahead := firstUnhanded s r
      let stop := if mode = 0 then repeatStart r ((repeatOf r (max r.firstLine (ahead - 1))).1 + 1) else max line ahead
      let final := match runEnd r with
        | none => stop
        | some e => min stop e
      require (!(r.state == .stopping && final != stop) && !(r.state == .stopping && runEnd r == some stop)) (plainErr stState)
      let s1 := setRun s m.handle fun r => { r with
        state := .stopping, stopAt := some final, cause := 1, leftAt := r.leftAt.orElse fun _ => some (runPos s r.pitch) }
      if mode = 1 ∧ line < final then okLate s1 (le 6 final) else okState s1

/-- What a bar keeps of an aborted run: the channels on it whose handed lines still fire (R87). -/
def drainRun (r : Run) (blank : Nat) (s : State) : State :=
  (runChannels s r).foldl (fun s e =>
    let unfired := (barAt s e.2.bar).nextFire.any fun n => (n : Int) ≤ lastFireLine s e.2.bar (blank - 1)
    if r.firstLine < blank ∧ unfired then
      setBar s e.2.bar fun bar => { bar with
        drain := bar.drain ++ [⟨{ r with stopAt := some blank, repeatCount := 0 }, e.2, e.1⟩] }
    else s) s

/-- run.abort (0x0404, R87): urgent-capable. Of a CREATED or QUEUED run it releases the channels, budgets and windows (R90) and
makes its items VOID with cause 3, as of any aborted run (R351; DESIGN CHOICE, log 141). -/
def opRunAbort : OpDef where
  code := 0x0404
  urgent := true
  trained := true
  types := [tyRun]
  len b := b.length == 0
  body m s := do
    let r ← orErr (runOf s m.handle) (plainErr stNoHandle)
    let web := runPos s r.pitch
    let free := fun s : State => { s with objs := { s.objs with runs := s.objs.runs.release (hIdx m.handle) } }
    let aborted := fun (blank : Nat) (s : State) => fieldEventAt 0x0403 m.handle (some web) (le 6 blank) s
    if r.state.active then
      let blank := firstUnhanded s r
      let r' := { r with state := .ended, lastLine := blank - 1 }
      let s1 := settleItems r 3 blank (drainRun r blank s)
      let s2 := unbind r blank (setRun s1 m.handle fun _ => r')
      let s3 := recordRun m.handle ((runOf s2 m.handle).getD r') 3 s2
      let s4 := aborted blank (free s3)
      let s5 := match queuedRun s4 r.lane with
        | some (qh, _) => fieldEvent 0x0405 qh [] (setRun s4 qh fun q => { q with state := .created })
        | none => s4
      okBytes (parkBars s5) (le 6 blank)
    else
      let none_ := 0xFFFFFFFFFFFF
      let s1 := if r.state = .ended then s
        else
          let s0 := setRun (settleItems r 3 0 s) m.handle fun r => { r with state := .ended }
          recordRun m.handle r 3 (unbind r 0 s0)
      okBytes (aborted none_ (free s1)) (le 6 none_)

/-- run.destroy (0x0405, R88). -/
def opRunDestroy : OpDef where
  code := 0x0405
  trained := true
  types := [tyRun]
  len b := b.length == 0
  body m s := do
    let r ← orErr (runOf s m.handle) (plainErr stNoHandle)
    require (r.state == .created || r.state == .ended) (plainErr stState)
    let s1 := if r.state = .created then unbind r 0 (setRun s m.handle fun r => { r with state := .ended }) else s
    okState { s1 with objs := { s1.objs with runs := s1.objs.runs.release (hIdx m.handle) } }

/-- run.query (0x0406, R88). -/
def opRunQuery : OpDef where
  code := 0x0406
  trained := true
  types := [tyRun]
  len b := b.length == 0
  body m s := do
    let r ← orErr (runOf s m.handle) (plainErr stNoHandle)
    let first := match r.state with
      | .created | .queued => r.startLine
      | _ => r.firstLine
    let reps := match r.state with
      | .created | .queued => 0
      | _ => (repeatOf r (doneTo s r)).1
    okBytes s (le 1 r.state.number ++ le 1 r.lane ++ zeros 2 ++ le 6 first ++ le 6 (runPos s r.pitch) ++ le 4 reps ++
      le 8 r.linesFired)

def execChanCreate (m : Msg) (s : State) : Out := .next (message opChanCreate m s)
def execChanDestroy (m : Msg) (s : State) : Out := .next (message opChanDestroy m s)
def execChanQuery (m : Msg) (s : State) : Out := .next (message opChanQuery m s)
def execChanNextPlate (m : Msg) (s : State) : Out := .next (message opChanNextPlate m s)
def execRunCreate (m : Msg) (s : State) : Out := .next (message opRunCreate m s)
def execRunStart (m : Msg) (s : State) : Out := .next (message opRunStart m s)
def execRunStop (m : Msg) (s : State) : Out := .next (message opRunStop m s)
def execRunAbort (m : Msg) (s : State) : Out := .next (message opRunAbort m s)
def execRunDestroy (m : Msg) (s : State) : Out := .next (message opRunDestroy m s)
def execRunQuery (m : Msg) (s : State) : Out := .next (message opRunQuery m s)

end Sys2Proof.Machine
end

