-- ==== Sys2Proof/Machine/Screen.lean ====
section
/-! DEFINITION. The bench (05): the stages of one dot (R127 to R144), the patches of the colour loop (R321, R322), the
serving nozzle of R180, and OUTPUT_LINE_SCREEN. A dot is computed from the tables, the plate and the overlay window of the
device line it lands on (R125). -/

namespace Sys2Proof.Machine

/-! ### Who prints a dot (R124) -/

/-- A channel on a bar with the run whose lines it prints. -/
structure Src where
  handle : BitVec 32
  run    : Run
  chan   : Channel
  deriving DecidableEq, Repr

/-- The channels that print on a bar: of its active runs, and of aborted runs whose handed lines still fire (R87). -/
def sources (s : State) (b : Nat) : List Src :=
  (s.objs.runs.live.flatMap fun e =>
    if e.2.state.active then
      (runChannels s e.2).filterMap fun c => if c.2.bar = b then some ⟨c.1, e.2, c.2⟩ else none
    else []) ++
  (barAt s b).drain.map fun d => ⟨0, d.run, d.channel⟩

/-- The channel that prints a dot on a device line; none: level 0 (R124). -/
def srcAt (l : List Src) (x y : Nat) : Option Src :=
  l.find? fun c => c.chan.dotStart ≤ x && x < c.chan.dotStart + c.chan.dotWidth && runPrints c.run y

/-! ### Stages 1 and 2 (R97, R127 to R129) -/

/-- Taps of kernels 0 to 2 for a phase: pixel offset and weight in 1/128 (R127). -/
def kernelTaps (kernel phase : Nat) : List (Int × Int) :=
  match kernel, phase with
  | 0, _ => [(0, 128)]
  | 1, 0 => [(-1, 32), (0, 96)]
  | 1, _ => [(0, 96), (1, 32)]
  | _, 0 => [(-2, -3), (-1, 29), (0, 111), (1, -9)]
  | _, _ => [(-1, -9), (0, 111), (1, 29), (2, -3)]

/-- The pixels that straddle a dot's centre in a phase (R128). -/
def innerTaps (phase : Nat) : List Int := if phase = 0 then [-1, 0] else [0, 1]

/-- Cross-web taps of a dot: column and weight, and the inner columns, before the clamp of R129. -/
def crossTaps (format : Nat) (c : Channel) (x : Nat) : List (Int × Int) × List Int :=
  let dx := x - c.dotStart
  if format = 0 then
    let k : Int := c.plateX + dx / 2
    ((kernelTaps c.kernel (dx % 2)).map fun e => (k + e.1, e.2), (innerTaps (dx % 2)).map (k + ·))
  else
    let k : Int := c.plateX + dx
    ([(k, 128)], [k])

/-- Down-web taps of a repeat line: plate line and weight, and the inner lines. -/
def downTaps (format pitch kernel yr : Nat) : List (Int × Int) × List Int :=
  match format, pitch with
  | 0, 0 =>
    let j : Int := (yr / 2 : Nat)
    ((kernelTaps kernel (yr % 2)).map fun e => (j + e.1, e.2), (innerTaps (yr % 2)).map (j + ·))
  | 1, 1 =>
    let j : Int := (2 * yr : Nat)
    if kernel = 0 then ([(j, 128)], [j]) else ([(j, 64), (j + 1, 64)], [j, j + 1])
  | _, _ => ([((yr : Int), 128)], [(yr : Int)])

/-- Image offset of a byte of a plate line (R101). -/
def plateOffset (p : Plate) (line col : Nat) : Nat := line * strideOf p.format p.width + col

/-- An expanded pixel of a C8 plate: column clamped to the plate, line taken modulo its lines (R127, R129). -/
def pixel12 (m : Memory) (p : Plate) (col line : Int) : Int :=
  let k := (clampInt 0 ((p.width : Int) - 1) col).toNat
  let j := (line % (p.lines : Int)).toNat
  let v := (memByte m (imageAddr p (plateOffset p j k))).toNat
  ((v * 16 + v / 16 : Nat) : Int)

/-- Stage 2: the resampled value of a dot, 0 to 4,095 (R127, R128). -/
def resample (m : Memory) (p : Plate) (c : Channel) (pitch x yr : Nat) : Nat :=
  let cr := crossTaps p.format c x
  let dn := downTaps p.format pitch c.kernel yr
  let sum := sumInt (dn.1.flatMap fun j => cr.1.map fun k => pixel12 m p k.1 j.1 * k.2 * j.2)
  let v := clampInt 0 4095 ((sum + 8192) / 16384)
  let v := if c.kernel = 2 ∧ p.format = 0 then
      let inner := dn.2.flatMap fun j => cr.2.map fun k => pixel12 m p k j
      match inner with
      | [] => v
      | a :: r => clampInt (r.foldl min a) (r.foldl max a) v
    else v
  v.toNat

/-- A dot of a D2-1200 or D3-1200 plate line (R97). -/
def plateDot (m : Memory) (p : Plate) (d line : Nat) : Nat :=
  let at_ := fun o => (memByte m (imageAddr p (plateOffset p line o))).toNat
  if p.format = 2 then at_ (d / 4) / 4 ^ (d % 4) % 4
  else
    let o := 24 * (d / 64) + 3 * (d % 64) / 8
    (at_ o + 256 * (if o % 24 = 23 then 0 else at_ (o + 1))) / 2 ^ (3 * (d % 64) % 8) % 8

/-- Image offsets that a dot's fetch reads, for the damage rule (R114). -/
def dotReads (p : Plate) (c : Channel) (pitch x yr : Nat) : List Nat :=
  if p.format < 2 then
    let cols := (crossTaps p.format c x).1.map fun k => (clampInt 0 ((p.width : Int) - 1) k.1).toNat
    let lines := (downTaps p.format pitch c.kernel yr).1.map fun j => (j.1 % (p.lines : Int)).toNat
    lines.flatMap fun j => cols.map fun k => plateOffset p j k
  else
    let d := c.plateX + (x - c.dotStart)
    if p.format = 2 then [plateOffset p yr (d / 4)]
    else
      -- three bits of a dot can lie in two bytes
      let o := 24 * (d / 64) + 3 * (d % 64) / 8
      (if 5 < 3 * (d % 64) % 8 then [o, o + 1] else [o]).map (plateOffset p yr)

/-! ### Nozzles (R132, R140, R180) -/

/-- A head is out for a device line: blanked from a line at or before it, and not resumed by then (R185, R186); or it was
for the line under an earlier blanking. -/
def headOut (h : Head) (y : Nat) : Bool :=
  (h.outPast.any fun p => p.1 ≤ y && y < p.2) ||
  match h.outFrom with
  | none => false
  | some l => l ≤ y && (match h.resumeAt with | none => true | some r => y < r)

/-- A nozzle is out for a device line (R132). -/
def candOut (s : State) (b : Nat) (c : Cand) (y : Nat) : Bool :=
  nozMarked (nozEntry ((barAt s b).nozzles.at y) c.idx) || headOut (headAt s b c.slot) y

/-- A nozzle may serve as alternate or neighbour recipient: neither out nor WEAK (R132). -/
def candFree (s : State) (b : Nat) (c : Cand) (y : Nat) : Bool :=
  !candOut s b c y && !nozWeak (nozEntry ((barAt s b).nozzles.at y) c.idx)

/-- Stage 7: serving and other nozzle of a dot (R140). -/
def stage7 (s : State) (b : Nat) (t : BarTable) (x y : Nat) : Option Cand × Option Cand :=
  let m := dotMap t x
  match m.zone with
  | .stitch o i =>
    if rampEntry (some t) ((barAt s b).ramps.at y) o i ≤ stitchMaskAt (y % 64) (x % 64)
    then (m.alt, m.prim) else (m.prim, m.alt)
  | _ => (m.prim, m.alt)

/-- The nozzle that serves a dot on a device line (R180). -/
def serving (s : State) (b : Nat) (t : BarTable) (x y : Nat) : Option Cand :=
  match stage7 s b t x y with
  | (some c, some o) => if candOut s b c y ∧ candFree s b o y then some o else some c
  | (c, _) => c

/-! ### Stages 3 to 5 and the patches -/

/-- The window list of a run in force in a repeat (R340), and the detection windows that the repeat holds (R329). -/
def windowList (r : Run) (n : Nat) : List GateWindow :=
  match r.newWindows with
  | some (from_, l) => if from_ ≤ n then l else r.windows
  | none => r.windows
def windowsOf (r : Run) (n : Nat) : List GateWindow := (windowList r n).filter fun w => n % max 1 w.every == 0

/-- The patch-capable windows of a repeat, in the order in which the web reaches them, and how many came before in the run
(R321). -/
def patchWindows (r : Run) (n : Nat) : List GateWindow := sortBy (fun w => (w.linePhase : Int)) ((windowsOf r n).filter (·.patch))
def patchedBefore (r : Run) (n : Nat) : Nat :=
  let count := fun (l : List GateWindow) (n : Nat) => sumOf ((l.filter (·.patch)).map fun w => ceilDiv n (max 1 w.every))
  match r.newWindows with
  | some (from_, l) => if from_ ≤ n then count r.windows from_ + (count l n - count l from_) else count r.windows n
  | none => count r.windows n

/-- The patch tint of a dot, where a marked bin of a CORRECT CALSET lies in a patch-capable window's patch lines (R321);
successive patched windows of the run take the four tints in turn. -/
def patchTintAt (s : State) (src : Src) (b x n yr : Nat) : Option Nat :=
  match calsetOf s src.chan.calset with
  | none => none
  | some q =>
    let hit := fun (w : GateWindow) => w.dotFirst ≤ x && x < w.dotFirst + w.dotCount &&
      w.linePhase + q.params.patchLines * b ≤ yr &&
      yr < min (w.linePhase + w.lineCount) (w.linePhase + q.params.patchLines * (b + 1))
    match (patchWindows src.run n).zipIdx.find? (fun e => hit e.1) with
    | some (_, i) =>
      if q.mode = .correct ∧ q.patches ∧ q.patching.contains (x / 8) then
        some (q.params.tint.getD ((patchedBefore src.run n + i) % 4) 0)
      else none
    | none => none

/-- Stage 3 and 4 for a value: t and c (R130, R131). -/
def correct (s : State) (b : Nat) (c : Channel) (srv y v : Nat) : Nat × Nat :=
  let t := smGet (c.tone.at y) v v
  let e := nozEntry ((barAt s b).nozzles.at y) srv
  let base : Int := ((t * nozGain e + 0x4000) / 32768 : Nat)
  let z := if 0 < t then base + 16 * nozOffset e else base
  (t, (clampInt 0 4095 z).toNat)

/-- Stage 5: the level of a corrected value (R134, R135). -/
def screenLevel (c : Channel) (x y v : Nat) : Nat :=
  let scr := c.screen.at y
  ((List.range (lmaxOf c.dropBits)).filter fun k =>
    screenCell scr c.dropBits k ((x + scr.ox) % 2 ^ scr.log2w) ((y + scr.oy) % 2 ^ scr.log2h) ≤ v).length

/-- Stages 1 to 5 of a dot: its level and its demand t (R308). -/
def dotLevel (s : State) (b : Nat) (src : Src) (srv x y : Nat) : Nat × Nat :=
  let (n, yr) := repeatOf src.run y
  match plateOf s (plateFor src.chan n) with
  | none => (0, 0)
  | some p =>
    let tint := patchTintAt s src b x n yr
    if p.format < 2 then
      let v := resample s.mem p src.chan src.run.pitch x yr
      let v := if v = 0 then tint.getD 0 else v
      let (t, c) := correct s b src.chan srv y v
      (screenLevel src.chan x y c, t)
    else
      let l := plateDot s.mem p (src.chan.plateX + (x - src.chan.dotStart)) yr
      match tint with
      | some v =>
        if l = 0 then
          let (t, c) := correct s b src.chan srv y v
          (screenLevel src.chan x y c, t)
        else (l, 0)
      | none => (l, 0)

/-- A dot after stage 5: who prints it, its level, its demand, its serving and other nozzle. -/
structure Dot5 where
  src   : Src
  level : Nat
  t     : Nat
  srv   : Cand
  oth   : Option Cand

/-- Stages 1 to 5 of dot x on device line y; none where nothing prints it or no nozzle sits on it (R124). -/
def dot5 (s : State) (b : Nat) (t : BarTable) (srcs : List Src) (x y : Nat) : Option Dot5 :=
  match srcAt srcs x y, stage7 s b t x y with
  | some src, (some srv, oth) =>
    let l := dotLevel s b src srv.idx x y
    some ⟨src, l.1, l.2, srv, oth⟩
  | _, _ => none

/-! ### Stage 6 (R137 to R139) -/

/-- The substitution class of a dot's serving nozzle. -/
def classWord (s : State) (b : Nat) (srv : Cand) (y : Nat) : Nat :=
  (smGet ((barAt s b).subst.at y) substDefault (nozClass (nozEntry ((barAt s b).nozzles.at y) srv.idx))).toNat

/-- Two dots lie in the same channel span. -/
def sameSpan (a b : Src) : Bool := a.handle == b.handle && a.chan.dotStart == b.chan.dotStart

/-- A neighbouring dot is a usable recipient (R139). -/
def recipientOk (s : State) (b y : Nat) (src : Src) (d : Option Dot5) : Bool :=
  match d with
  | none => false
  | some d => sameSpan src d.src && candFree s b d.srv y

/-- What becomes of a donor (R138). -/
inductive Donor where
  | alternate (srv : Cand)
  /-- proposals to the left and to the right -/
  | neighbour (left right : Bool)
  | lost
  deriving DecidableEq, Repr

/-- The neighbour method of a donor: the sides that get a proposal (R137, R139). -/
def donorSides (y side : Nat) (left right : Bool) : Bool × Bool :=
  match side with
  | 0 =>
    if y % 2 = 0 then (if left then (true, false) else (false, right))
    else if right then (false, true) else (left, false)
  | 1 => (left, false)
  | 2 => (false, right)
  | _ => (left, right)

/-- A donor's method: the first usable one in the order of its class (R138). -/
def donorPlan (s : State) (b y : Nat) (d : Dot5) (left right : Option Dot5) : Donor :=
  let w := classWord s b d.srv y
  let sides := donorSides y (field w 4 3) (recipientOk s b y d.src left) (recipientOk s b y d.src right)
  let nb : Option Donor := if sides.1 || sides.2 then some (.neighbour sides.1 sides.2) else none
  let alt : Option Donor := match d.oth with
    | some o => if candFree s b o y then some (.alternate o) else none
    | none => none
  match w % 8 with
  | 1 => (alt.orElse fun _ => nb).getD .lost
  | 2 => (nb.orElse fun _ => alt).getD .lost
  | 3 => alt.getD .lost
  | 4 => nb.getD .lost
  | _ => .lost

/-- A dot is a donor (R138). -/
def isDonor (s : State) (b y : Nat) (d : Dot5) : Bool := d.level != 0 && candOut s b d.srv y

/-- A proposal that dot d makes to the dot on its right or left, with its level and bump (R139). -/
def proposal (s : State) (b y : Nat) (d left right : Option Dot5) (toRight : Bool) : Option (Nat × Nat) :=
  match d with
  | none => none
  | some d =>
    if isDonor s b y d then
      match donorPlan s b y d left right with
      | .neighbour l r => if (if toRight then r else l) then some (d.level, field (classWord s b d.srv y) 6 5) else none
      | _ => none
    else none

/-- The level that a proposal asks of a recipient (R139). -/
def proposed (lmax lr : Nat) (p : Option (Nat × Nat)) : Nat :=
  match p with
  | none => lr
  | some (ld, bump) => if lr = 0 then ld else min lmax (lr + bump)

/-! ### Stage 8 (R142, R143) and the whole dot -/

/-- The overlay windows that hold a dot of a channel on a device line, in record order, with the item (R142, R350). -/
def overlaysAt (s : State) (src : Src) (x y : Nat) : List Item :=
  match streamOf s src.chan.stream with
  | none => []
  | some st => st.items.filter fun i =>
    i.decided == some true && i.line ≤ y && y < i.line + i.winH && i.dotX ≤ x && x < i.dotX + i.winW

/-- One window applied to a level (R142). -/
def overlayLevel (lmax x y l : Nat) (i : Item) : Nat :=
  let set := (i.bitmap.getD (y - i.line) []).getD (x - i.dotX) false
  match i.mode, set with
  | 0, true => i.level
  | 0, false => 0
  | 1, true => 0
  | 1, false => l
  | _, true => min lmax (l + i.level)
  | _, false => l

/-- The outcome of the stages for one dot. -/
structure DotOut where
  /-- final level and drop code -/
  level : Nat
  code  : Nat
  /-- serving nozzle, and the one stage 7 chose -/
  srv   : Nat
  first : Nat
  /-- demand t, and the dot was lost (R138, R143) -/
  t     : Nat
  lost  : Bool

/-- Dot x on device line y through every stage; none where nothing prints it. -/
def dotOut (s : State) (b : Nat) (t : BarTable) (srcs : List Src) (x y : Nat) : Option DotOut :=
  let five := fun (k : Int) => if k < 0 then none else dot5 s b t srcs k.toNat y
  let z : Int := x
  match five z with
  | none => none
  | some d =>
    let lmax := lmaxOf d.src.chan.dropBits
    let plan := if isDonor s b y d then some (donorPlan s b y d (five (z - 1)) (five (z + 1))) else none
    let (level, srv, lost) : Nat × Cand × Bool := match plan with
      | some (.alternate o) => (d.level, o, false)
      | some (.neighbour _ _) => (0, d.srv, false)
      | some .lost => (0, d.srv, true)
      | none =>
        let l := proposal s b y (five (z - 1)) (five (z - 2)) (some d) true
        let r := proposal s b y (five (z + 1)) (some d) (five (z + 2)) false
        (max d.level (max (proposed lmax d.level l) (proposed lmax d.level r)), d.srv, false)
    let laid := (overlaysAt s d.src x y).foldl (fun l i => overlayLevel lmax x y l i) level
    let (level, srv, lost) : Nat × Cand × Bool :=
      if level < laid ∧ candOut s b srv y then
        match d.oth with
        | some o => if candFree s b o y then (laid, o, lost) else (0, srv, true)
        | none => (0, srv, true)
      else (laid, srv, lost)
    some { level := level, code := (d.src.chan.dropmap.at y).toNat / 16 ^ level % 16, srv := srv.idx, first := d.srv.idx
           t := d.t, lost := lost }

/-! ### Output lines -/

/-- The nozzles of a slot: bar dot, bar nozzle index and row. -/
def slotNozzleList (e : SlotRec) : List (Nat × Nat × RowRec) :=
  e.rows.flatMap fun w => (List.range w.nozzleCount).map fun j => (e.dotStart + rowDot w j, e.nozzleBase + w.nozzleFirst + j, w)

/-- Key of a demand profile: a registration window of a CALSET, over all dots (head 0) or the dots of head slot h
(h + 1) outside stitch zones (R323, R325). -/
def profileKey (calset win head : Nat) : Nat := (4 * calset + win) * 33 + head

/-- A sum added to an entry of a sparse table. -/
def smAdd (t : SMap Nat) (i n : Nat) : SMap Nat := smSet t i (smGet t 0 i + n)

/-- A sum added to the strip of a run's line, the newest strip first. -/
def addAt (run : BitVec 32) (line i n : Nat) (l : List Strip) : List Strip :=
  if l.any fun e => e.run == run && e.line == line then
    l.map fun e => if e.run = run ∧ e.line = line then { e with sums := smAdd e.sums i n } else e
  else { run := run, line := line, sums := smAdd [] i n } :: l

/-- Strips of `lines` device lines each that the web has carried past the camera are kept for 2 s more (R308). -/
def ageStrips (s : State) (q lines : Nat) (l : List Strip) : List Strip :=
  let offset := maxOf ((s.objs.camsets.live.filter fun e => e.2.active).map fun e => e.2.camOffset)
  (l.map fun e =>
    if e.passed.isNone ∧ ((4 * (e.line + lines) * q + offset : Nat) : Int) ≤ s.pos.phi32 / 2 ^ 26 then
      { e with passed := some s.time.clock } else e).filter fun e => e.passed.all fun t => s.time.clock < t + 2000000000

/-- Registration windows that hold a dot of a channel (R323): keys for the whole window and the head. -/
def profileKeys (s : State) (src : Src) (zone : Zone) (slot x : Nat) : List Nat :=
  match calsetOf s src.chan.calset with
  | none => []
  | some q => if !q.registration then [] else
    (q.regWindows.zipIdx.filter fun w => w.1.enable && w.1.dotFirst ≤ x && x < w.1.dotFirst + w.1.dotCount).flatMap fun w =>
      let k := profileKey (hIdx src.chan.calset) w.2
      k 0 :: (match zone with | .stitch _ _ => [] | _ => [k (slot + 1)])

/-- The demand of a dot entered into the strips and profiles of its bar (R308, R323); strips begin at multiples of 128
lines of the run. -/
def enterDemand (b : Nat) (s0 : State) (src : Src) (zone : Zone) (slot x y t : Nat) (s : State) : State :=
  if t = 0 ∨ !(src.run.state = .printing ∨ src.run.state = .stopping) then s else
  let keys := profileKeys s0 src zone slot x
  setBar s b fun bar => { bar with
    strips := addAt src.chan.run (y / 128 * 128) (x / 8) t bar.strips
    profile := keys.foldl (fun p k => addAt src.chan.run y k t p) bar.profile }

/-- The bench decides for each item of its channels whose window's first dot the output line holds (R350). -/
def decideItems (b n : Nat) (t : BarTable) (s : State) : State :=
  let q := barQ s b
  (s.objs.streams.live.filter fun e => (channelOf s e.2.channel).any fun c => c.bar == b).foldl (fun s e =>
    let reached := itemsWhere s e.1 fun i => i.decided.isNone && (presentSlots t).any fun h =>
      i.line ≤ n + skewOf h.2.downOffset q && (slotNozzleList h.2).any fun k => i.dotX ≤ k.1 && k.1 < i.dotX + i.winW
    reached.foldl (fun s seq =>
      let rendered := !(itemsWhere s e.1 fun i => i.seq == seq && i.state == .rendered).isEmpty
      if rendered then setItem e.1 seq (fun i => { i with decided := some true }) s
      else finishItem e.1 seq .void 1 {} s) s) s

/-- Dots lost on an output line are counted, and DOTS_LOST written at most once per second (R138, R143). -/
def noteLost (b n lost : Nat) (s : State) : State :=
  let kept := (barAt s b).lostLog.filter fun e => e.1 < n && n < e.1 + 1024
  let log := if lost = 0 then kept else (n, lost) :: kept
  let s1 := setBar s b fun bar => { bar with lostLog := log }
  if lost ≠ 0 ∧ due (barAt s b).lostAt 1000000000 s.time.clock then
    fieldEvent 0x0506 0 (le 1 b ++ zeros 3 ++ le 4 (sumOf (log.map (·.2))))
      (setBar s1 b fun bar => { bar with lostAt := some s.time.clock })
  else s1

/-- Damage that the plate reads of a dot meet (R114). -/
def damageReads (s0 : State) (src : Src) (x y : Nat) (s : State) : State :=
  if s0.mem.poison.isEmpty ∧ s0.mem.bad.isEmpty then s else
  let (n, yr) := repeatOf src.run y
  let h := plateFor src.chan n
  match plateOf s0 h with
  | none => s
  | some p => (dotReads p src.chan src.run.pitch x yr).foldl (fun s o =>
      if poisoned s0.mem (imageAddr p o) then damagePlate h o s else s) s

/-- One head slot's dots of an output line: the state with their demand and damage, the codes that its nozzles fire, and
the dots lost. -/
def screenSlot (b n : Nat) (t : BarTable) (srcs : List Src) (s0 : State) (e : Nat × SlotRec)
    (acc : State × List (Nat × Nat × Nat) × Nat) : State × List (Nat × Nat × Nat) × Nat :=
  let y := n + skewOf e.2.downOffset (barQ s0 b)
  (slotNozzleList e.2).foldl (fun acc k =>
    match dotOut s0 b t srcs k.1 y, srcAt srcs k.1 y with
    | some d, some src =>
      let s1 := if d.first = k.2.1 then
          damageReads s0 src k.1 y (enterDemand b s0 src (dotMap t k.1).zone e.1 k.1 y d.t acc.1)
        else acc.1
      (s1, if d.srv = k.2.1 ∧ d.code ≠ 0 then (k.1, d.code, k.2.1) :: acc.2.1 else acc.2.1,
       acc.2.2 + if d.first = k.2.1 then flag d.lost else 0)
    | _, _ => acc) acc

/-- A bench serves the bar (R123): none does after a failure without a spare (R154). -/
def benchServes (s : State) (b : Nat) : Bool :=
  s.bench.bench.any fun e => e.role == .working b || e.role == .loaned b

/-- The bench that is the spare, in the order in which it is wanted: shadowing, loading, on loan, in test (R153).
A bench in test after a faulty verdict is no spare until it passes (R154). -/
def spareBench (s : State) : Option Nat :=
  let find := fun (p : BenchRole → Bool) => s.bench.bench.findIdx? fun e => p e.role
  let shadow := find fun r => match r with | .shadowing _ => true | _ => false
  let load := find fun r => match r with | .loading _ => true | _ => false
  let loan := find fun r => match r with | .loaned _ => true | _ => false
  let test := find fun r => match r with | .testing false => true | _ => false
  shadow.orElse fun _ => load.orElse fun _ => loan.orElse fun _ => test

/-- A bar is left without a bench: the one that served it failed while no spare existed (R154). -/
def benchless (s : State) (b : Nat) : Bool := !benchServes s b && (spareBench s).isNone

/-- The bench may screen its next output line: at most D + 64 lines ahead of fire (R146). -/
def mayScreen (s : State) (b n : Nat) : Bool := (n : Int) ≤ barPos s b + ((fifoDepth s b + 64 : Nat) : Int)

/-- The bar's own bench shadows the spare on loan on output line n (R326): its gains are committed, and the line does not lie
before the switch line. -/
def loanShadowed (s : State) (b n : Nat) : Bool :=
  (s.objs.calsets.live.any fun e => (match e.2.recalc with | some (_, _, 2, true) => true | _ => false) &&
    (channelOf s e.2.channel).any fun c => c.bar == b) &&
  !(barAt s b).heldOwners.contains 1 && (barAt s b).nozzles.armed.all fun a => a.line ≤ n

/-- A spare that shadows the bar, or prints it on loan while the bar's own bench shadows it, has screened the same line n
(R152, R326): one more matching line. -/
def shadowLine (b n : Nat) (s : State) : State :=
  let loan := loanShadowed s b n
  { s with bench := { s.bench with
    bench := s.bench.bench.map fun e =>
      if e.role = .shadowing b ∨ (e.role = .loaned b ∧ loan) then { e with matched := e.matched + 1 } else e } }

/-- OUTPUT_LINE_SCREEN (R124 to R144, R168, R308, R350). -/
def execOutputLineScreen (bar : Fin 8) (s : State) : Out :=
  .next (
    let b := bar.val
    match (barAt s b).nextOut, (barAt s b).table with
    | some n, some t =>
      if !benchServes s b ∨ !mayScreen s b n ∨ decisionDue s b n then s else
      let s1 := decideItems b n t s
      let r := (presentSlots t).foldl (fun acc e => screenSlot b n t (sources s1 b) s1 e acc) (s1, [], 0)
      let s2 := noteLost b n r.2.2 r.1
      shadowLine b n (setBar s2 b fun x => { x with
        strips := ageStrips s (barQ s b) 128 x.strips, profile := ageStrips s (barQ s b) 1 x.profile
        nextOut := some (n + 1), outLines := ⟨n, r.2.1.reverse⟩ :: x.outLines })
    | _, _ => s)

end Sys2Proof.Machine
end

