-- ==== Sys2Proof/Machine/LineCode.lean ====
section
/-! DEFINITION. The line code of a SETT lane (08): headers (R239), the scrambler (R240, R241), bit stuffing (R242), block
alignment (R243), and the data blocks and packet bytes that a lane keeps (R254, R257, R259). Each is an operation on one
lane. -/

namespace Sys2Proof.Machine

/-- The lane's receiver is LOCKED (R243). -/
def Lane.isLocked (l : Lane) : Bool := match l.align with | .locked _ => true | _ => false

/-- A counter of R267 raised, saturating at 32 bits. -/
def count32 (n : Nat) : Nat := min (n + 1) (2 ^ 32 - 1)

/-! ### Scrambling (R240) -/

/-- One keystream bit k(n) = k(n−28) xor k(n−31), and the state after it; bit i of the state holds k(n−1−i). -/
def nextBit (s : BitVec 31) : Bool × BitVec 31 :=
  let b := s.getLsbD 27 != s.getLsbD 30
  (b, (s <<< 1) ||| (if b then 1 else 0))

/-- `n` keystream bits and the state after them. -/
def keystream : Nat → BitVec 31 → List Bool × BitVec 31
  | 0, s => ([], s)
  | n + 1, s =>
    let (b, s1) := nextBit s
    let (r, s2) := keystream n s1
    (b :: r, s2)

/-- Bytes read from bits, each least significant bit first. -/
def bytesOfBits : Nat → List Bool → Bytes
  | 0, _ => []
  | n + 1, l => BitVec.ofNat 8 (bitsOf (l.take 8)) :: bytesOfBits n (l.drop 8)

/-- A control block sent whole in clear, during which the scrambler stands still: TS1 and SYNC. -/
def clearBlock (control : Bool) (payload : Bytes) : Bool := control && (byteAt payload 0 == 0x1E || byteAt payload 0 == 0x33)

/-- The 16 payload bytes of a block scrambled, or descrambled, and the state after it (R240): byte 0 of a control block
stays in clear, and its keystream bits are dropped. -/
def scramble (s : BitVec 31) (control : Bool) (payload : Bytes) : Bytes × BitVec 31 :=
  let p := fit 16 payload
  if clearBlock control p then (p, s)
  else
    let (k, s1) := keystream 128 s
    let mixed := bytesOfBits 16 ((streamLsb p).zipWith xor k)
    (if control then p.take 1 ++ mixed.drop 1 else mixed, s1)

/-! ### Sending -/

/-- Bits with the stuffing of R242: after 20 identical bits one of the opposite value, which starts a new run. Answers the
run and the last bit too. -/
def stuff : Nat → Bool → List Bool → List Bool × Nat × Bool
  | run, last, [] => ([], run, last)
  | run, last, b :: r =>
    let n := if run ≠ 0 ∧ b = last then run + 1 else 1
    if n = 20 then
      let (o, z) := stuff 1 (!b) r
      (b :: (!b) :: o, z)
    else
      let (o, z) := stuff n b r
      (b :: o, z)

/-- A block put on the lane (R239, R240, R242): a control block has the header 1 0, a data block 0 1. -/
def Lane.send (control : Bool) (payload : Bytes) (x : Lane) : Lane :=
  let (p, scr) := scramble x.txScr control payload
  let (bits, run, last) := stuff x.txRun x.txLast (control :: (!control) :: streamLsb p)
  { x with
    txScr := scr, txRun := run, txLast := last, txCount := x.txCount + 1
    txSlack := x.txSlack - 2 * (bits.length : Int), line := (bits :: x.line).take 16 }

/-- Data blocks of a lane sent while fewer than 64 are unacknowledged (R257, R259): 16 bytes each, the last filled with
padding (R254). -/
def pumpLane : Nat → Lane → Lane
  | 0, x => x
  | fuel + 1, x =>
    if x.txBytes = [] ∨ 64 ≤ x.kept.length then x
    else
      let block := fit 16 x.txBytes
      pumpLane fuel (Lane.send false block { x with
        txBytes := x.txBytes.drop 16, kept := x.kept ++ [(x.txSeq, block)], txSeq := x.txSeq + 1 })

/-- The bytes a lane still has to send or to have acknowledged. -/
def laneLoad (l : Lane) : Nat := l.txBytes.length + 16 * l.kept.length

/-! ### Receiving -/

/-- One bit from the line (R242): after 20 identical bits the next is removed where it is the opposite value, and counted
as a violation and passed on where it is the 21st. -/
def Lane.destuff (x : Lane) (b : Bool) : Option Bool × Lane :=
  let same : Bool := x.rxRun != 0 && b == x.rxLast
  let y := { x with rxRun := if same then x.rxRun + 1 else 1, rxLast := b }
  if x.rxRun = 20 then
    if same then (some b, { y with stuffViol := count32 x.stuffViol, rxViol := true }) else (none, y)
  else (some b, y)

/-- A header at the candidate position moves the alignment state machine (R243). The bit after an invalid one begins the
next candidate of a lane that is not LOCKED (log 123). -/
def Lane.header (now : Nat) (h0 h1 : Bool) (x : Lane) : Lane :=
  let ok := h0 != h1
  let slip := { x with align := .hunt, candidate := x.candidate + 1, rxBits := [h1], rxViol := false }
  match x.align with
  | .hunt => if ok then { x with align := .try 1 } else slip
  | .try c =>
    if !ok then slip
    else if 64 ≤ c + 1 then { x with align := .locked [], lostAt := none, lockDue := true }
    else { x with align := .try (c + 1) }
  | .locked bad =>
    let bad := ((!ok) :: bad).take 64
    let lossy := 16 ≤ (bad.filter id).length
    { x with
      align := if lossy then .hunt else .locked bad
      headerErr := if ok then x.headerErr else count32 x.headerErr
      lockLoss := if lossy then min (x.lockLoss + 1) 65535 else x.lockLoss
      lostAt := if lossy then some now else x.lostAt
      lockDue := x.lockDue || lossy }

/-- One bit from the line taken (R242, R243): the second bit of a candidate shows its header; the 130th ends the block, which
waits for its step where the lane is LOCKED. -/
def Lane.takeBit (now : Nat) (x : Lane) (lineBit : Bool) : Lane :=
  match x.destuff lineBit with
  | (none, y) => y
  | (some b, y) =>
    let bits := b :: y.rxBits
    let z := { y with rxBits := bits }
    match bits with
    | [h1, h0] => Lane.header now h0 h1 z
    | _ =>
      if bits.length < 130 then z
      else
        let all := bits.reverse
        { z with
          rxBits := [], rxViol := false
          rx := if z.isLocked then z.rx ++ [⟨all.getD 0 false, all.getD 1 false, bytesOfBits 16 (all.drop 2), z.rxViol⟩] else z.rx }

/-- Every bit of a block complemented. -/
def complement (b : Bytes) : Bytes := b.map fun x => ~~~x

/-- A block as the lane reads it: complemented on an inverted lane (R246). -/
def Lane.reads (x : Lane) (b : RxBlock) : RxBlock :=
  if x.inverted then { b with h0 := !b.h0, h1 := !b.h1, payload := complement b.payload } else b

/-- The next block as the lane reads it. -/
def Lane.next? (x : Lane) : Option RxBlock := x.rx.head?.map x.reads

/-- The next block passed over, the descrambler kept in step (R260). -/
def Lane.skip (x : Lane) : Lane := { x with rx := x.rx.tail, rxScr := (keystream 128 x.rxScr).2 }

/-- The number of the next data block expected: all before it hold good packets (R258, ACK). While packets wait to be
checked it is the block in which the first of them begins. -/
def Lane.expected (x : Lane) : Nat :=
  (if x.discarding then x.rxEnd else (x.rxEnd + 2 ^ 20 - x.rxBytes.length) % 2 ^ 20) / 16

/-- The body length of a packet header is one that R254 allows. -/
def lengthOk (n : Nat) : Bool := n % 4 == 0 && 4 ≤ n && n ≤ 1000

/-- Padding words skipped where a header is expected (R254). -/
def skipPadding : Nat → Bytes → Bytes
  | 0, b => b
  | fuel + 1, b => if 4 ≤ b.length ∧ u32 b 0 = 0 then skipPadding fuel (b.drop 4) else b

/-- Bytes at the front of a stream that hold whole packets and padding. -/
def wholeBytes : Nat → Bytes → Nat
  | 0, _ => 0
  | fuel + 1, b =>
    if b.length < 4 then 0
    else if u32 b 0 = 0 then 4 + wholeBytes fuel (b.drop 4)
    else
      let n := 8 + u16 b 2
      if lengthOk (u16 b 2) ∧ n ≤ b.length then n + wholeBytes fuel (b.drop n) else 0

/-- The stream is damaged behind its first `keep` bytes: the rest is dropped, a NAK names the block in which the damaged
packet begins, and blocks are discarded until the RESUME (R258, R260). -/
def Lane.damaged (keep : Nat) (x : Lane) : Lane :=
  { x with
    rxBytes := x.rxBytes.take keep
    rxEnd := (x.rxEnd + 2 ^ 20 - (x.rxBytes.length - keep)) % 2 ^ 20
    discarding := true, nakDue := true }

/-- A data block is lost or violated (R258): whole packets before it stand. -/
def Lane.blockLost (x : Lane) : Lane := if x.discarding then x else x.damaged (wholeBytes 512 x.rxBytes)

/-- A good data block (R254, R257): its bytes from the place expected join the stream. -/
def Lane.takeData (payload : Bytes) (x : Lane) : Lane :=
  let at_ := x.rxEnd % 16
  { x with
    rxBytes := skipPadding 512 (x.rxBytes ++ payload.drop at_)
    rxEnd := (x.rxEnd + 16 - at_) % 2 ^ 20
    sinceAck := x.sinceAck + 1 }

end Sys2Proof.Machine
end

