-- ==== Sys2Proof/Machine/Packets.lean ====
section
/-! DEFINITION. What the device puts on a SETT link (08): which lanes form a link (R237), packets with their lane and their
credit (R254, R255, R262), control blocks, and fire markers (R263). -/

namespace Sys2Proof.Machine

def linkAt (s : State) (k : Nat) : Link := s.sett.links.getD k {}
def setLink (s : State) (k : Nat) (f : Link → Link) : State :=
  { s with sett := { s.sett with links := modAt s.sett.links k f } }
def laneAt (s : State) (l : Nat) : Lane := s.sett.lanes.getD l {}
def setLane (s : State) (l : Nat) (f : Lane → Lane) : State :=
  { s with sett := { s.sett with lanes := modAt s.sett.lanes l f } }

/-- The lanes of a link, in physical order (R237). -/
def linkLanes (k : Nat) : List Nat :=
  if k < 8 then [2 * k, 2 * k + 1]
  else match k with
    | 8 => [18, 19]
    | 9 => [20, 21]
    | 10 => [22]
    | 11 => [23]
    | 12 => [16]
    | _ => [17]

/-- The link of a lane (R237). -/
def linkOf (l : Nat) : Nat :=
  if l < 16 then l / 2
  else match l with
    | 16 => 12
    | 17 => 13
    | 18 | 19 => 8
    | 20 | 21 => 9
    | 22 => 10
    | _ => 11

/-- The logical lanes of a link. -/
def logicalLanes (k : Nat) : List Nat := List.range (linkLanes k).length

/-- The link's own lane of a logical number: the other where the board swaps them (R246). -/
def ownLane (s : State) (k logical : Nat) : Nat :=
  (linkLanes k).getD (if (linkAt s k).swapped then 1 - logical else logical) 0

/-- The lane that carries a logical lane of a link: a wired spare in its place (R269), or the link's own. -/
def laneFor (s : State) (k logical : Nat) : Nat :=
  match (linkAt s k).remaps.find? (fun r => r.2.2 == logical && r.2.1 == 0) with
  | some (spare, _) => spare
  | none => ownLane s k logical

/-- The link for which a lane works: a spare lane in use works for the bar link it serves (R269). -/
def servedLink (s : State) (l : Nat) : Nat :=
  ((List.range 8).find? fun k => (linkAt s k).remaps.any fun r => r.1 == l && r.2.1 == 0).getD (linkOf l)

/-- The logical number of a lane within the link for which it works. -/
def logicalOf (s : State) (l : Nat) : Nat :=
  let k := servedLink s l
  ((logicalLanes k).find? fun x => laneFor s k x == l).getD ((linkLanes k).findIdx fun x => x == l)

/-- The logical lanes of a link that carry packets (R268). -/
def carrying (s : State) (k : Nat) : List Nat := (logicalLanes k).filter fun l => !(linkAt s k).down.contains l

/-- What the device puts on a lane of a link, logged: the last 512 entries. -/
def logTx (k type l : Nat) (bytes : Bytes) (s : State) : State :=
  setLink s k fun n => { n with txLog := ((type, BitVec.ofNat 8 l :: bytes) :: n.txLog).take 512 }

/-- A control block put on a lane. -/
def putControl (k l : Nat) (payload : Bytes) (s : State) : State :=
  setLane (logTx k (byteAt payload 0) l payload s) l (Lane.send true (fit 16 payload))

/-- A packet: header, body and CRC-32C over both (R254). -/
def packetBytes (type : Nat) (body : Bytes) : Bytes :=
  let p := le 1 type ++ [0] ++ le 2 body.length ++ body
  p ++ leB 4 (crc32c p)

/-- A packet given to the lane with fewer bytes queued, the lower where they are equal (R255). -/
def putPacket (k type : Nat) (body : Bytes) (s : State) : State :=
  match leastBy (fun l => (laneLoad (laneAt s (laneFor s k l)) : Int)) (carrying s k) with
  | none => s
  | some l =>
    let lane := laneFor s k l
    let p := packetBytes type body
    setLane (logTx k type lane p s) lane fun x => pumpLane 64 { x with
      txBytes := x.txBytes ++ p
      advanceAt := if x.kept.isEmpty then s.time.clock else x.advanceAt }

/-- 64-byte units of a packet (R262). -/
def packetUnits (body : Bytes) : Nat := ceilDiv (8 + body.length) 64

/-- The partner's credit covers so many more units, counted modulo 2^16 (R262). -/
def credited (n : Link) (units : Nat) : Bool := (n.credit + 65536 - (n.sent + units) % 65536) % 65536 < 32768

/-- Waiting general packets sent as far as the credit goes (R262). -/
def flushGeneral (k : Nat) : Nat → State → State
  | 0, s => s
  | fuel + 1, s =>
    let n := linkAt s k
    match n.waiting with
    | [] => s
    | (t, b) :: rest =>
      if n.state = .active ∧ credited n (packetUnits b) then
        let s1 := setLink s k fun n => { n with waiting := rest, sent := (n.sent + packetUnits b) % 65536 }
        flushGeneral k fuel (putPacket k t b s1)
      else s

/-- A general packet sent, or kept until the partner's credit covers it (R262); none on a link that is not ACTIVE. -/
def sendGeneral (k type : Nat) (body : Bytes) (s : State) : State :=
  if (linkAt s k).state = .active then
    flushGeneral k 1024 (setLink s k fun n => { n with waiting := n.waiting ++ [(type, body)] })
  else s

/-- The logical lane of a marker: lane 1 of a two-lane link while the partner's ACKs show lane 0 without lock (R263). -/
def markLane (n : Link) (k : Nat) : Nat := if (linkLanes k).length = 2 ∧ !n.farLock0 then 1 else 0

/-- A MARK block on a link (R263, MARK payload). -/
def sendMark (k cls : Nat) (body : Bytes) (s : State) : State :=
  putControl k (laneFor s k (markLane (linkAt s k) k)) (le 1 0x66 ++ le 1 cls ++ fit 10 body ++ zeros 4) s

/-- HEAD_CMD to a bar's driver (08): command 1 head stop, 2 send head records. -/
def headCommand (b mask cmd : Nat) (s : State) : State := sendGeneral b 0x03 (le 4 mask ++ le 1 cmd ++ zeros 3) s

/-- A fire line may be handed under the driver's fire_limit (R262). -/
def fireLimitOk (n : Link) (line : Nat) : Bool := (n.fireLimit + 65536 - line % 65536) % 65536 < 32768

/-- The oldest packet of a type that a link has handed on is taken by its own step (R254; log 39). -/
def takePacket (k type : Nat) (s : State) : State :=
  setLink s k fun n => { n with inbox := n.inbox.eraseP fun e => e.1 == type }

end Sys2Proof.Machine
end

