-- ==== Sys2Proof/Machine/Sequencer.lean ====
section
/-! DEFINITION. The line sequencer (06, 07): fire blocks (R177 to R180), the lead and the deadline of a line (R18, R213,
R214), test drops (R329), fire instants with the registration trim (R210, R211), lost lines (R184, R214, R271), and what a
fired line does to its runs (R84, R85, R88, R89). -/

namespace Sys2Proof.Machine

/-! ### Windows and blocks -/

/-- drop_bits of the channel span that holds a dot; none outside every span (R178). -/
def spanBits (l : List Src) (x : Nat) : Option Nat :=
  (l.find? fun c => c.chan.dotStart ≤ x && x < c.chan.dotStart + c.chan.dotWidth).map fun c => c.chan.dropBits

/-- A window under construction: first bar dot, dots, drop_bits and codes in reverse order. -/
structure Win where
  first : Nat
  count : Nat
  bits  : Nat
  codes : List Nat

/-- Codes that one block can carry (R179). -/
def winLimit (bits : Nat) : Nat := if bits = 3 then 2645 else 3968

/-- The codes of the nozzles of a head that serve on one dot of a fire line, in row order (R180): level 0 where no run
prints the device line any more, though its output line was screened before the run was stopped (R86, R87), and where the
output line lies before line 0. -/
def servedCodes (s : State) (b n : Nat) (t : BarTable) (srcs : List Src) (e : Nat × SlotRec) (x : Nat)
    (extra : Option (Nat × Nat)) : List Nat :=
  let q := barQ s b
  (e.2.rows.filterMap fun w => if x < e.2.dotStart then none else
      (rowNozzle w (x - e.2.dotStart)).map fun j => (w, e.2.nozzleBase + w.nozzleFirst + j)).filterMap fun k =>
    let d := rowDelay k.1.rowOffset q
    if n + skewOf e.2.downOffset q < d then none else
    let y := n + skewOf e.2.downOffset q - d
    match serving s b t x y with
    | none => none
    | some c =>
      if c.idx ≠ k.2 then none
      else
        let code := if d ≤ n ∧ (srcAt srcs x y).isSome then lineCode x k.2 (n - d) else 0
        match extra with
        | some (idx, drop) => some (if idx = k.2 then drop else code)
        | none => some code
where
  /-- The code that the bench's output line holds for a nozzle on a dot. -/
  lineCode (x idx line : Nat) : Nat :=
    match (barAt s b).outLines.find? (fun o => o.line == line) with
    | none => 0
    | some o => match o.codes.find? (fun c => c.1 == x && c.2.2 == idx) with
      | some c => c.2.1
      | none => 0

/-- The windows of a head in one fire line (R178, R179), over its dots from the lowest to the highest. -/
def headWindows (s : State) (b n : Nat) (t : BarTable) (srcs : List Src) (e : Nat × SlotRec) (extra : Option (Nat × Nat)) :
    List Win :=
  let dots := (slotNozzleList e.2).map (·.1)
  match minOf dots with
  | none => []
  | some lo =>
    let r := (List.range (maxOf dots + 1 - lo)).foldl (fun (acc : List Win × Option Win) i =>
      let x := lo + i
      let flush := fun (o : Option Win) => match o with | none => acc.1 | some w => w :: acc.1
      match spanBits srcs x with
      | none => (flush acc.2, none)
      | some bits =>
        let codes := (servedCodes s b n t srcs e x extra).reverse
        match acc.2 with
        | some w =>
          if w.bits = bits ∧ w.codes.length + codes.length ≤ winLimit bits then
            (acc.1, some { w with count := w.count + 1, codes := codes ++ w.codes })
          else (w :: acc.1, some ⟨x, 1, bits, codes⟩)
        | none => (acc.1, some ⟨x, 1, bits, codes⟩)) ([], none)
    let l : List Win := match r.2 with
      | none => r.1
      | some w => w :: r.1
    (l.map fun w => { w with codes := w.codes.reverse }).reverse

/-- The fire block of a window, or the BLANK block of a head (R177, R178). -/
def blankBlock (e : Nat × SlotRec) (h : Head) (q : Nat) : FireBlock :=
  { slot := e.1, blank := true, code3 := false, last := false, wave := h.wave, delay := fireDelay e.2.downOffset q,
    winFirst := 0, winCount := 0, codes := [] }

def winBlock (e : Nat × SlotRec) (h : Head) (q : Nat) (w : Win) : FireBlock :=
  { blankBlock e h q with
    blank := false, code3 := w.bits == 3, winFirst := w.first - e.2.dotStart, winCount := w.count, codes := w.codes }

/-- A head's fire blocks carry BLANK on a fire line: from its stop until its resumption's line, less the skew (R185,
R186). -/
def headBlankOn (h : Head) (skew n : Nat) : Bool :=
  h.blank && (match h.resumeAt with | none => true | some l => n + skew < l)

/-- The blocks of one head. -/
def headBlocks (s : State) (b n : Nat) (t : BarTable) (srcs : List Src) (blank : Bool) (extra : Option (Nat × Nat))
    (e : Nat × SlotRec) : List FireBlock :=
  let q := barQ s b
  let h := headAt s b e.1
  if blank || headBlankOn h (skewOf e.2.downOffset q) n then [blankBlock e h q]
  else match headWindows s b n t srcs e extra with
    | [] => [blankBlock e h q]
    | l => l.map (winBlock e h q)

/-- The blocks of a fire line, in rising slot order, LAST on the last (R178); those of the heads for which `blank` holds
carry BLANK. -/
def lineBlocks (s : State) (b n : Nat) (t : BarTable) (blank : SlotRec → Bool) (extra : Option (Nat × Nat)) : List FireBlock :=
  let l := (presentSlots t).flatMap fun e => headBlocks s b n t (sources s b) (blank e.2) extra e
  l.zipIdx.map fun e => if e.2 + 1 = l.length then { e.1 with last := true } else e.1

/-- Codes packed as a bit stream, the first code in the lowest bits (R97, R177). -/
def packCodes (bits : Nat) (l : List Nat) : Nat := l.foldr (fun c acc => c + 2 ^ bits * acc) 0

/-- A fire block as bytes (R177): codes zero-padded to a multiple of 4 bytes. -/
def FireBlock.bytes (n : Nat) (k : FireBlock) : Bytes :=
  let bits := if k.code3 then 3 else 2
  let len := ceilDiv (ceilDiv (bits * k.codes.length) 8) 4 * 4
  le 2 n ++ le 1 (k.slot + 32 * flag k.blank + 64 * flag k.code3 + 128 * flag k.last) ++ le 1 (k.wave % 16 + 16 * (k.delay % 16)) ++
    le 2 k.winFirst ++ le 2 k.winCount ++ le len (packCodes bits k.codes)

/-! ### Slack (R213, R409) -/

/-- The trim target in force's aim: the host's target plus the registration correction, in sixteenths (R324). -/
def trimTarget (bar : Bar) : Int := clampInt (-128) 127 (bar.trimHost + bar.regCorr)

/-- The largest fire_ahead of the channels that print on a bar. -/
def barFa (s : State) (b : Nat) : Nat := maxOf ((sources s b).map fun c => c.chan.fireAhead)

/-- Slack of line n handed now, in 1/16 line: its distance from the fire phase with the trim target included, less FA and
the 2 LP of R19 (R213). -/
def slackOf (s : State) (b n : Nat) : Int :=
  let phase := (s.pos.phi32 * 16 - trimTarget (barAt s b) * 2 ^ 32) * 16 / ((barQ s b : Int) * 2 ^ 32)
  16 * (n : Int) - phase - 16 * ((barFa s b : Int) + 2)

/-- The slack of a line entered into the bar's present window (R409); of a line never handed it is taken at its instant, and so
is negative. -/
def noteSlack (b n : Nat) (s : State) : State :=
  if !barActive s b then s else
  let k := slackOf s b n
  setBar s b fun bar => { bar with
    slackMin := some (match bar.slackMin with | none => k | some m => min m k)
    slackLines := bar.slackLines + 1 }

/-! ### Lost lines -/

/-- An item has a dot on fire line n of a bar: on some row of some head, the row's device line lies in the item's window
and a nozzle of the row on one of its dots (R166, R352). -/
def itemOnLine (t : BarTable) (q n : Nat) (i : Item) : Bool :=
  (presentSlots t).any fun e => e.2.rows.any fun w =>
    let d := rowDelay w.rowOffset q
    let y := n + skewOf e.2.downOffset q - d
    d ≤ n + skewOf e.2.downOffset q && i.line ≤ y && y < i.line + i.winH &&
      (List.range w.nozzleCount).any fun j =>
        let x := e.2.dotStart + rowDot w j
        i.dotX ≤ x && x < i.dotX + i.winW

/-- The streams whose channel is on a bar. -/
def barStreams (s : State) (b : Nat) : List Nat :=
  (s.objs.streams.live.filter fun e => (channelOf s e.2.channel).any fun c => c.bar == b).map (·.1)

/-- Every item of a bar that meets a test on fire line n changed. -/
def itemsOnLine (b n : Nat) (p : Item → Bool) (f : Item → Item) (s : State) : State :=
  match (barAt s b).table with
  | none => s
  | some t => (barStreams s b).foldl (fun s slot =>
      (itemsWhere s slot fun i => p i && itemOnLine t (barQ s b) n i).foldl (fun s q => setItem slot q f s) s) s

/-- Fire line n of a bar is lost: the items with a dot on it lose a line (R352), those on which the bench has not decided
yet with them. -/
def loseFireLine (b n : Nat) (s : State) : State :=
  itemsOnLine b n (fun i => i.state == .fired || (i.state == .rendered && i.decided != some false))
    (fun i => { i with lostLine := true }) s

/-- Whether a run has a channel on a bar. -/
def runOn (s : State) (b : Nat) (r : Run) : Bool := (runBars s r).contains b

/-- LINE_MISSED with the lines missed since the last, at most once per second (R214, R271). -/
def tellMissed (b : Nat) (s : State) : State :=
  let bar := barAt s b
  if bar.missedNew ≠ 0 ∧ due bar.missedAt 1000000000 s.time.clock then
    fieldEventAt 0x070A 0 (some (runPos s 0)) (le 1 b ++ zeros 3 ++ le 4 bar.missedNew)
      (setBar s b fun bar => { bar with missedNew := 0, missedAt := some s.time.clock })
  else s

/-- One fire line of a bar missed (R214, R271); it counts once. -/
def missLine (b n : Nat) (s : State) : State :=
  if (barAt s b).missedAhead.contains n then s else
  let s1 := setBar (loseFireLine b n s) b fun bar =>
    { bar with missed := (bar.missed + 1) % 2 ^ 32, missedNew := bar.missedNew + 1 }
  tellMissed b (auditRuns (runOn s b) (fun a => { a with missed := a.missed + 1 }) s1)

/-! ### Handing a line to the lanes -/

/-- Every part of the serve data changes for the lines on which fire line n lands has been sent, and of those in force at
once (R181, R256). -/
def servedUpTo (s : State) (b n : Nat) : Bool := (barAt s b).serve.all fun c => n + barSkew s b < c.line

/-- A bar's line can be handed: a table, an ACTIVE link, the driver's fire_limit (R262) and its serve data (R256). -/
def mayHand (s : State) (b n : Nat) : Bool :=
  (barAt s b).table.isSome && (linkAt s b).state == .active && (barAt s b).driver == 1 && fireLimitOk (linkAt s b) n &&
    servedUpTo s b n &&
    (match (barAt s b).resumeLine with | none => true | some r => r ≤ n)

/-- The fire phase of a bar lies more than 2 lines before line n (R214). -/
def twoAhead (s : State) (b n : Nat) : Bool := s.pos.phi32 < fireAt (barAt s b) (barQ s b) n - 2 * (barQ s b : Int) * 2 ^ 28

/-- The blocks of line n handed to the lanes; the bench's output lines older than any row delay are dropped. -/
def handLine (b n : Nat) (missed : Bool) (blocks : List FireBlock) (s : State) : State :=
  let s1 := blocks.foldl (fun s k => putPacket b 0x01 (k.bytes n) s) s
  noteSlack b n (setBar s1 b fun bar => { bar with
    handed := (n, missed, blocks) :: bar.handed
    nextPack := some (n + 1)
    outLines := bar.outLines.filter fun o => n < o.line + 64 })

/-! ### Test drops (R329, R322) -/

/-- Device lines at the start of a window that patches may use for this bar, where the window carries both flags (R340;
DEDUCED: patch_lines for each bar up to this one, log 37). -/
def patchRows (s : State) (r : Run) (b : Nat) (w : GateWindow) : Nat :=
  if !w.patch then 0 else
  maxOf ((runChannels s r).map fun e => match calsetOf s e.2.calset with
    | some q => if q.patches then q.params.patchLines * (b + 1) else 0
    | none => 0)

/-- A gate window of a source holds dot x on device line y for a test drop (R329). -/
def gateWindowAt (s : State) (src : Src) (b x y : Nat) : Bool :=
  let (rep, yr) := repeatOf src.run y
  (windowsOf src.run rep).any fun w => w.gate && w.dotFirst ≤ x && x < w.dotFirst + w.dotCount &&
    w.linePhase + patchRows s src.run b w ≤ yr && yr < w.linePhase + w.lineCount

/-- A nozzle of a bar with its slot, row and dot. -/
def nozzleAt (t : BarTable) (idx : Nat) : Option (Nat × SlotRec × RowRec × Nat) :=
  (presentSlots t).findSome? fun e => e.2.rows.findSome? fun w =>
    let base := e.2.nozzleBase + w.nozzleFirst
    if base ≤ idx ∧ idx < base + w.nozzleCount then some (e.1, e.2, w, e.2.dotStart + rowDot w (idx - base)) else none

/-- A nozzle can be tested: not out, on a dot that some gate window of an active run covers, and not a redundant-row
nozzle whose primary prints (R329). -/
def testable (s : State) (b : Nat) (t : BarTable) (idx : Nat) : Bool :=
  match nozzleAt t idx with
  | none => false
  | some (slot, _, row, x) =>
    let y := (barPos s b).toNat
    let m := dotMap t x
    !candOut s b ⟨slot, row, idx⟩ y &&
    (match m.zone, m.prim with
      | .redundant, some p => p.idx == idx || candOut s b p y
      | _, _ => true) &&
    (sources s b).any fun c => c.chan.dotStart ≤ x && x < c.chan.dotStart + c.chan.dotWidth &&
      (windowList c.run (repeatOf c.run y).1).any fun w => w.gate && w.dotFirst ≤ x && x < w.dotFirst + w.dotCount

/-- The next nozzle to test: the one under test, those placed first, else the next of the scan (R332, R333). -/
def nextTest (s : State) (b : Nat) (t : BarTable) : Option Nat :=
  let g := (barAt s b).gate
  match g.testing with
  | some (i, _) => some i
  | none => match g.first.find? (testable s b t) with
    | some i => some i
    | none => ((List.range (nozzleCountOf t - g.scan)).map (g.scan + ·)).find? fun i =>
        !g.early.contains i && testable s b t i

/-- A test drop for fire line n: the nozzle under test and its code, where the line lets it fire (R329, R322). -/
def testDrop (s : State) (b n : Nat) (t : BarTable) : Option (Nat × Nat) :=
  let g := (barAt s b).gate
  if g.source = 0 ∨ g.drop.isSome ∨ s.thermal.step ≠ 0 then none else
  match nextTest s b t with
  | none => none
  | some idx => match nozzleAt t idx with
    | none => none
    | some (slot, rec, row, x) =>
      let q := barQ s b
      let d := rowDelay row.rowOffset q
      let y := n + skewOf rec.downOffset q - d
      let taken := (barAt s b).outLines.any fun o => o.line + d == n && o.codes.any fun c => c.1 == x
      match srcAt (sources s b) x y, serving s b t x y with
      | some src, some c =>
        if d ≤ n + skewOf rec.downOffset q ∧ c.idx = idx ∧ !taken ∧ gateWindowAt s src b x y ∧ !headBlankOn (headAt s b slot) (skewOf rec.downOffset q) n
        then some (idx, (src.chan.dropmap.at y).toNat / 16 ^ g.level % 16) else none
      | _, _ => none

/-- The test drop of a handed line in flight. -/
def startDrop (b n : Nat) (drop : Option (Nat × Nat)) (s : State) : State :=
  match drop with
  | none => s
  | some (idx, _) => setBar s b fun bar =>
    let g := bar.gate
    { bar with gate := { g with
        drop := some (idx, n, false), dropAt := none, testing := some (g.testing.getD (idx, [])) } }

/-- Items whose first code the line carries become FIRED with the settings their stream has now (R365), and Cairn learns it
(R351). -/
def itemsFired (b n : Nat) (s : State) : State :=
  match (barAt s b).table with
  | none => s
  | some t => (barStreams s b).foldl (fun s slot =>
      let st := s.objs.streams.at? slot
      let sid := (st.map fun st => st.streamId).getD 0
      let vc := (st.map fun st => st.verifyCfg).getD {}
      let rc := (st.map fun st => st.rejectCfg).getD {}
      (itemsWhere s slot fun i => i.state == .rendered && i.decided == some true && itemOnLine t (barQ s b) n i).foldl
        (fun s q =>
          let s1 := setItem slot q (fun i => { i with state := .fired, verifyCfg := vc, rejectCfg := rc }) s
          { s1 with vd := { s1.vd with
            cairn := s1.vd.cairn.map fun e => if e.1 = sid ∧ e.2.1 = q then (e.1, e.2.1, e.2.2.1, 2) else e } }) s) s

/-- FIRE_LINE_PACK (R166, R177 to R180, R18, R214, R255, R262, R329, R351, R409): the next fire line of a bar packed and
handed to the lanes, once every output line it draws on is screened, while its lead stays within D less 8 lines. A bar
that no bench can serve is blank: its lines are handed as BLANK blocks, their dots lost (R154). -/
def execFireLinePack (bar : Fin 8) (s : State) : Out :=
  .next (
    let b := bar.val
    match (barAt s b).nextPack, (barAt s b).nextOut, (barAt s b).table with
    | some n, some out, some t =>
      let open_ : Bool := mayHand s b n ∧ twoAhead s b n ∧ (n : Int) ≤ barPos s b + (fifoDepth s b : Int) - 8
      if open_ && benchless s b then
        loseFireLine b n (handLine b n true (lineBlocks s b n t (fun _ => true) none)
          (setBar s b fun x => { x with nextOut := some (max out (n + 1)) }))
      else if open_ && n < out then
        let drop := testDrop s b n t
        let blocks := lineBlocks s b n t (fun _ => false) drop
        let s1 := handLine b n false blocks s
        startDrop b n drop (if blocks.any (fun k => !k.blank) then itemsFired b n s1 else s1)
      else s
    | _, _, _ => s)

/-- A head's block of fire line n is not ready: some row of it draws on an output line not screened yet (R214). -/
def headUnready (q n out : Nat) (e : SlotRec) : Bool := e.rows.any fun w => out + rowDelay w.rowOffset q ≤ n

/-- A fire line handed at its deadline (R214): the blocks not ready carry BLANK, and the line is missed if there are any. -/
def handLate (b n out : Nat) (t : BarTable) (s : State) : State :=
  let late := headUnready (barQ s b) n out
  let missed := (presentSlots t).any fun e => late e.2
  let blocks := lineBlocks s b n t late none
  let s1 := handLine b n missed blocks s
  let s2 := if blocks.any fun k => !k.blank then itemsFired b n s1 else s1
  if missed then setBar (missLine b n s2) b fun bar => { bar with missedAhead := (n :: bar.missedAhead).take 512 } else s2

/-- LINE_DEADLINE (R214): a line not handed 2 lines before its fire instant goes out with BLANK for what is not ready. -/
def execLineDeadline (bar : Fin 8) (s : State) : Out :=
  .next (
    let b := bar.val
    match (barAt s b).nextPack, (barAt s b).nextOut, (barAt s b).table with
    | some n, some out, some t => if mayHand s b n ∧ !twoAhead s b n then handLate b n out t s else s
    | _, _, _ => s)

/-! ### Fire instants -/

/-- The trim one line further on its way to the target (R211). -/
def nextTrim (bar : Bar) : Int :=
  let target := 4 * trimTarget bar
  if bar.trim4 < target then bar.trim4 + 1 else if target < bar.trim4 then bar.trim4 - 1 else bar.trim4

/-- A printed line of a channel counted: the channel's and the run's counters and the run's plate entry (R82, R88, R527). -/
def countLine (src : Src) (y : Nat) (s : State) : State :=
  let s1 := setChannel s src.handle fun c => { c with linesPrinted := c.linesPrinted + 1, runLines := c.runLines + 1 }
  let (rep, yr) := repeatOf src.run y
  let plate := plateFor src.chan rep
  let whole := flag (yr + 1 == repeatLen src.run rep)
  setRun s1 src.chan.run fun r =>
    let fired := (runChannels s1 r).map fun e => e.2.runLines
    let same := fun (p : PlateEntry) => p.bar == src.chan.bar && p.plate == plate
    let plates := if r.audit.plates.any same then
        r.audit.plates.map fun p => if same p then { p with lines := p.lines + 1, repeats := p.repeats + whole } else p
      else
        let q := plateOf s1 plate
        r.audit.plates ++ [⟨src.chan.bar, plate, (q.map fun p => p.hash).getD 0, (q.map fun p => p.damaged).getD false,
          whole, 1⟩]
    { r with linesFired := (minOf fired).getD 0, audit := { r.audit with plates := plates } }

/-- The device line that fire line n of a bar makes whole, counted for every channel that prints it; of an aborted run the
channel alone counts it (R82, R87). -/
def countFired (b n : Nat) (s : State) : State :=
  let y := (n : Int) - lastFireLine s b 0
  if y < 0 then s
  else
    let s1 := (sources s b).foldl (fun s src =>
      if src.handle ≠ 0 ∧ runPrints src.run y.toNat then countLine src y.toNat s else s) s
    ((barAt s b).drain.filter fun d => runPrints d.run y.toNat).foldl
      (fun s d => setChannel s d.handle fun c => { c with linesPrinted := c.linesPrinted + 1 }) s1

/-- STARTED at the earliest fire line of a run (R84). -/
def startRuns (b n : Nat) (s : State) : State :=
  s.objs.runs.live.foldl (fun s e =>
    let r := e.2
    if r.state.active && !r.started && runOn s b r && r.firstLine ≤ n + runSkew s r then
      let h := s.objs.runs.handle tyRun e.1
      fieldEventAt 0x0401 h (some (runPos s r.pitch)) (le 6 r.firstLine)
        (setRun s h fun r => { r with started := true, state := if r.state = .armed then .printing else r.state })
    else s) s

/-- The measured line rate of the runs whose first bar fires (R89). -/
def noteRate (b : Nat) (s : State) : State :=
  s.objs.runs.live.foldl (fun s e =>
    let r := e.2
    if r.state.active && r.started && (runBars s r).head? == some b then
      let h := s.objs.runs.handle tyRun e.1
      let gap := (r.lastFireAt.map fun t => s.time.clock - t).getD 0
      let fast := r.lastFireAt.isSome && r.maxRate * 101 * gap < 100 * 1000000000
      let lines := if fast then r.fastLines + 1 else 0
      let tell := fast && 1024 ≤ lines && due r.overspeedAt 1000000000 s.time.clock
      let s1 := setRun s h fun r => { r with
        lastFireAt := some s.time.clock
        fastLines := lines
        overspeedAt := if tell then some s.time.clock else r.overspeedAt }
      if tell then
        fieldEventAt 0x0404 h (some (runPos s r.pitch)) (le 4 (1000000000 / max 1 gap) ++ le 4 r.maxRate) s1
      else s1
    else s) s

/-- Every line that a run prints on its bars has fired (R85). -/
def runDone (s : State) (r : Run) (e : Nat) : Bool :=
  (runBars s r).all fun b => match (barAt s b).nextFire with
    | none => true
    | some n => lastFireLine s b (e - 1) < (n : Int)

/-- Runs whose last line has fired end (R85, R86). -/
def endRuns (s : State) : State :=
  s.objs.runs.live.foldl (fun s e =>
    match s.objs.runs.at? e.1 with
    | none => s
    | some r => match runEnd r with
      | none => s
      | some l => if r.state.active && r.started && runDone s r l then
          endRun (s.objs.runs.handle tyRun e.1) r.cause (l - 1) s else s) s

/-- Channels of aborted runs whose handed lines have all fired leave the bar (R87). -/
def dropDrained (b : Nat) (s : State) : State :=
  parkBars (setBar s b fun bar =>
    { bar with drain := bar.drain.filter fun d => match d.run.stopAt, bar.nextFire with
        | some e, some n => (n : Int) ≤ lastFireLine s b (e - 1)
        | _, _ => false })

/-- The instant of a line passes (R328); a test drop on it fired only if its line did and FIRE_EN was high (R330). -/
def dropInstant (b n : Nat) (fired : Bool) (s : State) : State :=
  setBar s b fun bar =>
    let g := { bar.gate with instants := ((n, s.time.clock) :: bar.gate.instants).take 64 }
    match g.drop with
    | some (i, l, _) => if l = n then { bar with gate := { g with drop := some (i, l, fired), dropAt := some s.time.clock } }
      else { bar with gate := g }
    | none => { bar with gate := g }

/-- A bar's lines fire: its link is ACTIVE, its driver up, and the line of resumption reached (R271). -/
def barFires (s : State) (b n : Nat) : Bool :=
  (linkAt s b).state == .active && (barAt s b).driver == 1 &&
    (match (barAt s b).resumeLine with | none => true | some r => r ≤ n)

/-- A line whose instant falls while FIRE_EN is low (R184). -/
def suppressLine (b n : Nat) (s : State) : State :=
  let s1 := setBar (loseFireLine b n s) b fun bar => { bar with suppressed := bar.suppressed + 1 }
  auditRuns (runOn s b) (fun a => { a with suppressed := a.suppressed + 1 }) s1

/-- What becomes of fire line n at its instant: its marker goes out (R212); it is missed while the link is down or before
the line of resumption (R271), or when it never was handed (R214); lost while FIRE_EN is low (R184); printed otherwise. -/
def fireLine (b n : Nat) (s : State) : State :=
  let linked := barFires s b n
  let handed := (barAt s b).handed.any fun e => e.1 == n
  let whole := (barAt s b).handed.any fun e => e.1 == n && !e.2.1
  let fires := linked && handed && fireEn s b
  let s1 := if linked then sendMark b 0 (le 2 n ++ zeros 8) s else s
  let s2 := if fireEn s b then s1 else suppressLine b n s1
  let s3 := if linked && handed then s2 else
    missLine b n (setBar (if handed then s2 else noteSlack b n s2) b fun bar =>
      { bar with nextPack := bar.nextPack.map fun p => max p (n + 1), nextOut := bar.nextOut.map fun o => max o (n + 1) })
  let s4 := dropInstant b n fires (if fires && whole then countFired b n s3 else s3)
  tellMissed b (setBar s4 b fun bar => { bar with missedAhead := bar.missedAhead.filter (· != n) })

/-- The bar's next fire line fires, once Φ has reached its instant with the trim moved one step (R210, R211). -/
def fireNext (b : Nat) (s : State) : State :=
  match (barAt s b).nextFire with
  | none => s
  | some n =>
    let trim := nextTrim (barAt s b)
    if s.pos.phi32 < fireAt { barAt s b with trim4 := trim } (barQ s b) n then s else
    let s1 := setBar s b fun bar => { bar with
      trim4 := trim
      nextFire := some (n + 1) }
    let s1 := if trim = (barAt s b).trim4 then s1 else disturb b n s1
    let s2 := startRuns b n (fireLine b n s1)
    let s3 := setBar s2 b fun bar => { bar with handed := bar.handed.filter fun e => n < e.1 }
    dropDrained b (endRuns (noteRate b s3))

/-- FIRE_INSTANT (R210 to R212, R184, R84, R85, R88, R89, R263, R28). -/
def execFireInstant (bar : Fin 8) (s : State) : Out := .next (fireNext bar.val s)

/-- The bars' line counters after Φ has been set (R206, R232): no bar fires a boundary that Φ has passed over; each passed
line is lost to its items. -/
def skipLines (s : State) : State :=
  (List.range 8).foldl (fun s b =>
    match (barAt s b).nextFire with
    | none => s
    | some n =>
      let next := max n ((barPos s b) + 1).toNat
      let s1 := (List.range (next - n)).foldl (fun s i => loseFireLine b (n + i) s) s
      setBar s1 b fun bar => { bar with
        nextFire := some next
        nextPack := bar.nextPack.map fun p => max p next
        nextOut := bar.nextOut.map fun p => max p next
        handed := bar.handed.filter fun e => next ≤ e.1 }) s

end Sys2Proof.Machine
end

