-- ==== Sys2Proof/Machine/Heads.lean ====
section
/-! DEFINITION. Bars and heads (06): the geometry messages, head records and their checks (R171 to R173), waveform bands
(R174 to R176), head temperature limits (R468 to R470), blanking and resumption (R185 to R187), FIRE_EN (R183, R191) and
serve data (R181, R256). -/

namespace Sys2Proof.Machine

/-- A message that names a bar: its number and the committed table it needs. -/
def needTable (s : State) (b : Nat) : Except OpErr BarTable := orErr (barAt s b).table (plainErr stState)

/-! ### Blank causes -/

/-- Causes of a head replaced by another set, sorted. -/
def withCauses (b slot : Nat) (f : List Nat → List Nat) (s : State) : State :=
  setHead s b slot fun h => { h with causes := (List.range 8).filter fun c => (f h.causes).contains c }

/-- The record causes of a head replaced: none, or the one of its last check (R172). -/
def recordCause (b slot : Nat) (cause : Option Nat) (s : State) : State :=
  withCauses b slot (fun l => (l.filter fun c => 5 < c) ++ cause.toList) s

/-- The record checks of R172 on a reported head; none: every check passes. -/
def checkRecord (e : SlotRec) (h : Head) : Option Nat :=
  let r := h.record.getD []
  let rowsOk := e.rows.zipIdx.all fun w =>
    distInt (((u16 r (24 + 2 * w.2) * 96 + 635) / 1270 : Nat) : Int) (w.1.rowOffset : Int) ≤ 8
  if h.reported ≠ some true then some 1
  else if w32 r 60 ≠ crc32c (slice r 0 60) ∨ byteAt r 0 ≠ 1 ∨ byteAt r 1 < 0x41 ∨ 0x48 < byteAt r 1 then some 2
  else if u16 r 2 ≠ e.typeCode then some 3
  else if u16 r 20 ≠ slotNozzles e ∨ byteAt r 22 ≠ e.rows.length then some 4
  else if !rowsOk then some 4
  else match h.serial with
    | some old => if old = slice r 4 16 then none else some 5
    | none => none

/-- A reported head checked against its slot record: accepted with its serial, or rejected (R172, R173). -/
def judgeHead (b slot : Nat) (s : State) : State :=
  match (barAt s b).table with
  | none => s
  | some t =>
    let e := t.slots.getD slot {}
    let h := headAt s b slot
    if !e.present ∨ h.reported = none then s
    else match checkRecord e h with
      | none =>
        let s1 := setHead s b slot fun h => { h with
          accepted := true
          serial := some (slice (h.record.getD []) 4 16)
          reportAt := some (h.reportAt.getD s.time.clock) }
        recordCause b slot none s1
      | some c =>
        fieldEvent 0x0601 0 [BitVec.ofNat 8 b, BitVec.ofNat 8 slot, BitVec.ofNat 8 c]
          (recordCause b slot (some c) (setHead s b slot fun h => { h with accepted := false }))

/-! ### Geometry messages -/

/-- The staged table of a bar: the committed slots with the staged records over them (R188). -/
def stagedTable (bar : Bar) (width : Nat) : BarTable :=
  let base := (bar.table.map fun t => t.slots).getD (List.replicate 32 {})
  { width := width, slots := base.zipIdx.map fun e => smGet bar.staged e.1 e.2 }

/-- bar.geom_write (0x0601, R162, R163, R188). -/
def opBarGeomWrite : OpDef where
  code := 0x0601
  len b := 4 ≤ b.length && (walkSlots b (byteAt b 1) 4).2 == b.length
  fields m _ :=
    let b := m.payload
    [within (byteAt b 0) 0 7 0, within (byteAt b 1) 1 28 1, reserved b 2 2] ++
      (walkSlots b (byteAt b 1) 4).1.flatMap (slotFields b)
  body m s :=
    let b := m.payload
    let recs := (walkSlots b (byteAt b 1) 4).1.map (parseSlot b)
    okState (setBar s (byteAt b 0) fun bar => { bar with staged := recs.foldl (fun t e => smSet t e.1 e.2) bar.staged })

/-- bar.geom_commit (0x0602, R165, R189). -/
def opBarGeomCommit : OpDef where
  code := 0x0602
  len b := b.length == 8
  fields m _ :=
    let b := m.payload
    let w := u32 b 4
    [within (byteAt b 0) 0 7 0, reserved b 1 3, (w % 64 == 0 && 64 ≤ w && w ≤ 106496, 4)]
  body m s := do
    let b := byteAt m.payload 0
    let t := stagedTable (barAt s b) (u32 m.payload 4)
    match commitRefusal (s.objs.channels.live.any fun e => e.2.bar == b) t with
    | some (c, x, y) => .error ⟨stState, le 1 c ++ le 1 x ++ le 1 y ++ zeros 1⟩
    | none =>
      let s1 := setBar s b fun bar => { bar with
        table := some t
        staged := []
        ramps := ⟨[], [], none⟩
        heads := bar.heads.map fun h => { h with serial := none } }
      let s2 := pushServe b 2 0 (pushServe b 0 0 s1)
      okState ((presentSlots t).foldl (fun s e => judgeHead b e.1 s) s2)

/-- A head is blanked: some cause is present (R185). -/
def headBlanked (h : Head) : Bool := !h.causes.isEmpty

/-- bar.query (0x0603, R170). -/
def opBarQuery : OpDef where
  code := 0x0603
  len b := b.length == 4
  fields m _ := [within (byteAt m.payload 0) 0 7 0, reserved m.payload 1 3]
  body m s := do
    let b := byteAt m.payload 0
    let t ← needTable s b
    let bar := barAt s b
    let present := (List.range 32).map fun h => (t.slots.getD h {}).present
    let blanked := (List.range 32).map fun h => (t.slots.getD h {}).present && headBlanked (headAt s b h)
    okBytes s (le 4 t.width ++ le 4 (bitsOf present) ++ le 4 (nozzlesIn t) ++ le 4 (gapDots t) ++ le 4 (skewMax t 16) ++
      le 4 (rowDelayNeed t 0 t.width 2 16) ++ le 4 (rowDelayNeed t 0 t.width 3 16) ++ le 4 (bitsOf blanked) ++
      le 1 (flag (fireEn s b) + 2 * flag bar.enable + 4 * flag (ilkPermit s b)) ++ le 1 bar.driver ++ le 2 bar.fifo ++
      zeros 4 ++ le 8 bar.suppressed)

/-- head.query (0x0604, R169). -/
def opHeadQuery : OpDef where
  code := 0x0604
  len b := b.length == 4
  fields m _ := [within (byteAt m.payload 0) 0 7 0, within (byteAt m.payload 1) 0 31 1, reserved m.payload 2 2]
  body m s := do
    let b := byteAt m.payload 0
    let slot := byteAt m.payload 1
    let t ← needTable s b
    let e := t.slots.getD slot {}
    let h := headAt s b slot
    let state := if !e.present then 0 else if headBlanked h then 2 else 1
    let rows := (List.range 8).map fun i => (e.rows[i]?).map fun w => (rowDelay w.rowOffset 16, (w.rowOffset : Int))
    let delays := rows.flatMap fun r => le 1 ((r.map fun p => p.1).getD 0)
    let residuals := rows.flatMap fun r => leS 1 ((r.map fun p => p.2 - 16 * (p.1 : Int)).getD 0)
    okBytes s (le 1 state ++ le 1 (bitsOf ((List.range 7).map fun c => h.causes.contains (c + 1))) ++ le 1 h.band ++
      le 1 h.wave ++ (match h.temp with | none => le 2 0x8000 | some v => leS 2 v) ++ zeros 2 ++
      le 4 (if e.present then skewOf e.downOffset 16 else 0) ++ le 1 (if e.present then fireDelay e.downOffset 16 else 0) ++
      zeros 3 ++ delays ++ residuals ++ fit 64 (h.record.getD []) ++ zeros 16)

/-- The present slots that a mask names. -/
def namedSlots (t : BarTable) (mask : Nat) : List Nat := ((presentSlots t).map (·.1)).filter (bit mask)

/-- head.blank (0x0605, R190): urgent-capable. -/
def opHeadBlank : OpDef where
  code := 0x0605
  urgent := true
  len b := b.length == 8
  fields m _ := [within (byteAt m.payload 0) 0 7 0, reserved m.payload 1 3]
  body m s := do
    let b := byteAt m.payload 0
    let t ← needTable s b
    okState ((namedSlots t (u32 m.payload 4)).foldl (fun s h => withCauses b h (7 :: ·) s) s)

/-- head.unblank (0x0606, R173, R190): causes 5 and 7 are cleared on every slot named, present or not. -/
def opHeadUnblank : OpDef where
  code := 0x0606
  len b := b.length == 8
  fields m _ := [within (byteAt m.payload 0) 0 7 0, reserved m.payload 1 3]
  body m s := do
    let b := byteAt m.payload 0
    let _ ← needTable s b
    okState (((List.range 32).filter (bit (u32 m.payload 4))).foldl (fun s i =>
      let s1 := if (headAt s b i).causes.contains 5 then
          setHead s b i fun h => { h with
            accepted := true
            serial := some (slice (h.record.getD []) 4 16)
            reportAt := some (h.reportAt.getD s.time.clock) }
        else s
      withCauses b i (fun l => l.filter fun c => c != 5 && c != 7) s1) s)

/-- head.band_map (0x0607, R174). -/
def opHeadBandMap : OpDef where
  code := 0x0607
  len b := b.length == 32
  fields m _ :=
    let b := m.payload
    [within (byteAt b 0) 0 7 0, reserved b 1 3] ++
      ((List.range 6).map fun k =>
        let rising : Bool := s16 b (8 + 2 * k) ≤ s16 b (10 + 2 * k)
        (rising, 8 + 2 * k)) ++
      ((List.range 8).map fun k => within (byteAt b (22 + k)) 0 15 (22 + k)) ++ [reserved b 30 2]
  body m s := do
    let b := m.payload
    let bar := byteAt b 0
    let _ ← needTable s bar
    let bounds := (List.range 7).map fun k => s16 b (8 + 2 * k)
    let waves := (List.range 8).map fun k => byteAt b (22 + k)
    okState (((List.range 32).filter (bit (u32 b 4))).foldl (fun s i =>
      setHead s bar i fun h => { h with bounds := bounds, waves := waves }) s)

/-- bar.fire_enable (0x0608, R183, R191): urgent only when it clears every bar it names. -/
def opBarFireEnable : OpDef where
  code := 0x0608
  urgent := true
  urgentIf m := (List.range 8).all fun b => !(bit (byteAt m.payload 0) b && bit (byteAt m.payload 1) b)
  len b := b.length == 4
  fields m _ := [reserved m.payload 2 2]
  body m s := do
    let mask := byteAt m.payload 0
    let value := byteAt m.payload 1
    require ((List.range 8).all fun b => !(bit mask b && bit value b) || (barAt s b).table.isSome) (plainErr stState)
    let s1 := { s with bars := s.bars.zipIdx.map fun e => if bit mask e.2 then { e.1 with enable := bit value e.2 } else e.1 }
    okState (noteFireEn 0 s s1)

/-! ### Temperature limits of heads -/

/-- sys.thermal_head (0x0142, R468). -/
def opSysThermalHead : OpDef where
  code := 0x0142
  len b := b.length == 8
  fields m _ := [below (byteAt m.payload 1) 1 1, reserved m.payload 4 4]
  body m s :=
    let b := m.payload
    let limit := if u16 b 2 = 0x7FFF then none else some (s16 b 2)
    let set : Bar → Bar := fun x => { x with headLimit := limit, autoResume := bit (byteAt b 1) 0 }
    okState { s with bars := s.bars.zipIdx.map fun e => if bit (byteAt b 0) e.2 then set e.1 else e.1 }

/-- The last valid report of a head is at least 3.0 degrees below its bar's limit; a disarmed limit is no bound. -/
def cooled (bar : Bar) (h : Head) : Bool :=
  match bar.headLimit, h.temp with
  | none, _ => true
  | some _, none => false
  | some l, some v => v + 30 ≤ l

/-- sys.thermal_resume (0x0143, R470). -/
def opSysThermalResume : OpDef where
  code := 0x0143
  len b := b.length == 8
  fields m _ := [within (byteAt m.payload 0) 0 7 0, reserved m.payload 1 3]
  body m s := do
    let b := byteAt m.payload 0
    let hot := ((List.range 32).filter (bit (u32 m.payload 4))).filter fun i => (headAt s b i).causes.contains 6
    require (hot.all fun i => cooled (barAt s b) (headAt s b i)) (plainErr stState)
    okState (hot.foldl (fun s i => withCauses b i (fun l => l.filter (· != 6)) s) s)

/-! ### What the bar driver reports -/

/-- HEAD_RECORD (R171 to R173, R187). -/
def execHeadRecord (bar : Fin 8) (slot : Fin 32) (present : Bool) (record : Bytes) (s : State) : Out :=
  .next (judgeHead bar.val slot.val (setHead (takePacket bar.val 0x21 s) bar.val slot.val fun h => { h with
    reported := some present
    record := if present then some (fit 64 record) else h.record }))

/-- The band a valid report moves a head to: up, else down (R175). -/
def moveBand (bounds : List Int) (t : Int) (k : Nat) : Nat :=
  let up := (List.range (7 - k)).foldl (fun k _ => if k < 7 ∧ bounds.getD k 0x7FFF ≤ t then k + 1 else k) k
  if up ≠ k then up
  else (List.range k).foldl (fun k _ => if 0 < k ∧ t < bounds.getD (k - 1) 0x7FFF - 10 then k - 1 else k) k

/-- One entry of a temperature report (R175, R176, R468 to R470). -/
def headReport (b slot : Nat) (valid : Bool) (t : Int) (s : State) : State :=
  let h := headAt s b slot
  let bar := barAt s b
  let now := some s.time.clock
  if valid then
    let band := moveBand h.bounds t h.band
    let wave := h.waves.getD band 0
    let s1 := setHead s b slot fun h => { h with band := band, wave := wave, temp := some t, invalid := 0, reportAt := now }
    let s2 := if band = h.band then s1 else
      fieldEvent 0x0604 0 (le 1 b ++ le 1 slot ++ le 1 band ++ le 1 wave ++ leS 2 t) s1
    match bar.headLimit with
    | none => s2
    | some l =>
      if l ≤ t then withCauses b slot (6 :: ·) s2
      else if bar.autoResume ∧ t + 30 ≤ l then withCauses b slot (fun c => c.filter (· != 6)) s2
      else s2
  else
    let s1 := setHead s b slot fun h => { h with invalid := h.invalid + 1, reportAt := now }
    if 3 ≤ h.invalid + 1 ∧ bar.headLimit.isSome then withCauses b slot (6 :: ·) s1 else s1

/-- HEAD_TEMP (R175, R176, R468 to R470). -/
def execHeadTemp (bar : Fin 8) (entries : List (Fin 32 × Bool × Int)) (s : State) : Out :=
  .next (entries.foldl (fun s e => headReport bar.val e.1.val e.2.1 e.2.2 s) (takePacket bar.val 0x22 s))

/-- HEAD_REPORT_MISSING (R469): no report for 300 ms while the record is accepted. -/
def execHeadReportMissing (bar : Fin 8) (slot : Fin 32) (s : State) : Out :=
  .next (
    let h := headAt s bar.val slot.val
    let missing : Bool := match h.reportAt with
      | none => false
      | some t => t + 300000000 ≤ s.time.clock
    if h.accepted ∧ missing ∧ (barAt s bar.val).headLimit.isSome then withCauses bar.val slot.val (6 :: ·) s else s)

/-- HEAD_LOST (R187): the driver no longer reports a head whose record was accepted. -/
def execHeadLost (bar : Fin 8) (slot : Fin 32) (s : State) : Out :=
  .next (
    if (headAt s bar.val slot.val).accepted then
      recordCause bar.val slot.val (some 1)
        (setHead s bar.val slot.val fun h => { h with reported := some false, accepted := false })
    else s)

/-- DRIVER_STATUS (R254): reported unread. -/
def execDriverStatus (bar : Fin 8) (freeLines : Nat) (faults : BitVec 16) (s : State) : Out :=
  .next (setBar (takePacket bar.val 0x24 s) bar.val fun b => { b with freeLines := freeLines % 65536, driverFaults := faults })

/-! ### Blanking and resumption -/

/-- HEAD_BLANKED (R185): a head with a blank cause stops, its blocks carry BLANK, and its nozzles are out from L. -/
def execHeadBlanked (bar : Fin 8) (slot : Fin 32) (s : State) : Out :=
  .next (
    let b := bar.val
    let i := slot.val
    let h := headAt s b i
    if h.causes.isEmpty ∨ (h.blank ∧ h.resumeAt = none) then s else
    let live := barActive s b
    let l := if live then firstOnTime s b else 0
    let stop := ((barAt s b).nextFire.getD (barPos s b + 1).toNat)
    let (from_, past) := match h.resumeAt, h.outFrom with
      | some r, some o => if l < r then (o, h.outPast) else (l, ((o, r) :: h.outPast).take 8)
      | _, _ => (l, h.outPast)
    let s1 := setHead s b i fun h => { h with blank := true, outFrom := some from_, outPast := past, resumeAt := none }
    let s2 := pushServe b 3 l (headCommand b (2 ^ i) 1 (disturb b stop (if live then disturb b l s1 else s1)))
    let s3 := auditRuns (runOn s b) (fun a => { a with headBlanks := a.headBlanks + 1 }) s2
    fieldEventAt 0x0602 0 (if live then some l else none)
      (le 1 b ++ le 1 i ++ le 1 (h.causes.headD 0) ++ zeros 1 ++ le 4 stop) s3)

/-- A run of the bar has a channel over a head's dots (R186). -/
def overHead (e : SlotRec) (c : Channel) : Bool :=
  (slotNozzleList e).any fun k => c.dotStart ≤ k.1 && k.1 < c.dotStart + c.dotWidth

/-- The first repeat boundary of a run at or after a line. -/
def boundaryFrom (r : Run) (y : Nat) : Nat :=
  if y ≤ r.firstLine then r.firstLine
  else
    let (n, yr) := repeatOf r y
    if yr = 0 then y else repeatStart r (n + 1)

/-- The line at which a head resumes (R186); none: at once. -/
def resumeLineOf (s : State) (b : Nat) (e : SlotRec) : Option Nat :=
  if !barActive s b then none else
  let ahead := (barPos s b + ((fifoDepth s b + 64 + barSkew s b : Nat) : Int)).toNat
  let runs := s.objs.runs.live.filter fun r => r.2.state.active &&
    (runChannels s r.2).any fun c => c.2.bar == b && overHead e c.2
  match minOf (runs.map fun r => boundaryFrom r.2 ahead) with
  | some l => some l
  | none => some (firstOnTime s b)

/-- HEAD_RESUMED (R186): no blank cause remains. -/
def execHeadResumed (bar : Fin 8) (slot : Fin 32) (s : State) : Out :=
  .next (
    let b := bar.val
    let i := slot.val
    let h := headAt s b i
    if !h.causes.isEmpty ∨ !h.blank ∨ h.resumeAt.isSome then s else
    let e := (((barAt s b).table.map fun t => t.slots.getD i {}).getD {})
    let l := resumeLineOf s b e
    let s1 := setHead s b i fun h => match l with
      | some y => { h with resumeAt := some y }
      | none => { h with blank := false, outFrom := none, resumeAt := none }
    fieldEventAt 0x0603 0 l (le 1 b ++ le 1 i)
      (pushServe b 3 (l.getD 0) (disturb b (l.getD (barPos s b).toNat) s1)))

/-! ### Serve data -/

/-- Out and weak bits of four bar nozzles for device line y (R181): bit 2k out, bit 2k + 1 weak of the k-th (DESIGN
CHOICE, log 38). -/
def nozzleStateByte (s : State) (b y i : Nat) : Byte :=
  let t := (barAt s b).table
  let v := (barAt s b).nozzles.at y
  BitVec.ofNat 8 (sumOf ((List.range 4).map fun k =>
    let idx := 4 * i + k
    let entry := nozEntry v idx
    let head := (t.bind fun t => nozzleAt t idx).any fun e => headOut (headAt s b e.1) y
    (flag (nozMarked entry || head) + 2 * flag (nozWeak entry)) * 4 ^ k))

/-- One byte of the stitch mask, the ramps or the nozzle state for device line y (R181). -/
def serveByte (s : State) (b item y i : Nat) : Byte :=
  match item with
  | 1 => BitVec.ofNat 8 (stitchMaskAt (i / 64) (i % 64))
  | 2 => BitVec.ofNat 8 (rampEntry (barAt s b).table ((barAt s b).ramps.at y) (i / 512) (i / 2 % 256) / 256 ^ (i % 2))
  | _ => nozzleStateByte s b y i

/-- Device lines beyond the fire position from which an item stands otherwise: armed ramps (item 2), armed nozzle entries and
heads that go out or resume (item 3). -/
def serveLines (s : State) (b item : Nat) : List Nat :=
  let bar := barAt s b
  let all := if item = 2 then bar.ramps.armed.map (·.line)
    else bar.nozzles.armed.map (·.line) ++ bar.heads.flatMap fun h => h.outFrom.toList ++ h.resumeAt.toList
  sortBy (fun l => (l : Int)) ((all.filter fun (l : Nat) => barPos s b < (l : Int)).eraseDups)

/-- Serve data as sent at training (R181, R271): every item as it stands, with switch line 0, and after it what is to change
at later lines. -/
def sendServe (b : Nat) (s : State) : State :=
  let s0 := setBar s b fun x => { x with serve := [], serveSent := [] }
  let s1 := [0, 1, 2, 3].foldl (fun s i => pushServe b i 0 s) s0
  let later := sortBy (fun e : Nat × Nat => (e.2 : Int)) ([2, 3].flatMap fun i => (serveLines s b i).map fun l => (i, l))
  later.foldl (fun s e => pushServe b e.1 e.2 s) s1

/-- SERVE (R181, R256): the next part of the oldest serve data change goes to the bar driver, at most four changes whose
line the driver has not reached being outstanding. The layout of the bar table item is not stated: its bytes are free
values (log 38). -/
def execServe (bar : Fin 8) (s : State) : Out :=
  .next (
    let b := bar.val
    match (barAt s b).serve with
    | [] => s
    | c :: rest =>
      let open_ := (barAt s b).serveSent.filter fun (l : Nat) => barPos s b < (l : Int)
      if (linkAt s b).state ≠ .active ∨ (c.offset = 0 ∧ 4 ≤ open_.length) then s else
      let n := min 984 (c.total - c.offset)
      let data : Bytes := if c.item = 0 then
          (List.range n).map fun k => BitVec.ofNat 8 (Config.freeValue (s.fresh + k)).toNat
        else (List.range n).map fun k => serveByte s b c.item c.at_ (c.offset + k)
      let body := le 1 c.item ++ le 1 c.change ++ le 6 c.line ++ le 4 c.offset ++ le 4 c.total ++ data ++ zeros ((4 - n % 4) % 4)
      let s1 := sendGeneral b 0x02 body { s with fresh := s.fresh + if c.item = 0 then n else 0 }
      let done_ := c.total ≤ c.offset + n
      setBar s1 b fun bar => { bar with
        serve := if done_ then rest else { c with offset := c.offset + n } :: rest
        serveSent := if done_ then open_ ++ [c.line] else open_ })

def execBarGeomWrite (m : Msg) (s : State) : Out := .next (message opBarGeomWrite m s)
def execBarGeomCommit (m : Msg) (s : State) : Out := .next (message opBarGeomCommit m s)
def execBarQuery (m : Msg) (s : State) : Out := .next (message opBarQuery m s)
def execHeadQuery (m : Msg) (s : State) : Out := .next (message opHeadQuery m s)
def execHeadBlank (m : Msg) (s : State) : Out := .next (message opHeadBlank m s)
def execHeadUnblank (m : Msg) (s : State) : Out := .next (message opHeadUnblank m s)
def execHeadBandMap (m : Msg) (s : State) : Out := .next (message opHeadBandMap m s)
def execBarFireEnable (m : Msg) (s : State) : Out := .next (message opBarFireEnable m s)
def execSysThermalHead (m : Msg) (s : State) : Out := .next (message opSysThermalHead m s)
def execSysThermalResume (m : Msg) (s : State) : Out := .next (message opSysThermalResume m s)

end Sys2Proof.Machine
end

