-- ==== Sys2Proof/Machine/BenchRotation.lean ====
section
/-! DEFINITION. The spare bench (R152 to R156), bench.status and bench.rotation, and the two line sequencers (R216, R217,
R512, R513). -/

namespace Sys2Proof.Machine

/-- 24 hours in ns. -/
def dayNs : Nat := 86400000000000

/-- Clocks of a list that lie within the last 24 h. -/
def lastDay (s : State) (l : List Nat) : List Nat := l.filter fun t => s.time.clock < t + dayNs

def benchAt (s : State) (i : Nat) : Bench := s.bench.bench.getD i {}
def setBench (s : State) (i : Nat) (f : Bench → Bench) : State :=
  { s with bench := { s.bench with bench := modAt s.bench.bench i f } }

/-- Role code of bench.status, and the bar it names. -/
def BenchRole.code : BenchRole → Nat × Nat
  | .working b => (0, b)
  | .loading b => (1, b)
  | .shadowing b => (2, b)
  | .testing _ => (3, 0xFF)
  | .loaned b => (4, b)
  | .removed => (5, 0xFF)

/-- A bench is in service. -/
def inService (e : Bench) : Bool := e.role != .removed

/-- The spare stands ready: it loads or shadows (R154, R155, R326). -/
def spareReady (s : State) : Option Nat :=
  s.bench.bench.findIdx? fun e => match e.role with
    | .shadowing _ | .loading _ => true
    | _ => false

/-- The bar that the spare shadows. -/
def shadowed (s : State) : Option (Nat × Nat) :=
  s.bench.bench.zipIdx.findSome? fun e => match e.1.role with
    | .shadowing b => some (e.2, b)
    | _ => none

/-- The bench that works on a bar. -/
def workingOn (s : State) (b : Nat) : Option Nat := s.bench.bench.findIdx? fun e => e.role == .working b

/-- The first output line of a bench that takes a bar over: the first one not yet handed to the lanes among the last
`matched` lines, which it has screened in shadow (R155); without one, the bar's next output line. -/
def takeoverLine (s : State) (b matched : Nat) : Nat :=
  let bar := barAt s b
  let next := bar.nextOut.getD (barPos s b + 1).toNat
  let unhanded := bar.outLines.filter fun o => next ≤ o.line + matched && bar.nextPack.all fun n => n + barSkew s b ≤ o.line
  ((minOf (unhanded.map (·.line))).getD next)

/-- BENCH_ROTATED; the bench that takes over has screened `matched` lines in shadow (R155). -/
def benchRotated (b leaving taking cause matched : Nat) (s : State) : State :=
  fieldEventAt 0x0502 0 (some (takeoverLine s b matched)) (le 1 b ++ le 1 leaving ++ le 1 taking ++ le 1 cause) s

/-- NO_SPARE where no spare exists (R154). -/
def tellNoSpare (s : State) : State :=
  if (spareBench s).isSome then s
  else fieldEvent 0x0505 0 (le 1 (s.bench.bench.filter inService).length) s

/-- A bench taken out of service until the next field-die reset (R154, R481). -/
def removeBench (i : Nat) (s : State) : State :=
  tellNoSpare (domainOff (8 + i) (setBench s i fun e => { e with role := .removed }))

/-- A bench declared faulty (R126, R152, R154): it is tested, or removed after a second verdict within 24 h; the bar that it
serves, or that it has lent to the spare, waits for the spare (R153). `cause` as in BENCH_FAULT. -/
def declareBench (i cause : Nat) (s : State) : State :=
  let e := benchAt s i
  let verdicts := s.time.clock :: lastDay s e.verdicts
  let gone := 2 ≤ verdicts.length
  let bar : Option Nat := match e.role with
    | .working b => some b
    | .loaned b => if (workingOn s b).isSome then none else some b
    | _ => none
  let named := e.role.code.2
  let s1 := setBench s i fun e => { e with role := .testing true, verdicts := verdicts }
  let s2 := match bar with
    | some b => { s1 with bench := { s1.bench with takeovers := s1.bench.takeovers ++ [(b, i)] } }
    | none => s1
  let s3 := fieldEvent 0x0504 0 (le 1 i ++ le 1 cause ++ le 1 named ++ le 1 (flag gone)) s2
  if gone then removeBench i s3 else if (spareBench s).isSome then tellNoSpare s3 else s3

/-- BENCH_FAULT (R126, R154): cause 1 an uncorrectable SRAM error, 2 a datapath parity error. -/
def execBenchFault (bench : Fin 9) (cause : Fin 2) (s : State) : Out :=
  .next (match (benchAt s bench.val).role with
    | .removed => s
    | _ => declareBench bench.val (cause.val + 1) s)

/-- The loan of bench i to bar c is abandoned (R153, R156): the bar's own bench takes it back, where it is not bar b, whose
bench has failed; the recalculation that waited for the loan or used it goes without it (R327). -/
def abandonLoan (i b : Nat) (s : State) : State :=
  match (benchAt s i).role with
  | .loaned c =>
    let calsets := s.objs.calsets.mapLive fun q => match q.recalc with
      | some (r, m, _, true) => if (channelOf s q.channel).any fun x => x.bar == c then { q with recalc := some (r, m, 0, true) } else q
      | _ => q
    let s1 := { s with objs := { s.objs with calsets := calsets } }
    if c = b then s1 else benchRotated c i ((workingOn s c).getD 0xFF) 3 0 s1
  | _ => s

/-- SPARE_TAKEOVER (R153): the spare serves the bar whose bench failed, whatever it was doing; no spare is left (R154). -/
def execSpareTakeover (bar : Fin 8) (s : State) : Out :=
  .next (match s.bench.takeovers.find? (fun e => e.1 == bar.val), spareBench s with
    | some (b, leaving), some i =>
      let matched := if (benchAt s i).role = .shadowing b then (benchAt s i).matched else 0
      let s1 := setBench (abandonLoan i b s) i fun e => { e with role := .working b, matched := 0 }
      let s2 := { s1 with bench := { s1.bench with takeovers := s1.bench.takeovers.filter fun e => e.1 != b } }
      tellNoSpare (benchRotated b leaving i 1 matched (auditRuns (runOn s b) (fun a => { a with tkBench := a.tkBench + 1 }) s2))
    | _, _ => s)

/-- SHADOW_MISMATCH (R152): the spare screens the line again; two results that agree condemn the working bench. -/
def execShadowMismatch (slot : Fin 32) (rescreenAgrees : Bool) (s : State) : Out :=
  .next (match shadowed s with
    | none => s
    | some (x, b) => match workingOn s b with
      | none => s
      | some w =>
        let count := fun (e : Bench) => { e with mismatches := (e.mismatches + 1) % 2 ^ 32, matched := 0 }
        let s1 := setBench (setBench s x count) w count
        let s2 := fieldEvent 0x0503 0 (le 1 b ++ le 1 w ++ le 1 x ++ le 1 (flag (!rescreenAgrees)) ++ le 4 slot.val) s1
        declareBench (if rescreenAgrees then w else x) 3 s2)

/-- ROTATION_PERIOD (R155, R516): at the end of a period the spare takes over the bar it shadows and the bench it relieves
is tested; with rotation off the spare goes on to shadow the next bar. It waits at throttle step T1 and above, and while
no bar is shadowed. -/
def execRotationPeriod (s : State) : Out :=
  .next (match shadowed s with
    | none => s
    | some (x, b) =>
      if s.time.clock < s.bench.periodEnd ∨ s.thermal.step ≠ 0 then s else
      let next := (b + 1) % 8
      let period := s.bench.newPeriod.getD s.bench.period
      let set := fun (s : State) => { s with bench := { s.bench with
        rotBar := next
        period := period
        newPeriod := none
        periodEnd := s.time.clock + 1000000000 * (if period = 0 then 120 else period) } }
      match s.bench.period, workingOn s b with
      | 0, _ => set (setBench s x fun e => { e with role := .loading next, matched := 0 })
      | _, none => s
      | _, some w =>
        if (benchAt s x).matched = 0 ∧ barLive s b then s else
        let s1 := setBench (setBench s w fun e => { e with role := .testing false }) x fun e => { e with role := .working b, matched := 0 }
        set (benchRotated b w x 0 (benchAt s x).matched s1))

/-- BENCH_TEST_DONE (R154, R155): a bench that passes becomes the spare, one that fails is removed. -/
def execBenchTestDone (bench : Fin 9) (pass : Bool) (s : State) : Out :=
  .next (match (benchAt s bench.val).role with
    | .testing _ =>
      if pass then setBench s bench.val fun e => { e with role := .loading s.bench.rotBar, matched := 0 }
      else removeBench bench.val (fieldEvent 0x0504 0 (le 1 bench.val ++ [4, 0xFF, 1]) s)
    | _ => s)

/-- A CALSET's recalculation waits for the loan of the spare (R326). -/
def loanPending (s : State) : Bool :=
  s.objs.calsets.live.any fun e => match e.2.recalc with | some (_, _, 0, true) => true | _ => false

/-- A CALSET's recalculation waits for the loan of the spare to this bar (R326). -/
def loanWanted (s : State) (b : Nat) : Bool :=
  s.objs.calsets.live.any fun e => (match e.2.recalc with | some (_, _, 0, true) => true | _ => false) &&
    (channelOf s e.2.channel).any fun c => c.bar == b

/-- The spare that loads, and the bar whose tables it loads. -/
def loadingSpare (s : State) : Option (Nat × Nat) :=
  s.bench.bench.zipIdx.findSome? fun e => match e.1.role with
    | .loading b => some (e.2, b)
    | _ => none

/-- SPARE_LOAD_DONE (R149, R155, R326): the spare starts shadowing, or takes the bar over on loan. -/
def execSpareLoadDone (s : State) : Out :=
  .next (match loadingSpare s with
    | none => s
    | some (x, b) =>
      if loanWanted s b then
        let calsets := s.objs.calsets.mapLive fun q => match q.recalc with
          | some (r, m, 0, true) =>
            if (channelOf s q.channel).any fun c => c.bar == b then { q with recalc := some (r, m, 1, true) } else q
          | _ => q
        let s1 := { s with objs := { s.objs with calsets := calsets } }
        benchRotated b ((workingOn s b).getD 0xFF) x 2 0 (setBench s1 x fun e => { e with role := .loaned b, matched := 0 })
      else setBench s x fun e => { e with role := .shadowing b, matched := 0 })

/-- bench.status (0x050B, R155). -/
def opBenchStatus : OpDef where
  code := 0x050B
  trained := true
  len b := b.length == 0
  body _ s :=
    let next := if s.bench.period = 0 ∨ (spareBench s).isNone then 0xFFFFFFFF
      else (s.bench.periodEnd - s.time.clock) / 1000000000
    okBytes s (le 4 s.bench.period ++ le 4 next ++ s.bench.bench.flatMap fun e =>
      le 1 e.role.code.1 ++ le 1 e.role.code.2 ++ le 2 (lastDay s e.verdicts).length ++ le 4 e.mismatches)

/-- bench.rotation (0x050C, R155). -/
def opBenchRotation : OpDef where
  code := 0x050C
  trained := true
  len b := b.length == 4
  fields m _ :=
    let p := u16 m.payload 0
    [(p == 0 || (10 ≤ p && p ≤ 3600), 0), reserved m.payload 2 2]
  body m s := okState { s with bench := { s.bench with newPeriod := some (u16 m.payload 0) } }

def execBenchStatus (m : Msg) (s : State) : Out := .next (message opBenchStatus m s)
def execBenchRotation (m : Msg) (s : State) : Out := .next (message opBenchRotation m s)

/-! ### Line sequencers -/

/-- What the first state differs by from the second, seen from the second. -/
def swapDev (d : SeqDev) : SeqDev :=
  { d with counts := d.counts.map (- ·), phi := -d.phi, vel := -d.vel, lines := d.lines.map (- ·) }

/-- The first of the four items that LSB compares at a fire line of a bar that differs (R216): 1 the fire instant by more
than 5 ns, 2 the line, 3 the CRC of the fire blocks, 4 the counter of the web source. -/
def seqItem (s : State) (b : Nat) (d : SeqDev) : Option Nat :=
  if 5 * (s.pos.rate : Int) * 2 ^ 32 < d.phi.natAbs * 1000000000 then some 1
  else if d.lines.getD b 0 ≠ 0 then some 2
  else if d.crcs.getD b 0 ≠ 0 then some 3
  else if s.pos.source < 4 ∧ d.counts.getD s.pos.source 0 ≠ 0 then some 4
  else none

/-- The state of the sequencer that compares takes the place of the driving one's (R216). -/
def driveOther (s : State) : State :=
  let d := s.bench.lsDev
  let enc := s.pos.enc.zipIdx.map fun e => { e.1 with count := e.1.count + d.counts.getD e.2 0 }
  let bars := s.bars.zipIdx.map fun e =>
    { e.1 with nextFire := e.1.nextFire.map fun n => ((n : Int) + d.lines.getD e.2 0).toNat }
  { s with
    pos := { s.pos with enc := enc, phi32 := s.pos.phi32 + d.phi, vel32 := s.pos.vel32 + d.vel }
    bars := bars
    bench := { s.bench with lsDev := swapDev d } }

/-- The other sequencer takes over from the driving one, which is tested, or removed after a second failure within 24 h
(R217, R513). -/
def sequencerTakeover (s0 : State) : State :=
  let s := driveOther s0
  let failing := if s.bench.lsbActive then s.bench.lsbFails else s.bench.lsaFails
  let fails := s.time.clock :: lastDay s failing
  let gone : Bool := decide (2 ≤ fails.length)
  let b := s.bench
  let b1 := { b with
    lsbActive := !b.lsbActive
    lsRemoved := gone
    lsTest := none
    lsFormerTest := !gone
    lsbFails := if b.lsbActive then fails else b.lsbFails
    lsaFails := if b.lsbActive then b.lsaFails else fails }
  let s1 := auditRuns (fun _ => true) (fun a => { a with tkSeq := a.tkSeq + 1 }) { s with bench := b1 }
  if gone then domainOff (if s.bench.lsbActive then 18 else 17) s1 else s1

/-- LS_MISMATCH (R216, R217): the sequencer that compares finds an item that differs; it is tested. -/
def execLsMismatch (bar : Fin 8) (dev : SeqDev) (s : State) : Out :=
  .next (
    if s.bench.lsRemoved ∨ s.bench.lsFormerTest ∨ s.bench.lsTest.isSome then s
    else { s with bench := { s.bench with
      lsDev := dev
      lsTest := (seqItem s bar.val dev).map fun item => (item, bar.val) } })

/-- LSB_TEST_DONE (R217, R513): the verdict on a mismatch, or on the sequencer that no longer drives; a sequencer that goes on
comparing has its state reloaded from the driving one. -/
def execLsbTestDone (pass : Bool) (s : State) : Out :=
  .next (match s.bench.lsTest with
    | some (item, bar) =>
      -- the sequencer at fault: the driving one if the comparing one passes, else the comparing one
      let faultyIsLsb := if pass then s.bench.lsbActive else !s.bench.lsbActive
      let s1 := fieldEventAt 0x070B 0 (some (runPos s 0)) (le 1 item ++ le 1 bar ++ le 1 (flag faultyIsLsb)) s
      if pass then sequencerTakeover s1
      else
        let fails := s.time.clock :: lastDay s (if faultyIsLsb then s.bench.lsbFails else s.bench.lsaFails)
        let gone : Bool := decide (2 ≤ fails.length)
        let b := s1.bench
        let s2 := { s1 with bench := { b with
          lsTest := none
          lsDev := {}
          lsRemoved := gone
          lsbFails := if faultyIsLsb then fails else b.lsbFails
          lsaFails := if faultyIsLsb then b.lsaFails else fails } }
        if gone then domainOff (if faultyIsLsb then 18 else 17) s2 else s2
    | none =>
      if !s.bench.lsFormerTest then s
      else if pass then { s with bench := { s.bench with lsFormerTest := false, lsDev := {} } }
      else
        domainOff (if s.bench.lsbActive then 17 else 18)
          { s with bench := { s.bench with lsFormerTest := false, lsRemoved := true } })

/-- LSA_STOP (R512, R513): the sequencer that drives has issued no marker for a bar in time; the other issues it and
drives. -/
def execLsaStop (bar : Fin 8) (s : State) : Out :=
  .next (
    if s.bench.lsRemoved ∨ s.bench.lsFormerTest then s
    else fireNext bar.val (sequencerTakeover s))

end Sys2Proof.Machine
end

