-- ==== Sys2Proof/Machine/Triggers.lean ====
section
/-! DEFINITION. Pulse outputs (R221, R430) and compares (R218 to R221, R236): the cmp family and its steps. -/

namespace Sys2Proof.Machine

/-! ### Pulses -/

/-- A pulse of a trigger on a list of outputs: it keeps the later end where the trigger drives the output already
(R221). -/
def addPulse (slot stop : Nat) (l : List (Nat × Nat)) : List (Nat × Nat) :=
  match l.find? (fun e => e.1 == slot) with
  | some e => (slot, max e.2 stop) :: l.filter fun e => e.1 != slot
  | none => (slot, stop) :: l

/-- A pulse of a trigger on TOUT_F0 to TOUT_F3, with its end (R221). -/
def fieldPulse (out slot stop : Nat) (s : State) : State :=
  { s with pos := { s.pos with pulses := modAt s.pos.pulses out (addPulse slot stop) } }

/-- A trigger's field pulses end at once. -/
def endFieldPulse (slot : Nat) (s : State) : State :=
  { s with pos := { s.pos with pulses := s.pos.pulses.map fun l => l.filter fun e => e.1 != slot } }

/-- A trigger's field pulses that have run their time end (R221). -/
def expirePulse (slot : Nat) (s : State) : State :=
  let keep : Nat × Nat → Bool := fun e => e.1 != slot || s.time.clock < e.2
  { s with pos := { s.pos with pulses := s.pos.pulses.map fun l => l.filter keep } }

/-! ### Compares -/

/-- The integer web line of a position event. -/
def webLine (s : State) : Nat := (s.pos.phi32 / 2 ^ 32).toNat

/-- An event of the position family (chapter 07, events): it carries the web line. -/
def posEvent (code : Nat) (src : BitVec 32) (args : Bytes) (s : State) : State := fieldEventAt code src (some (webLine s)) args s

/-- The present position that a compare watches: Φ in 1/64 web line, or the raw count of an input. -/
def comparePos (s : State) (source input : Nat) : Int :=
  if source = 0 then phi64 s else (s.pos.enc.getD input {}).count

/-- A compare hits (R218, R220): its time, its counts, its next value; its pulse and its event. -/
def compareHit (slot : Nat) (late : Option Nat) (s : State) : State :=
  match s.objs.triggers.at? slot with
  | some t => match t.kind with
    | .compare _ _ direction event pulse out us period repeats =>
      let more := period ≠ 0 && (repeats == 0 || t.armHits + 1 < repeats)
      let step := if direction = 1 then -period else period
      let t' := { t with
        armed := more, hits := (t.hits + 1) % 2 ^ 32, armHits := t.armHits + 1, lastHit := s.time.field
        value := t.value + step }
      let s1 := { s with objs := { s.objs with triggers := s.objs.triggers.put slot t' } }
      let s2 := if pulse then fieldPulse out slot (s.time.clock + 1000 * us) s1 else s1
      if event then
        posEvent 0x0706 (s.objs.triggers.handle tyTrigger slot)
          (le 6 (late.getD 0) ++ le 1 (flag late.isSome + 2 * flag (!more)) ++ le 1 t'.hits) s2
      else s2
    | .time .. => s
  | none => s

/-- Whether an armed compare hits as its watched value goes from `before` to `after` (R218). -/
def crosses (direction : Nat) (value before after : Int) : Bool :=
  let up := before < value && value ≤ after
  let down := value < before && after ≤ value
  if direction = 0 then up else if direction = 1 then down else up || down

/-- Compares on an input's raw count, checked on a count (R218). -/
def checkCounts (input : Nat) (before after : Int) (s : State) : State :=
  s.objs.triggers.live.foldl (fun s e => match e.2.kind with
    | .compare 1 i direction _ _ _ _ _ _ =>
      if i = input ∧ e.2.armed ∧ crosses direction e.2.value before after then compareHit e.1 none s else s
    | _ => s) s

/-- Compares on the web position, checked on a loop update (R218). -/
def checkPositions (s : State) : State :=
  s.objs.triggers.live.foldl (fun s e => match e.2.kind with
    | .compare 0 _ _ _ _ _ _ _ _ => if e.2.armed ∧ e.2.value ≤ phi64 s then compareHit e.1 none s else s
    | _ => s) s

/-- A web-position compare is armed (R234). -/
def webCompareArmed (s : State) : Bool := s.objs.triggers.live.any fun e => match e.2.kind with
  | .compare 0 _ _ _ _ _ _ _ _ => e.2.armed
  | _ => false

/-- The trigger that a handle names is a compare; one of the time family is of the wrong type. -/
def isCompare (m : Msg) (s : State) : Bool := (triggerOf s m.handle).all fun t => match t.kind with
  | .compare .. => true
  | .time .. => false

/-- The conditions on a compare's period (R220). -/
def periodOk (source direction : Nat) (period : Int) : Bool :=
  period == 0 || (direction != 2 && (if source = 0 then 64 else 1) ≤ period)

/-- cmp.create (0x0711, R220). -/
def opCmpCreate : OpDef where
  code := 0x0711
  len b := b.length == 24
  fields m _ :=
    let b := m.payload
    let src := byteAt b 0
    [within src 0 1 0, (src == 0 || byteAt b 1 ≤ 3, 1), (byteAt b 2 ≤ 2 && (src == 1 || byteAt b 2 == 0), 2),
      below (byteAt b 3) 2 3, within (byteAt b 4) 0 3 4, reserved b 5 1, within (u16 b 6) 1 65535 6,
      (periodOk src (byteAt b 2) (s64 b 8), 8), reserved b 20 4]
  body m s := do
    let b := m.payload
    let t : Trigger :=
      { kind := .compare (byteAt b 0) (byteAt b 1) (byteAt b 2) (bit (byteAt b 3) 0) (bit (byteAt b 3) 1) (byteAt b 4)
          (u16 b 6) (s64 b 8) (u32 b 16)
        armed := false, value := 0, hits := 0, armHits := 0, skipped := 0, lastHit := 0, next16 := 0, eventAts := [] }
    let (i, t) ← orErr (s.objs.triggers.create t) (plainErr stNoSpace)
    .ok { state := { s with objs := { s.objs with triggers := t } }, handle := some (t.handle tyTrigger i) }

/-- How far an armed value lies behind the present position, in counts (R219); none: ahead, or an "either" compare. -/
def lateness (s : State) (source input direction : Nat) (value : Int) : Option Nat :=
  let p := comparePos s source input
  if source = 0 then
    if value ≤ p then some ((p - value).toNat * s.pos.den / (64 * s.pos.num)) else none
  else if direction = 0 then if value ≤ p then some (p - value).toNat else none
  else if direction = 1 then if p ≤ value then some (value - p).toNat else none
  else none

/-- cmp.arm (0x0712, R219, R236). -/
def opCmpArm : OpDef where
  code := 0x0712
  types := [tyTrigger]
  kind := isCompare
  len b := b.length == 8
  body m s := do
    let t ← orErr (triggerOf s m.handle) (plainErr stNoHandle)
    match t.kind with
    | .time .. => .error (offsetErr stWrongType 8)
    | .compare source input direction _ _ _ _ _ _ =>
      let v := s64 m.payload 0
      let s1 := setTrigger s m.handle fun t => { t with armed := true, value := v, armHits := 0 }
      match lateness s source input direction v with
      | none => okState s1
      | some late =>
        if v = comparePos s source input then okState (compareHit (hIdx m.handle) none s1)
        else okLate (compareHit (hIdx m.handle) (some late) s1) (le 6 late)

/-- cmp.disarm (0x0713, R236). -/
def opCmpDisarm : OpDef where
  code := 0x0713
  urgent := true
  types := [tyTrigger]
  kind := isCompare
  len b := b.length == 0
  body m s := okState (endFieldPulse (hIdx m.handle) (setTrigger s m.handle fun t => { t with armed := false }))

/-- cmp.destroy (0x0714, R236). -/
def opCmpDestroy : OpDef where
  code := 0x0714
  types := [tyTrigger]
  kind := isCompare
  len b := b.length == 0
  body m s := do
    let t ← orErr (triggerOf s m.handle) (plainErr stNoHandle)
    require (!t.armed) (plainErr stState)
    okState { s with objs := { s.objs with triggers := s.objs.triggers.release (hIdx m.handle) } }

/-- cmp.query (0x0715, R236). -/
def opCmpQuery : OpDef where
  code := 0x0715
  types := [tyTrigger]
  kind := isCompare
  len b := b.length == 0
  body m s := do
    let t ← orErr (triggerOf s m.handle) (plainErr stNoHandle)
    okBytes s (le 1 (flag t.armed) ++ zeros 3 ++ le 4 t.hits ++ leS 8 t.value ++ le 8 (t.lastHit / 1000000000) ++
      le 4 (t.lastHit % 1000000000))

def execCmpCreate (m : Msg) (s : State) : Out := .next (message opCmpCreate m s)
def execCmpArm (m : Msg) (s : State) : Out := .next (message opCmpArm m s)
def execCmpDisarm (m : Msg) (s : State) : Out := .next (message opCmpDisarm m s)
def execCmpDestroy (m : Msg) (s : State) : Out := .next (message opCmpDestroy m s)
def execCmpQuery (m : Msg) (s : State) : Out := .next (message opCmpQuery m s)

/-- COMPARE_PULSE_END (R221): the pulse of a compare ends at its own end. -/
def execComparePulseEnd (trigger : Fin 128) (s : State) : Out := .next (expirePulse trigger.val s)

end Sys2Proof.Machine
end

