-- ==== Sys2Proof/Machine/Encoders.lean ====
section
/-! DEFINITION. Encoder inputs and the web's measured position (R192 to R201): counts, high-water count, reverse debt,
speed, faults and standstill. -/

namespace Sys2Proof.Machine

def encAt (s : State) (i : Nat) : Encoder := s.pos.enc.getD i {}
def setEnc (s : State) (i : Nat) (f : Encoder → Encoder) : State :=
  { s with pos := { s.pos with enc := modAt s.pos.enc i f } }

/-- A configured follower takes θ from the cascade words (R227). -/
def follower (s : State) : Bool := s.pos.configured && s.pos.role == 2

/-- The web source is this encoder input. -/
def webInput (s : State) (i : Nat) : Bool := s.pos.configured && s.pos.role != 2 && s.pos.source == i

/-- θ in web lines × 2^16: from h exactly, the remainder carried (R197, R204), or from the cascade words (R227). -/
def theta (p : Position) : Int :=
  if p.role = 2 then p.thetaCascade else p.theta0 + (p.high - p.h0) * (p.num : Int) * 65536 / (p.den : Int)

/-- A speed valid: two counts of one direction since the reset of the estimator (R201). -/
def speedValid (p : Position) : Bool := 2 ≤ p.stamps.length

/-- The speed in counts/s (R200): over the last n counts, limited once the time since the last count exceeds the last
interval; stamps in 5 ns units. -/
def speedAt (now : Nat) (p : Position) : Int :=
  match p.stamps with
  | t :: t1 :: rest =>
    let n := min (2 ^ p.speedAvg) (rest.length + 1)
    let tn := (t :: t1 :: rest).getD n t1
    let v := n * 200000000 / max 1 (t / 5 - tn / 5)
    let gap := now / 5 - t / 5
    p.dir * (if t / 5 - t1 / 5 < gap then min v (200000000 / gap) else v : Nat)
  | _ => 0

/-- One count of the web source (R197, R198, R200, R201): estimator, MOTION, high-water count, debt. -/
def webCount (d : Int) (c : Int) (s : State) : State :=
  let p := s.pos
  let p1 := { p with stamps := if p.dir = d then (s.time.clock :: p.stamps).take 65 else [s.time.clock], dir := d, still := false }
  let s1 := { s with pos := p1 }
  let s1 := if p.still then posEvent 0x0704 0 (le 1 1 ++ zeros 3 ++ leS 4 (speedAt s.time.clock p1)) s1 else s1
  if p.frozen then s1 else
  let h := max p.high c
  let debt := max p.maxDebt (h - c)
  if p.inDebt then
    if h ≤ c then
      posEvent 0x0703 0 (leS 6 debt) { s1 with pos := { s1.pos with high := h, inDebt := false, maxDebt := debt } }
    else { s1 with pos := { s1.pos with maxDebt := debt } }
  else if (p.hyst : Int) < h - c then
    posEvent 0x0702 0 (leS 6 h) { s1 with pos := { s1.pos with high := h, inDebt := true, maxDebt := h - c } }
  else { s1 with pos := { s1.pos with high := h } }

/-- The sample, from 1, of a burst of samples at level x at which a filter of n accepts that level; none: in none of them
(R193). -/
def acceptAt (n : Nat) (f : Filter) (x : Bool) (samples : Nat) : Option Nat :=
  let k := max 1 (n - if x = f.raw then f.run else 0)
  if x = f.level ∨ samples < k then none else some k

/-- A filter of n after a burst of samples at level x (R193). -/
def feed (n : Nat) (x : Bool) (samples : Nat) (f : Filter) : Filter :=
  { level := if (acceptAt n f x samples).isSome then x else f.level
    raw := x
    run := min 255 ((if x = f.raw then f.run else 0) + samples) }

/-- The count that an accepted edge of A (`aEdge`) or B gives in the input's mode, a and b the levels after it (R194): A
leads B forward. -/
def edgeCount (e : Encoder) (aEdge a b : Bool) : Int :=
  let bEdge := !aEdge
  let forward := if aEdge then a != b else a == b
  let counts := match e.mode with
    | 1 => aEdge && a
    | 2 => aEdge
    | 3 => aEdge || bEdge
    | _ => false
  if counts then if forward != e.invert then 1 else -1 else 0

/-- An accepted edge of A (`aEdge`) or B of an input, a and b the levels after it (R194, R197, R198, R218). -/
def takeEdge (i : Nat) (aEdge a b : Bool) (s : State) : State :=
  let e := encAt s i
  let d := edgeCount e aEdge a b
  if d = 0 then s else
  let c := toSigned 48 (ofSigned 48 (e.count + d))
  let s1 := setEnc s i fun e => { e with count := c, steps := e.steps + 1 }
  let s2 := if webInput s i then webCount d c s1 else s1
  checkCounts i e.count c s2

/-- A and B of an input change in the same sample after the filter: no count, and an illegal transition (R194). -/
def takeIllegal (i : Nat) (s : State) : State :=
  if (encAt s i).mode = 0 then s
  else setEnc s i fun e => { e with illegal := e.illegal + 1, illegalAt := (e.steps :: e.illegalAt).take 4 }

/-- ENCODER_COUNT (R193, R194, R197, R198, R200, R201, R218): a burst of samples with A and B at the levels given; the edges
that the filter accepts in it count in the order of their samples. -/
def execEncoderCount (input : Fin 4) (a b : Bool) (samples : Nat) (s : State) : Out :=
  .next (
    let i := input.val
    let e := encAt s i
    let s0 := setEnc s i fun e => { e with a := feed e.filter a samples e.a, b := feed e.filter b samples e.b }
    match acceptAt e.filter e.a a samples, acceptAt e.filter e.b b samples with
    | none, none => s0
    | some _, none => takeEdge i true a e.b.level s0
    | none, some _ => takeEdge i false e.a.level b s0
    | some x, some y =>
      if x = y then takeIllegal i s0
      else if x < y then takeEdge i false a b (takeEdge i true a e.b.level s0)
      else takeEdge i true a b (takeEdge i false e.a.level b s0))

/-- Z_EDGE (R193, R195): a burst of samples with Z at the level given; an accepted rising edge latches the raw count and the
field device time. -/
def execZEdge (input : Fin 4) (z : Bool) (samples : Nat) (s : State) : Out :=
  .next (
    let i := input.val
    let e := encAt s i
    let s0 := setEnc s i fun e => { e with z := feed e.filter z samples e.z }
    if e.mode = 0 ∨ !z ∨ acceptAt e.filter e.z z samples = none then s0
    else setEnc s0 i fun e => { e with zCount := e.count, zTime := s.time.field, zEdges := e.zEdges + 1 })

/-- Four illegal transitions lie within 1,024 counts (R196). -/
def manyIllegal (e : Encoder) : Bool := e.illegalAt.length == 4 && e.steps < e.illegalAt.getD 3 0 + 1024

/-- A fault cause of the input is present (R196). -/
def faulty (e : Encoder) : Bool := e.loss || e.garbled

/-- Whether a cause of an input's fault is present, and the input with it appearing or absent (R196). -/
def hasCause (illegal : Bool) (e : Encoder) : Bool := if illegal then e.garbled else e.loss
def withCause (illegal present : Bool) (e : Encoder) : Encoder :=
  if illegal then { e with garbled := present, illegalAt := if present then e.illegalAt else [] }
  else { e with loss := present }

/-- The input's fault freezes, or would freeze, Φ: it is the web source, or froze Φ while it was (R196). -/
def freezes (s : State) (i : Nat) : Bool := webInput s i || s.pos.frozenBy.contains i

/-- h, θ and Φ freeze for the fault of an input that is the web source (R196). -/
def freezeFor (i : Nat) (s : State) : State :=
  { s with pos := { s.pos with frozen := true, frozenBy := i :: s.pos.frozenBy.filter (· != i) } }

/-- ENC_FAULT for an input (R196): cause 1 loss of signal, 2 illegal transitions, 3 cleared. -/
def faultEvent (i cause : Nat) (s : State) : State :=
  posEvent 0x0701 0 (le 1 i ++ le 1 cause ++ le 1 (flag (webInput s i))) s

/-- ENC_FAULT (R196): a cause appears, and freezes h, θ and Φ when the input is the web source; or it is absent again,
which, with no other cause present, ends the fault of an input that froze nothing and starts the 10 ms of one that did. -/
def execEncFault (input : Fin 4) (illegal clears : Bool) (s : State) : Out :=
  .next (
    let i := input.val
    let e := encAt s i
    if clears then
      if !hasCause illegal e then s else
      let s1 := setEnc s i (withCause illegal false)
      if faulty (withCause illegal false e) then s1
      else if freezes s i then setEnc s1 i fun e => { e with absentSince := some s.time.clock }
      else faultEvent i 3 s1
    else if e.mode = 0 ∨ (illegal ∧ !manyIllegal e) ∨ hasCause illegal e then s
    else
      let s1 := setEnc s i fun e => { withCause illegal true e with absentSince := none }
      faultEvent i (if illegal then 2 else 1) (if webInput s i then freezeFor i s1 else s1))

/-- STANDSTILL (R201): no count of the web source for standstill_ms. -/
def execStandstill (s : State) : Out :=
  .next (
    match s.pos.stamps with
    | [] => s
    | t :: _ =>
      if s.pos.configured ∧ s.pos.role ≠ 2 ∧ !s.pos.still ∧ t + 1000000 * s.pos.standstillMs ≤ s.time.clock then
        posEvent 0x0704 0 (zeros 8) { s with pos := { s.pos with still := true, stamps := [] } }
      else s)

end Sys2Proof.Machine
end

