-- ==== Sys2Proof/Machine/Training.lean ====
section
/-! DEFINITION. Bring-up of a SETT link (08): training passes (R245, R247 to R249, R270), the blocks of a pass (R241, R246,
R250 to R253), how received blocks reach their steps (R239, R240, R244), and what a transmitter sends unasked (R243, R245). -/

namespace Sys2Proof.Machine

/-- LINK_STATE (R247). -/
def linkEvent (k cause : Nat) (s : State) : State :=
  let n := linkAt s k
  let code : Nat := match n.state with
    | .disabled => 0 | .training => 1 | .active => 2 | .offline => 3 | .refused => 4
  fieldEvent 0x0801 0 (le 1 k ++ le 1 code ++ le 1 n.rate ++ le 1 cause) s

/-- A change of every lane of a link. -/
def setLanes (k : Nat) (f : Lane → Lane) (s : State) : State := (linkLanes k).foldl (fun s l => setLane s l f) s

/-- LANE_REMAPPED. -/
def remapEvent (b lane kind spare : Nat) (s : State) : State :=
  fieldEvent 0x0802 0 (le 1 b ++ le 1 lane ++ le 1 kind ++ le 1 spare) s

/-- The link layer of a lane before its first data block (R257). -/
def Lane.unsent (now : Nat) (x : Lane) : Lane :=
  { x with
    txSeq := 0, txBytes := [], kept := [], rxBytes := [], rxEnd := 0, sinceAck := 0, ackAt := now, advanceAt := now
    discarding := false, nakDue := false, lockDue := false, syncAsked := false }

/-- The bar driver of a link that leaves ACTIVE is lost (bar.query, R271): lines in its FIFO do not fire. -/
def leaveActive (k : Nat) (s : State) : State :=
  if (linkAt s k).state ≠ .active then s else
  let s1 := setLanes k (Lane.unsent s.time.clock) (setLink s k fun n => { n with waiting := [], inbox := [] })
  if k < 8 then setBar s1 k fun b => { b with driver := if b.driver = 1 then 2 else b.driver, handed := [] } else s1

/-- A lane at the start of a pass: alignment, seed, polarity and equalisation anew (R241, R245, R246, R250). The seed is a
free value, never 0. -/
def freshLane (seed : Nat) (l : Lane) : Lane :=
  { l with
    align := .hunt, candidate := 0, rxBits := [], rxViol := false, rx := [], idleRun := 0
    txScr := if seed = 0 then 1 else BitVec.ofNat 31 seed, seedOk := false
    inverted := false, settled := false, ts1Run := 0, ts1InvRun := 0, rxLogical := 0, rxPhase := 0, rxLocked := false
    rxSeed := false, pre := 0, post := -8, ts2Any := false, ts2Resp := 0, ts2Seq := 0, partnerDone := false
    ownReq := 0, ownAnswered := true, ownDone := false, txCount := 0, txSlack := 0
    lostAt := none, farLostAt := none }

/-- The rate that a link is configured for: a spare lane takes its bar's (sett.config). -/
def wantedRate (s : State) (k : Nat) : Nat :=
  if k < 12 then (linkAt s k).rateCfg
  else match (linkAt s k).spareBar with
    | some b => (linkAt s b).rateCfg
    | none => 0

/-- A training pass starts: the first at rate code 0, the second at the rate chosen (R245, R247). A remap ends with it
(R270), and so does the use of a spare core. A link that is OFFLINE or refused stays so until it is ACTIVE (R248, R252;
log 124). -/
def startPass (k : Nat) (second : Option Nat) (s : State) : State :=
  let s := leaveActive k s
  let (seed, s) := takeFree 31 s
  let s := setLink s k fun n => { n with
    state := if n.state = .offline ∨ n.state = .refused then n.state else .training
    phase := 0, phaseAt := s.time.clock, pass := true, passAt := s.time.clock, second := second.isSome
    rate := second.getD 0, passRate := if second.isSome then n.passRate else wantedRate s k, swapped := false
    configs := 0, echoes := 0, echoSum := 0, probes := [], remaps := [], down := [], alone := [], lanePass := none
    deferred := false }
  let s := setLanes k (freshLane seed) s
  { s with sett := { s.sett with cores := s.sett.cores.filter fun c => c.2.1 != k } }

/-- A pass has failed (R248, R249): LINK_STATE on entry to OFFLINE, or to refused (R252). -/
def failPass (k : Nat) (refused : Bool) (s : State) : State :=
  let n := linkAt s k
  let s1 := setLink s k fun n => { n with pass := false }
  let s2 := if refused then
      if n.state = .refused then s1 else linkEvent k 4 (setLink s1 k fun n => { n with state := .refused })
    else if n.state = .offline then s1
    else if n.offlineTold then setLink s1 k fun n => { n with state := .offline }
    else linkEvent k 1 (setLink s1 k fun n => { n with state := .offline, offlineTold := true })
  if n.deferred then startPass k none s2 else s2

/-- A request for a new pass: at once, or deferred to the end of the pass under way (R249). -/
def requestPass (k : Nat) (s : State) : State :=
  let n := linkAt s k
  if n.pass then setLink s k fun n => { n with deferred := true }
  else
    let was := n.state = .active
    let s1 := startPass k none s
    if was then linkEvent k 0 s1 else s1

/-! ### A remapped lane's return (R270) -/

/-- A lane's own training pass starts; a spare core lets go of its balls first (log 125). -/
def startLanePass (k logical : Nat) (s : State) : State :=
  let (seed, s) := takeFree 31 s
  let core := (linkAt s k).remaps.any fun r => r.2.2 == logical && r.2.1 == 1
  let s1 := setLink s k fun n => { n with
    lanePass := some (logical, 0, s.time.clock, false), configs := 0, echoes := 0, echoSum := 0, probes := []
    phaseAt := s.time.clock, down := if core && !n.down.contains logical then n.down ++ [logical] else n.down }
  setLane s1 (ownLane s k logical) (freshLane seed)

/-- The lane has passed its training and carries its packets again. -/
def laneReturned (k logical : Nat) (s : State) : State :=
  let spare := (((linkAt s k).remaps.find? fun r => r.2.2 == logical).map fun r => r.1).getD 0xFF
  let s1 := setLink s k fun n => { n with
    remaps := n.remaps.filter fun r => r.2.2 != logical
    down := n.down.filter (· != logical), alone := n.alone.filter (· != logical), lanePass := none }
  let s2 := { s1 with sett := { s1.sett with cores := s1.sett.cores.filter fun c => !(c.2.1 == k && c.2.2.1 == logical) } }
  remapEvent k logical 2 spare (setLane s2 (ownLane s k logical) (Lane.unsent s.time.clock))

/-- The lanes that train together and their phase: those of a link in a pass (R245), or a lane that returns (R270). -/
def trainGroup (s : State) (k : Nat) : Option (List Nat × Nat) :=
  let n := linkAt s k
  if n.pass then some (linkLanes k, n.phase)
  else match n.lanePass with
    | some (x, ph, _, false) => some ([ownLane s k x], ph)
    | _ => none

/-- The phase in which a lane trains. -/
def lanePhase (s : State) (l : Nat) : Option Nat :=
  match trainGroup s (linkOf l) with
  | some (g, ph) => if g.contains l then some ph else none
  | none => none

/-- The pass of a link, or of its returning lane, enters a phase. -/
def enterPhase (k ph : Nat) (s : State) : State :=
  setLink s k fun n =>
    if n.pass then { n with phase := ph, phaseAt := s.time.clock }
    else { n with phaseAt := s.time.clock, lanePass := n.lanePass.map fun p => (p.1, ph, p.2.2) }

/-! ### What a transmitter sends unasked (R243, R245) -/

/-- The port code of the device's end of a link (TS1). -/
def ownPort (k : Nat) : Nat := if k < 8 ∨ 12 ≤ k then 0 else if k < 10 then 3 else if k = 10 then 5 else 6

/-- The TS1 that a lane sends now (R241, R244): the seed is the state that scrambles the next scrambled block. -/
def ownTs1 (s : State) (l : Nat) : Bytes :=
  let k := linkOf l
  let n := linkAt s k
  let x := laneAt s l
  let two := flag ((linkLanes k).length == 2)
  [0x1E] ++ le 1 (logicalOf s l + 2 * two + 4 * (lanePhase s l).getD 0) ++
    le 1 (flag x.isLocked + 2 * flag (x.seedOk && 8 ≤ x.idleRun) + 4 * flag x.inverted + 8 * flag n.swapped) ++ le 1 n.rate ++
    leB 4 x.txScr ++ le 1 (ownPort k) ++ zeros 7

/-- The receiver's next request once the last is answered (R251): a free value, 15 at the latest 1 µs before 60 ms of EQ
have gone (log 126). -/
def chooseRequest (l : Nat) (s : State) : State :=
  let x := laneAt s l
  if x.ownDone ∨ !x.ownAnswered then s else
  let (r, s) := takeFree 4 s
  let r := if (linkAt s (linkOf l)).phaseAt + 59999000 ≤ s.time.clock then 15 else r
  if r = 0 then s
  else setLane s l fun x => { x with
    ownReq := r, ownSeq := (x.ownSeq + 1) % 256, ownAnswered := false, ownDone := r == 15 }

/-- The TS2 that a lane sends now (R251): its request, and the answer to the partner's last. -/
def ownTs2 (x : Lane) : Bytes :=
  [0x2D] ++ le 1 x.ownReq ++ le 1 x.ownSeq ++ le 1 x.ts2Resp ++ le 1 x.ts2Seq ++ leS 1 x.pre ++ leS 1 (64 + x.pre + x.post) ++
    leS 1 x.post ++ zeros 8

/-- The CONFIG that the device sends (R245, R265): all rates, 3-bit codes, a receive buffer of 64 units and the delay of its
own echoes (log 127); on XL1 a follower declares the latency from the press master. -/
def ownConfig (s : State) (k : Nat) : Bytes :=
  let up := linkAt s 10
  let master := if k = 11 ∧ s.pos.configured ∧ s.pos.role = 2 then up.latency * 10 / 16 + up.masterLatency + 40 else 0
  [0x3C] ++ le 1 (ownPort k) ++ [7, 2] ++ le 2 0 ++ le 2 64 ++ le 2 0 ++ le 1 (Config.echoDelay.toNat % 101) ++ le 4 master ++ [0]

/-- The transmit tick of a probe in 1/16 tick (R253). -/
def latStamp (s : State) : Nat := s.time.clock * 16 / 10 % 2 ^ 32

/-- The LAT probe that a lane sends now (R253). -/
def sendProbe (l : Nat) (s : State) : State :=
  let k := linkOf l
  putControl k l (le 1 0x47 ++ zeros 3 ++ le 4 (latStamp s) ++ zeros 8)
    (setLink s k fun n => { n with probes := (n.probes ++ [latStamp s]).drop (n.probes.length - 255) })

/-- The block that a lane sends when nothing else waits: TS1 and three IDLE in turn while aligning or waiting for a new
pass (R243, R248), the blocks of its phase with a TS1 once in 32 (R245), IDLE on an ACTIVE link. -/
def fillBlock (l : Nat) (s : State) : State :=
  let x := laneAt s l
  let send := fun (b : Bytes) (s : State) => setLane s l (Lane.send true (fit 16 b))
  let idle := send [0x4B]
  match lanePhase s l with
  | none => if (linkAt s (linkOf l)).state = .active ∨ x.txCount % 4 ≠ 0 then idle s else send (ownTs1 s l) s
  | some 0 => if x.txCount % 4 = 0 then send (ownTs1 s l) s else idle s
  | some ph =>
    if x.txCount % 32 = 0 then send (ownTs1 s l) s
    else if x.txCount % 2 = 0 then idle s
    else match ph with
      | 1 => let s1 := chooseRequest l s; send (ownTs2 (laneAt s1 l)) s1
      | 2 => send (ownConfig s (linkOf l)) s
      | 3 => sendProbe l s
      | _ => idle s

/-- Half bits of a lane in one tick of 10 ns (R238). -/
def tickBits (rate : Nat) : Int := match rate with | 0 => 160 | 1 => 250 | _ => 320

/-- Blocks sent until the time gone by is filled. -/
def fillLane (l : Nat) : Nat → State → State
  | 0, s => s
  | fuel + 1, s => if (laneAt s l).txSlack < 260 then s else fillLane l fuel (fillBlock l s)

/-- One tick of a lane's transmitter; a link that is disabled sends nothing. -/
def tickLane (l : Nat) (s : State) : State :=
  let n := linkAt s (linkOf l)
  if n.state = .disabled then s
  else fillLane l 2 (setLane s l fun x => { x with txSlack := x.txSlack + tickBits n.rate })

/-- One tick of every transmitter. -/
def tickLanes (s : State) : State := (List.range 24).foldl (fun s l => tickLane l s) s

/-! ### Received blocks -/

/-- A remapped lane whose spare core is LOCKED again carries its packets (R269 order 2). -/
def laneBack (l : Nat) (s : State) : State :=
  let k := linkOf l
  match (linkAt s k).remaps.find? fun r => r.2.1 == 1 && ownLane s k r.2.2 == l with
  | some r => if (linkAt s k).lanePass.isSome then s else setLink s k fun n => { n with down := n.down.filter (· != r.2.2) }
  | none => s

/-- Types of the control blocks that a row of their own takes (R244): TS1, TS2, SYNC, CONFIG, LAT, ACK, RESUME, EYE, and MARK
on XL0. -/
def ownRow (l type : Nat) : Bool :=
  [0x1E, 0x2D, 0x33, 0x3C, 0x47, 0x55, 0x5A, 0x71].contains type || (type == 0x66 && l == 22)

/-- The lane's next block where no row takes it: a lost block, IDLE, data, a block of a type without use here or undefined
(R240, R244, R245, R258). None: the block waits for its row, or there is none. -/
def settleBlock (l : Nat) (s : State) : Option State :=
  let x := laneAt s l
  match x.next? with
  | none => none
  | some b =>
    let active := (linkAt s (servedLink s l)).state == .active
    let t := byteAt b.payload 0
    if b.h0 == b.h1 then some (setLane s l fun x => (if active then x.blockLost else x).skip)
    else if b.h0 then
      if t = 0x4B then
        let (p, scr) := scramble x.rxScr true b.payload
        some (setLane s l fun x => { x with
          rx := x.rx.tail, rxScr := scr, idleRun := if (p.drop 1).all (· == 0) then x.idleRun + 1 else 0 })
      else if t = 0x1E ∨ (x.settled ∧ ownRow l t) then none
      else if !x.settled ∨ t = 0x66 ∨ t = 0x69 ∨ t = 0x78 then some (setLane s l Lane.skip)
      else some (setLane s l fun x => { x.skip with headerErr := count32 x.headerErr })
    else if !x.settled then if t = 0xE1 then none else some (setLane s l Lane.skip)
    else if !active ∨ x.discarding then some (setLane s l Lane.skip)
    else if b.viol then some (setLane s l fun x => x.blockLost.skip)
    else some (setLane s l fun x => x.skip.takeData (scramble x.rxScr false b.payload).1)

/-- Blocks taken as far as no row is to take them. -/
def settleBlocks (l : Nat) : Nat → State → State
  | 0, s => s
  | fuel + 1, s => match settleBlock l s with
    | none => s
    | some s1 => settleBlocks l fuel s1

def settleRx (l : Nat) (s : State) : State := settleBlocks l (laneAt s l).rx.length s

/-- The lane's next block is a control block of a type: it is descrambled and taken, its effect follows, and the blocks
behind it are settled. -/
def onBlock (l type : Nat) (f : Bytes → State → State) (s : State) : State :=
  match (laneAt s l).next? with
  | none => s
  | some b =>
    if b.h0 ∧ !b.h1 ∧ byteAt b.payload 0 = type ∧ (laneAt s l).settled then
      let (p, scr) := scramble (laneAt s l).rxScr true b.payload
      settleRx l (f p (setLane s l fun x => { x with rx := x.rx.tail, rxScr := scr }))
    else s

/-- LANE_ALIGNMENT (R239, R242, R243): bits from a lane's line, destuffed, moved through the alignment machine and cut into
blocks; blocks that no row takes are settled. -/
def execLaneAlignment (lane : Fin 24) (line : List Bool) (s : State) : Out :=
  .next (
    let l := lane.val
    if (linkAt s (linkOf l)).state = .disabled then s else
    let before := (laneAt s l).isLocked
    let s1 := setLane s l fun x => line.foldl (Lane.takeBit s.time.clock) x
    settleRx l (if !before ∧ (laneAt s1 l).isLocked then laneBack l s1 else s1))

/-! ### TS1 (R241, R246) -/

/-- A block of 16 bytes reads as a TS1 whose fields are defined (R246). -/
def ts1Ok (b : Bytes) : Bool :=
  byteAt b 0 == 0x1E && byteAt b 1 / 32 == 0 && field (byteAt b 1) 4 2 ≤ 4 && byteAt b 2 / 16 == 0 && byteAt b 3 ≤ 2 &&
    u32 b 4 != 0 && u32 b 4 < 2 ^ 31 && byteAt b 8 ≤ 6 && (List.range 7).all fun i => byteAt b (9 + i) == 0

/-- A TS1 as received taken over: seed, logical lane, phase and status; the lane order follows (R241, R246). -/
def takeTs1 (l : Nat) (b : Bytes) (s : State) : State :=
  let k := linkOf l
  let logical := byteAt b 1 % 2
  let s1 := setLane s l fun x => { x with
    rx := x.rx.tail, rxScr := BitVec.ofNat 31 (u32 b 4), seedOk := true
    ts1Run := x.ts1Run + 1, ts1InvRun := 0, settled := x.settled || 1 ≤ x.ts1Run
    rxLogical := logical, rxPhase := field (byteAt b 1) 4 2, rxLocked := bit (byteAt b 2) 0, rxSeed := bit (byteAt b 2) 1 }
  if (linkLanes k).length = 2 ∧ (linkLanes k).head? = some l ∧ (linkAt s k).pass ∧ (linkAt s k).phase = 0 then
    setLink s1 k fun n => { n with swapped := logical == 1 }
  else s1

/-- A candidate inverted TS1 (R246): after two in a row that pass, the lane reads its blocks inverted, this one again; one
that fails begins anew (log 128). -/
def takeInverted (l : Nat) (b : Bytes) (s : State) : State :=
  let x := laneAt s l
  if !ts1Ok (complement b) then setLane s l fun x => { x.skip with ts1Run := 0, ts1InvRun := 0 }
  else if 1 ≤ x.ts1InvRun then setLane s l fun x => { x with inverted := !x.inverted, ts1Run := 0, ts1InvRun := 0 }
  else setLane s l fun x => { x.skip with ts1InvRun := x.ts1InvRun + 1, ts1Run := 0 }

/-- TS1 (R241, R246): the lane's next block is a TS1 as received, or a candidate inverted one. -/
def execTs1 (lane : Fin 24) (s : State) : Out :=
  .next (
    let l := lane.val
    match (laneAt s l).next? with
    | none => s
    | some b =>
      if b.h0 ∧ !b.h1 ∧ byteAt b.payload 0 = 0x1E then settleRx l (takeTs1 l b.payload s)
      else if !b.h0 ∧ b.h1 ∧ byteAt b.payload 0 = 0xE1 ∧ !(laneAt s l).settled then settleRx l (takeInverted l b.payload s)
      else s)

/-! ### TS2 (R250, R251) -/

/-- FIR presets: c−1 and c+1 (R250). -/
def firPreset (n : Nat) : Int × Int :=
  match n with
  | 0 => (0, -8) | 1 => (0, 0) | 2 => (0, -4) | 3 => (0, -12) | 4 => (-4, 0) | 5 => (-4, -8) | 6 => (-6, -12) | _ => (-8, -16)

/-- Taps within the limits of R250. -/
def firOk (pre post : Int) : Bool := -16 ≤ pre && pre ≤ 0 && -24 ≤ post && post ≤ 0 && 24 ≤ 64 + pre + post

/-- The taps that a request asks for: none for a request that is not defined. -/
def firRequest (pre post : Int) (req : Nat) : Option (Int × Int) :=
  match req with
  | 0 | 15 => some (pre, post)
  | 1 => some (pre - 1, post)
  | 2 => some (pre + 1, post)
  | 3 => some (pre, post - 1)
  | 4 => some (pre, post + 1)
  | 7 => some (firPreset 7)
  | 8 | 9 | 10 | 11 | 12 | 13 | 14 => some (firPreset (req - 8))
  | _ => none

/-- The transmitter after a request: taps and response code, 0 applied, 2 at limit, 3 undefined (R250, R251). -/
def applyRequest (req : Nat) (x : Lane) : Lane :=
  match firRequest x.pre x.post req with
  | none => { x with ts2Resp := 3 }
  | some (a, c) => if firOk a c then { x with pre := a, post := c, ts2Resp := 0 } else { x with ts2Resp := 2 }

/-- A TS2 taken: the partner's new request applied, and its answer to the device's own (R251). -/
def takeTs2 (b : Bytes) (x : Lane) : Lane :=
  let y := { x with
    ts2Any := true, ts2Seq := byteAt b 2, partnerDone := x.partnerDone || byteAt b 1 == 15
    ownAnswered := x.ownAnswered || (byteAt b 4 == x.ownSeq && byteAt b 3 != 1) }
  if !x.ts2Any ∨ byteAt b 2 ≠ x.ts2Seq then applyRequest (byteAt b 1) y else y

/-- TS2 (R250, R251). -/
def execTs2 (lane : Fin 24) (s : State) : Out :=
  .next (onBlock lane.val 0x2D (fun b s => if lanePhase s lane.val = some 1 then setLane s lane.val (takeTs2 b) else s) s)

/-! ### CONFIG and LAT (R252, R253) -/

/-- A returning lane's pass has failed; it starts again 500 ms after it began (R248, R270). -/
def failLanePass (k : Nat) (s : State) : State :=
  setLink s k fun n => { n with lanePass := n.lanePass.map fun p => (p.1, p.2.1, p.2.2.1, true) }

/-- A CONFIG taken (R245, R252, R265): the partner's declaration; a bar driver with a FIFO below 256 lines is refused. -/
def takeConfig (k : Nat) (b : Bytes) (s : State) : State :=
  let n := linkAt s k
  let same := n.configs != 0 && n.partner == b
  let s1 := setLink s k fun n => { n with
    configs := if same then n.configs + 1 else 1
    partner := b
    masterLatency := if k = 10 then u32 b 11 else n.masterLatency }
  if k < 8 ∧ u16 b 4 < 256 then if n.pass then failPass k true s1 else failLanePass k s1 else s1

/-- CONFIG (R245, R252, R265). -/
def execConfig (lane : Fin 24) (s : State) : Out :=
  .next (onBlock lane.val 0x3C
    (fun b s => if lanePhase s lane.val = some 2 then takeConfig (linkOf lane.val) b s else s) s)

/-- Round trip of an echo in 1/16 tick, modulo 2^32 as the stamp is (R253). -/
def roundTrip (s : State) (stamp : Nat) : Nat := (latStamp s + 2 ^ 32 - stamp) % 2 ^ 32

/-- A LAT block taken (R253): a probe of the partner is echoed, an echo of the device's own is measured. -/
def takeLat (l : Nat) (b : Bytes) (s : State) : State :=
  let k := linkOf l
  if byteAt b 1 = 0 then putControl k l (slice b 0 1 ++ [1] ++ slice b 2 14) s
  else if (linkAt s k).probes.contains (u32 b 4) then
    setLink s k fun n => { n with
      probes := n.probes.erase (u32 b 4), echoes := n.echoes + 1, echoSum := n.echoSum + roundTrip s (u32 b 4) }
  else s

/-- LAT (R253): in LAT, and while the partner is still there. -/
def execLat (lane : Fin 24) (s : State) : Out :=
  .next (onBlock lane.val 0x47 (fun b s => if (lanePhase s lane.val).any (3 ≤ ·) then takeLat lane.val b s else s) s)

/-! ### The pass -/

/-- The highest rate that both ends declare and the pass was started for (R247). -/
def chooseRate (n : Link) : Nat := maxOf ((List.range (n.passRate + 1)).filter (bit (byteAt n.partner 2)))

/-- One-way latency over the echoes, in 1/16 tick (R253). -/
def measuredLatency (n : Link) : Nat := (n.echoSum / max 1 n.echoes - byteAt n.partner 10 * 16 / 10) / 2

/-- Latency limits of R261 in 1/16 tick: 330, 200 and 120 ns. -/
def latencyLimit (rate : Nat) : Nat := match rate with | 0 => 528 | 1 => 320 | _ => 192

/-- The link goes ACTIVE (R245, R247, R252, R257, R261, R262). -/
def goActive (k : Nat) (s : State) : State :=
  let n := linkAt s k
  let s1 := setLink s k fun n => { n with
    state := .active, pass := false, trained := some n.rate, offlineTold := false, phase := 4
    credit := u16 n.partner 6, sent := 0, granted := 64, waiting := [], inbox := [], farLock0 := true, farLock1 := true }
  let s2 := setLanes k (Lane.unsent s.time.clock) s1
  let s3 := if k < 8 then
      let s' := setBar s2 k fun b => { b with fifo := u16 n.partner 4, driver := if b.driver = 2 then 2 else 1 }
      if (barAt s' k).driver = 1 then sendServe k s' else s'
    else s2
  let slow := n.rate < n.passRate
  let far := latencyLimit n.rate < n.latency
  let s4 := if slow then linkEvent k 3 s3 else s3
  let s5 := if far then linkEvent k 5 s4 else s4
  let s6 := if !slow ∧ !far then linkEvent k 0 s5 else s5
  if n.deferred then startPass k none s6 else s6

/-- A lane has left ALIGN's conditions behind (R245): LOCKED, 8 IDLE payloads descrambled to 0, polarity settled, and the
partner LOCKED with its seed confirmed. -/
def alignDone (x : Lane) : Bool := x.isLocked && x.seedOk && decide (8 ≤ x.idleRun) && x.settled && x.rxLocked && x.rxSeed

/-- A pass leaves CONFIG (R247): for a second pass at the rate chosen, or for LAT. A returning lane stays at the rate of its
link (log 125). -/
def leaveConfig (k : Nat) (s : State) : State :=
  let n := linkAt s k
  if n.pass ∧ chooseRate n ≠ 0 ∧ !n.second then startPass k (if n.deferred then none else some (chooseRate n)) s
  else enterPhase k 3 (setLink s k fun n => { n with echoes := 0, echoSum := 0, probes := [] })

/-- The conditions of a phase's exit (R245) on every lane of the group. -/
def phaseDone (s : State) (k : Nat) (lanes : List Nat) (ph : Nat) : Bool :=
  let n := linkAt s k
  let all := fun (p : Lane → Bool) => lanes.all fun l => p (laneAt s l)
  match ph with
  | 0 => all alignDone
  | 1 => all fun l => l.partnerDone && l.ownDone
  | 2 => decide (4 ≤ n.configs) && all fun l => 2 ≤ l.rxPhase
  | 3 => decide (16 ≤ n.echoes)
  | _ => all fun l => l.rxPhase == 4

/-- The next phase of the pass, ACTIVE at its end (R245, R247, R253, R270). -/
def nextPhase (k ph : Nat) (s : State) : State :=
  let n := linkAt s k
  match ph with
  | 0 => enterPhase k 1 s
  | 1 => enterPhase k 2 (setLink s k fun n => { n with configs := 0 })
  | 2 => leaveConfig k s
  | 3 => enterPhase k 4 (setLink s k fun m => { m with latency := measuredLatency n })
  | _ => if n.pass then goActive k s else match n.lanePass with
    | some p => laneReturned k p.1 s
    | none => s

/-- TRAINING_PHASE_ADVANCE (R245, R247, R253, R270): the conditions of the phase's exit hold. -/
def execTrainingPhaseAdvance (link : Fin 14) (s : State) : Out :=
  .next (match trainGroup s link.val with
    | none => s
    | some (lanes, ph) => if phaseDone s link.val lanes ph then nextPhase link.val ph s else s)

/-- TRAINING_TIMEOUT (R245, R248, R249): 100 ms without READY. -/
def execTrainingTimeout (link : Fin 14) (s : State) : Out :=
  .next (
    let k := link.val
    let n := linkAt s k
    if n.pass then if n.passAt + 100000000 ≤ s.time.clock then failPass k false s else s
    else match n.lanePass with
      | some (_, _, since, false) => if since + 100000000 ≤ s.time.clock then failLanePass k s else s
      | _ => s)

/-- TRAINING_RETRY (R248): a new pass 500 ms after the start of the failed one. -/
def execTrainingRetry (link : Fin 14) (s : State) : Out :=
  .next (
    let k := link.val
    let n := linkAt s k
    if !n.pass ∧ (n.state = .offline ∨ n.state = .refused) then
      if n.passAt + 500000000 ≤ s.time.clock then startPass k none s else s
    else match n.lanePass with
      | some (x, _, since, true) => if since + 500000000 ≤ s.time.clock then startLanePass k x s else s
      | _ => s)

end Sys2Proof.Machine
end

