-- ==== Sys2Proof/Machine/Tracking.lean ====
section
/-! DEFINITION. The tracking loop (R205 to R208), registration marks (R222, R223), emulated encoder outputs (R224 to R226)
and the pos family of messages (R233 to R235). -/

namespace Sys2Proof.Machine

/-! ### The loop -/

/-- r_max in web lines × 2^32 per µs (R206). -/
def rMax (s : State) : Int :=
  (if s.objs.runs.live.any (fun e => e.2.state.reserves && e.2.pitch == 0) then 100000 else 200000) * 2 ^ 32 / 1000000

/-- (2π)^2 and 2 × 0.707 × 2π, times 10^15 (R205). -/
def fourPiSquared : Int := 39478417604357434
def twoZetaTwoPi : Int := 8884424024351935

/-- The loop holds: standstill or reverse debt (R199, R208). -/
def loopHeld (p : Position) : Bool := p.still || p.inDebt

/-- v after one update of 1 µs, in web lines/s × 2^32: preset from a valid speed after a hold (R208), then one step of
dv/dt = ωn² e (R205). -/
def loopVel (now bw : Nat) (e : Int) (p : Position) : Int :=
  let v := if p.preset && speedValid p then speedAt now p * (p.num : Int) * 2 ^ 32 / (p.den : Int) else p.vel32
  v + fourPiSquared * (bw * bw : Nat) * e / 10 ^ 21

/-- The advance of Φ in one update, in web lines × 2^32 (R205, R206, R208). -/
def loopAdvance (s : State) (bw : Nat) (v e : Int) : Int :=
  if loopHeld s.pos then clampInt 0 (rMax s) e
  else clampInt 0 (max 0 (min (rMax s) (e + 2 ^ 30))) ((v + twoZetaTwoPi * bw * e / 10 ^ 15) / 1000000)

/-- The slip flag after an update, with its events (R207). -/
def noteSlip (e : Int) (s : State) : State :=
  if !s.pos.slip ∧ (s.pos.lagLimit : Int) * 2 ^ 32 < e then
    posEvent 0x0705 0 (le 1 1 ++ zeros 3 ++ leS 4 (e / 2 ^ 26)) { s with pos := { s.pos with slip := true } }
  else if s.pos.slip ∧ e.natAbs < 2 ^ 29 then
    posEvent 0x0705 0 (zeros 4 ++ leS 4 (e / 2 ^ 26)) { s with pos := { s.pos with slip := false } }
  else s

/-- Φ after one update of the loop (R205 to R208); frozen, it stays (R196, R231). -/
def loopStep (s : State) : State :=
  let p := s.pos
  if !p.configured || p.frozen || p.cascadeLost then { s with pos := { p with rate := 0 } } else
  let e := theta p * 2 ^ 16 - p.phi32
  let bw := if p.slip then 4 * p.bandwidth else p.bandwidth
  let v := if loopHeld p then 0 else loopVel s.time.clock bw e p
  let d := loopAdvance s bw v e
  let p' := { p with
    phi32 := p.phi32 + d
    vel32 := v
    preset := loopHeld p || (p.preset && !speedValid p)
    rate := (d * 1000000 / 2 ^ 32).toNat }
  noteSlip (theta p * 2 ^ 16 - p'.phi32) { s with pos := p' }

/-! ### Marks -/

def markAt (s : State) (k : Nat) : MarkInput := s.pos.marks.getD k {}
def setMark (s : State) (k : Nat) (f : MarkInput → MarkInput) : State :=
  { s with pos := { s.pos with marks := modAt s.pos.marks k f } }

/-- θ rounded down to 1/64 web line (R222). -/
def thetaMark (s : State) : Int := theta s.pos / 2 ^ 10

/-- MARK with its flags. -/
def markEvent (k : Nat) (pos : Int) (flags : Nat) (s : State) : State :=
  posEvent 0x0707 0 (leS 6 pos ++ le 1 k ++ le 1 flags) s

/-- θ has passed a mark's window without a mark: missed, once, and expect moves on by pitch (R223). -/
def markMissed (s : State) (k : Nat) : State :=
  let m := markAt s k
  if ¬((m.expect + m.halfWidth : Nat) : Int) < thetaMark s then setMark s k fun m => { m with passed := false }
  else if m.enable ∧ m.window ∧ !m.passed then
    markEvent k (thetaMark s) 2 (setMark s k fun m => { m with expect := m.expect + m.pitch, passed := m.pitch == 0 })
  else s

/-- MARK (R222, R223): an edge of the configured polarity, accepted once its level has held for the input's filter time. -/
def execMark (input : Fin 2) (falling : Bool) (held : Nat) (s : State) : Out :=
  .next (
    let k := input.val
    let s := markMissed s k
    let m := markAt s k
    let pos := thetaMark s
    let masked : Bool := match m.ignoreTo with
      | some l => pos < l
      | none => false
    if !m.enable ∨ m.falling ≠ falling ∨ held < m.filterUs ∨ masked then s
    else
      let stray := m.window && m.halfWidth < distInt pos m.expect
      let s1 := markEvent k pos (flag stray + 4 * flag s.pos.inDebt) s
      if stray then s1
      else setMark s1 k fun m => { m with
        ignoreTo := some (pos + 64 * (m.maskLines : Int))
        passed := false
        expect := if m.window && !s.pos.inDebt then pos.toNat + m.pitch else m.expect })

/-- LOOP_UPDATE (R199, R200, R202, R203, R205 to R208, R218, R220, R223): due every 1 µs; lines counted as missed since the
last LINE_MISSED of a bar are told once its second has passed (R214, R271). -/
def execLoopUpdate (s : State) : Out :=
  .next (
    if s.time.clock < s.pos.loopAt + 1000 then s else
    let s1 := loopStep { s with pos := { s.pos with loopAt := s.pos.loopAt + 1000 } }
    (List.range 8).foldl (fun s b => tellMissed b s) ([0, 1].foldl markMissed (checkPositions s1)))

/-! ### Emulated outputs -/

def emuAt (s : State) (k : Nat) : EmuOut := s.pos.emus.getD k {}
def setEmu (s : State) (k : Nat) (f : EmuOut → EmuOut) : State :=
  { s with pos := { s.pos with emus := modAt s.pos.emus k f } }

/-- What an output follows: a raw count, or Φ in 1/64 web line (R224). -/
def emuInput (s : State) (source input : Nat) : Int := if source = 2 then phi64 s else (encAt s input).count

/-- Counts owed: ⌊input × n / m⌋ since the configuration, less those emitted; none backward from the web position, and none
from it in reverse debt, at standstill and in an encoder fault freeze (R224, R226). -/
def emuOwed (s : State) (o : EmuOut) : Int :=
  if o.source = 0 ∨ (o.source = 2 ∧ (loopHeld s.pos ∨ s.pos.frozen)) then 0 else
  let d := (emuInput s o.source o.input - o.base) * (o.n : Int) / (o.m : Int) - o.emitted
  if o.source = 2 then max 0 d else d

/-- Z of an output after a count (R226): 4 counts at every multiple of z_period. -/
def emuZ (o : EmuOut) (emitted : Int) : Bool :=
  o.zEnable && o.zPeriod != 0 && (o.zPeriod : Int) ≤ emitted.natAbs && emitted % (o.zPeriod : Int) < 4

/-- A and B one count on: forward, A leads B (R224); `invert` turns the direction round. -/
def emuTurn (forward : Bool) (o : EmuOut) : EmuOut :=
  if o.a == o.b then (if forward != o.invert then { o with a := !o.a } else { o with b := !o.b })
  else if forward != o.invert then { o with b := !o.b } else { o with a := !o.a }

/-- The level of Z that repeats the input's Z (R226): up for each rising edge not yet repeated, then as the input's. -/
def emuRepeat (o : EmuOut) (e : Encoder) : Bool := (!o.z && o.zSeen != e.zEdges) || e.z.level

/-- EMU_EDGE (R224 to R226): the next owed edge of an output, min_edge_ns after the last. -/
def execEmuEdge (output : Fin 4) (s : State) : Out :=
  .next (
    let k := output.val
    let o := emuAt s k
    let owed := emuOwed s o
    let zNext := emuRepeat o (encAt s o.input)
    let zNew := o.source == 1 && o.zEnable && o.zPeriod == 0 && zNext != o.z
    let late := 4096 < owed.natAbs && due o.overrunAt 1000000000 s.time.clock
    let s1 := if late then
        posEvent 0x070C 0 (le 1 k ++ zeros 3 ++ le 4 owed.natAbs)
          (setEmu s k fun o => { o with overrunAt := some s.time.clock })
      else s
    if (owed = 0 ∧ !zNew) ∨ !due o.edgeAt o.minEdge s.time.clock then s1
    else setEmu s1 k fun o =>
      let step : Int := if owed = 0 then 0 else if 0 < owed then 1 else -1
      let turned := if owed = 0 then o else emuTurn (decide (0 < owed)) o
      { turned with
        emitted := o.emitted + step
        edgeAt := some s.time.clock
        z := if o.source == 1 && o.zPeriod == 0 then o.zEnable && zNext else emuZ o (o.emitted + step)
        zSeen := (encAt s o.input).zEdges })

/-! ### Messages -/

/-- pos.encoder_config (0x0701, R192 to R194, R233). -/
def opPosEncoderConfig : OpDef where
  code := 0x0701
  len b := b.length == 8
  fields m _ :=
    let b := m.payload
    [within (byteAt b 0) 0 3 0, within (byteAt b 1) 0 3 1, within (byteAt b 2) 1 255 2, below (byteAt b 3) 2 3, reserved b 4 4]
  body m s := do
    let b := m.payload
    let i := byteAt b 0
    require (!(webInput s i && anyActive s)) (plainErr stState)
    okState (setEnc s i fun e => { e with
      mode := byteAt b 1, filter := byteAt b 2, invert := bit (byteAt b 3) 0, term := bit (byteAt b 3) 1 })

/-- A new source, role or ratio in force: on a change of source or ratio h0 becomes h and θ0 becomes Φ, so Φ does not jump
(R233); a source that is faulty freezes Φ (R196). From or to the role of a follower the source of θ changes (R227). -/
def retrack (source role num den : Nat) (s : State) : State :=
  let p := s.pos
  let newSource := !p.configured || p.source != source || (p.role == 2) != (role == 2)
  let phi := p.phi32 / 2 ^ 16
  if !newSource && p.num == num && p.den == den then { s with pos := { p with role := role } } else
  let h := if newSource then (encAt s source).count else p.high
  let p1 := { p with configured := true, source := source, role := role, num := num, den := den, high := h, h0 := h,
                     theta0 := phi, thetaCascade := phi }
  let s1 := { s with pos := if newSource then
      { p1 with inDebt := false, maxDebt := 0, stamps := [], still := true, rxSeq := none, rxAt := some s.time.clock,
                rxMissed := 0, cascadeLost := false, rxGood := 0 }
    else p1 }
  if webInput s1 source ∧ faulty (encAt s1 source) then freezeFor source s1 else s1

/-- pos.track_config (0x0702, R204, R215, R227, R233). -/
def opPosTrackConfig : OpDef where
  code := 0x0702
  len b := b.length == 24
  fields m _ :=
    let b := m.payload
    let num := u48 b 8
    let den := u48 b 14
    [(byteAt b 0 ≤ 4 && (byteAt b 0 != 4 || byteAt b 1 == 2), 0), within (byteAt b 1) 0 2 1, within (byteAt b 2) 0 15 2,
      within (byteAt b 3) 0 6 3, within (u16 b 4) 1 1000 4, within (u16 b 6) 1 2000 6,
      (1 ≤ num && (den == 0 || (den ≤ num * 2 ^ 20 && num ≤ 16 * den)), 8), (1 ≤ den, 14),
      within (byteAt b 20) 1 64 20, within (byteAt b 21) 0 1 21, reserved b 22 2]
  body m s := do
    let b := m.payload
    let same := s.pos.configured && s.pos.source == byteAt b 0 && s.pos.role == byteAt b 1 && s.pos.num == u48 b 8 &&
      s.pos.den == u48 b 14
    require (same || !anyActive s) (plainErr stState)
    let s1 := retrack (byteAt b 0) (byteAt b 1) (u48 b 8) (u48 b 14) s
    okState { s1 with pos := { s1.pos with
      hyst := byteAt b 2, speedAvg := byteAt b 3, standstillMs := u16 b 4, bandwidth := u16 b 6, lagLimit := byteAt b 20,
      wordEvery8 := byteAt b 21 == 1 } }

/-- pos.query (0x0703). -/
def opPosQuery : OpDef where
  code := 0x0703
  len b := b.length == 0
  body _ s :=
    let p := s.pos
    let flags := flag p.configured + 2 * flag p.still + 4 * flag p.inDebt + 8 * flag (speedValid p) + 16 * flag p.slip +
      32 * flag p.frozen + 64 * flag p.cascadeLost + 128 * flag s.bench.lsbActive + 256 * p.role
    okBytes s (le 2 flags ++ le 1 p.source ++ zeros 1 ++ leS 4 (speedAt s.time.clock p) ++ le 4 p.rate ++ zeros 4 ++
      leS 8 (p.phi32 / 2 ^ 16) ++ leS 8 (theta p) ++ leS 6 p.high ++
      leS 6 (if p.inDebt then p.high - (encAt s p.source).count else 0) ++ zeros 4 ++
      (p.enc.flatMap fun e => leS 6 e.count) ++ (p.enc.flatMap fun e => leS 6 e.zCount) ++
      (s.bars.flatMap fun b => leS 1 (b.trim4 / 4)) ++ (s.bars.flatMap fun b => leS 1 (trimTarget b)) ++
      (s.bars.flatMap fun b => le 4 b.missed))

/-- After Φ has been set: no camera trigger waits for a multiple of cam_pitch that Φ has to cross again (R280). -/
def camerasBack (s : State) : State :=
  let back : Face → Face := fun f => { f with trigPos := f.trigPos.map (min (phi64 s).toNat) }
  { s with vision := { s.vision with faces := s.vision.faces.map back } }

/-- The marks' ignored stretches moved with the numbering of the web, by d in 1/64 web line (R222). -/
def shiftMarks (d : Int) (s : State) : State :=
  let shift : MarkInput → MarkInput := fun m => { m with ignoreTo := m.ignoreTo.map (· + d) }
  { s with pos := { s.pos with marks := s.pos.marks.map shift } }

/-- Φ and θ set to a web line, h0 to h (R234); the boundaries passed over fire nothing (R206). -/
def setLine (line : Nat) (s : State) : State :=
  camerasBack <| shiftMarks (64 * (line : Int) - thetaMark s) <| skipLines { s with pos := { s.pos with
    phi32 := (line : Int) * 2 ^ 32, theta0 := (line : Int) * 2 ^ 16, thetaCascade := (line : Int) * 2 ^ 16
    h0 := s.pos.high } }

/-- pos.set (0x0704, R206, R234, R215). -/
def opPosSet : OpDef where
  code := 0x0704
  len b := b.length == 8
  fields m _ := [reserved m.payload 6 2]
  body m s := do
    require (s.pos.configured && s.pos.role != 2 && !anyActive s && !webCompareArmed s) (plainErr stState)
    okState (setLine (u48 m.payload 0) s)

/-- pos.trim (0x0705, R211). -/
def opPosTrim : OpDef where
  code := 0x0705
  len b := b.length == 12
  fields m _ := [reserved m.payload 1 3]
  body m s :=
    let b := m.payload
    let aim : Bar × Nat → Bar := fun e => { e.1 with trimHost := s8 b (4 + e.2) }
    okState { s with bars := s.bars.zipIdx.map fun e => if bit (byteAt b 0) e.2 then aim e else e.1 }

/-- pos.mark_config (0x0706, R222, R223). -/
def opPosMarkConfig : OpDef where
  code := 0x0706
  len b := b.length == 24
  fields m _ :=
    let b := m.payload
    [within (byteAt b 0) 0 1 0, below (byteAt b 1) 3 1, reserved b 3 1, below (u32 b 4) 24 4]
  body m s :=
    let b := m.payload
    let f := byteAt b 1
    okState (setMark s (byteAt b 0) fun _ =>
      { enable := bit f 0, falling := bit f 1, window := bit f 2, filterUs := byteAt b 2, maskLines := u32 b 4
        expect := u64 b 8, halfWidth := u32 b 16, pitch := u32 b 20, ignoreTo := none })

/-- pos.emu_config (0x0707, R224 to R226): the levels of A, B and Z stay until the next output edge, which follows the new
configuration (log 131). Source 2 with z_period 0, which the table defines for source 1 only, is accepted and gives no Z
pulse (DESIGN CHOICE, log 130). -/
def opPosEmuConfig : OpDef where
  code := 0x0707
  len b := b.length == 24
  fields m _ :=
    let b := m.payload
    [within (byteAt b 0) 0 3 0, within (byteAt b 1) 0 2 1, (byteAt b 1 != 1 || byteAt b 2 ≤ 3, 2), below (byteAt b 3) 2 3,
      within (u32 b 4) 1 (2 ^ 24) 4, within (u32 b 8) 1 (2 ^ 24) 8, within (u16 b 16) 100 10000 16, reserved b 18 6]
  body m s :=
    let b := m.payload
    let base := if byteAt b 1 = 0 then 0 else emuInput s (byteAt b 1) (byteAt b 2)
    okState (setEmu s (byteAt b 0) fun o => { o with
      source := byteAt b 1, input := byteAt b 2, invert := bit (byteAt b 3) 0, zEnable := bit (byteAt b 3) 1
      n := u32 b 4, m := u32 b 8, zPeriod := u32 b 12, minEdge := u16 b 16, base := base, emitted := 0
      zSeen := (encAt s (byteAt b 2)).zEdges })

/-- A cause of a fault that froze Φ is present, or has been absent for less than 10 ms (R235). -/
def faultStands (s : State) : Bool :=
  s.pos.frozenBy.any fun i =>
    let e := encAt s i
    faulty e || match e.absentSince with
      | none => false
      | some t => s.time.clock < t + 10000000

/-- pos.fault_clear (0x0708, R196, R235): the high-water count and the base of θ move to the present raw count. -/
def opPosFaultClear : OpDef where
  code := 0x0708
  len b := b.length == 0
  body _ s := do
    require (!faultStands s) (plainErr stState)
    let s1 := { s with pos := { s.pos with slip := false } }
    if !s.pos.frozen then okState s1 else
    let c := (encAt s s.pos.source).count
    let s2 := s.pos.frozenBy.foldl (fun s i =>
      faultEvent i 3 (setEnc s i fun e => { e with absentSince := none, illegalAt := [] })) s1
    okState { s2 with pos := { s2.pos with
      frozen := false, frozenBy := [], theta0 := theta s.pos, high := c, h0 := c, inDebt := false, maxDebt := 0 } }

def execPosEncoderConfig (m : Msg) (s : State) : Out := .next (message opPosEncoderConfig m s)
def execPosTrackConfig (m : Msg) (s : State) : Out := .next (message opPosTrackConfig m s)
def execPosQuery (m : Msg) (s : State) : Out := .next (message opPosQuery m s)
def execPosSet (m : Msg) (s : State) : Out := .next (message opPosSet m s)
def execPosTrim (m : Msg) (s : State) : Out := .next (message opPosTrim m s)
def execPosMarkConfig (m : Msg) (s : State) : Out := .next (message opPosMarkConfig m s)
def execPosEmuConfig (m : Msg) (s : State) : Out := .next (message opPosEmuConfig m s)
def execPosFaultClear (m : Msg) (s : State) : Out := .next (message opPosFaultClear m s)

/-! ### The cascade (R227 to R232) -/

/-- Web position Φ >> 10 in 6 bytes, status and seq, with its CRC-16 (R228). -/
def positionWord (s : State) : Bytes :=
  let p := s.pos
  let b := leS 6 (phi64 s) ++ le 1 (flag p.frozen + 2 * flag p.still + 4 * flag p.inDebt + 8 * flag p.slip) ++ le 1 p.wordSeq
  b ++ leB 2 (crcMsb (0x1021#16) (0xFFFF#16) b)

/-- POSITION_WORD_SEND (R228, R229, R265): at each boundary of word_interval that Φ crosses, and after 50 µs. -/
def execPositionWordSend (s : State) : Out :=
  .next (
    let p := s.pos
    let unit := if p.wordEvery8 then 512 else 64
    let pos := (phi64 s).toNat
    if p.configured ∧ p.role = 1 ∧ (pos / unit ≠ p.wordPos / unit ∨ p.wordAt + 50000 ≤ s.time.clock) then
      sendMark 11 2 (positionWord s)
        { s with pos := { p with wordPos := pos, wordAt := s.time.clock, wordSeq := (p.wordSeq + 1) % 256 } }
    else s)

/-- Loss of the cascade, declared while a run is active: Φ freezes (R231). -/
def loseCascade (cause : Nat) (s : State) : State :=
  if !anyActive s || s.pos.cascadeLost then s
  else posEvent 0x0708 0 (le 1 cause) { s with pos := { s.pos with cascadeLost := true, rxGood := 0 } }

/-- Total latency of a follower from the master in ns (R230, R265): that of XL0, in 1/16 tick, and the master latency
received on it. -/
def cascadeLatency (s : State) : Nat := (linkAt s 10).latency * 10 / 16 + (linkAt s 10).masterLatency

/-- A word's position with v × the total latency added, in web lines × 2^16 (R230). -/
def wordTheta (s : State) (pos : Nat) : Int :=
  (pos : Int) * 2 ^ 10 + s.pos.vel32 * (cascadeLatency s : Int) / (1000000000 * 2 ^ 16)

/-- Φ takes the master's position (R232). -/
def takePosition (th : Int) (s : State) : State :=
  camerasBack (skipLines { s with pos := { s.pos with phi32 := th * 2 ^ 16, thetaCascade := th } })

/-- A valid word without ERROR whose position has been judged (R231, R232). -/
def applyWord (th : Int) (s : State) : State :=
  if !anyActive s then takePosition th { s with pos := { s.pos with cascadeLost := false, rxGood := 0 } }
  else if !s.pos.cascadeLost then { s with pos := { s.pos with thetaCascade := th } }
  else if th * 2 ^ 16 < s.pos.phi32 then { s with pos := { s.pos with rxGood := 0 } }
  else if s.pos.rxGood + 1 < 64 then { s with pos := { s.pos with rxGood := s.pos.rxGood + 1 } }
  else
    let before := webLine s
    let s1 := takePosition th { s with pos := { s.pos with cascadeLost := false, rxGood := 0 } }
    posEvent 0x0709 0 (le 6 (webLine s1 - before)) s1

/-- A word whose CRC is good (R230 to R232, R265): forwarded unchanged, then judged. -/
def validWord (word : Bytes) (s : State) : State :=
  let p := s.pos
  let pos := leAt word 0 6
  let status := byteAt word 6
  let seq := byteAt word 7
  let skipped := match p.rxSeq with | none => 0 | some q => (seq + 255 - q) % 256
  let guess := (p.rxPos : Int) * 2 ^ 26 + p.vel32 * ((s.time.clock - p.rxAt.getD s.time.clock : Nat) : Int) / 1000000000
  let jump := p.rxSeq.isSome && 256 * 2 ^ 32 < distInt ((pos : Int) * 2 ^ 26) guess
  let s0 := sendMark 11 2 word s
  let s1 := { s0 with pos := { s0.pos with
    rxSeq := some seq, rxAt := some s.time.clock, rxPos := pos, rxMissed := 0, still := bit status 1, inDebt := bit status 2 } }
  if bit status 0 then
    let s2 := loseCascade 2 s1
    { s2 with pos := { s2.pos with rxGood := 0 } }
  else if 2 ≤ max skipped p.rxMissed ∧ !p.cascadeLost ∧ anyActive s then loseCascade 1 s1
  else if jump ∧ !p.cascadeLost ∧ anyActive s then loseCascade 3 s1
  else
    let s2 := if jump then shiftMarks (((pos : Int) * 2 ^ 26 - guess) / 2 ^ 26) s1 else s1
    applyWord (wordTheta s1 pos) (if skipped = 0 then s2 else { s2 with pos := { s2.pos with rxGood := 0 } })

/-- Words missed in a row; two declare the loss (R231). -/
def missWords (n : Nat) (s : State) : State :=
  let k := s.pos.rxMissed + n
  let s1 := { s with pos := { s.pos with rxMissed := k, rxGood := 0 } }
  if 2 ≤ k then loseCascade 1 s1 else s1

/-- A position word judged (R227, R228, R230 to R232, R206). -/
def takeWord (word : Bytes) (s : State) : State :=
  if !follower s then s
  else if crcMsb (0x1021#16) (0xFFFF#16) (word.take 8) ≠ BitVec.ofNat 16 (u16 word 8) then missWords 1 s
  else validWord word s

/-- POSITION_WORD_RECEIVE (R231): the next block received on XL0, where it is a MARK of class 2 (R263). -/
def execPositionWordReceive (s : State) : Out :=
  .next (onBlock 22 0x66 (fun b s => if byteAt b 1 = 2 then takeWord (slice b 2 10) s else s) s)

/-- CASCADE_WORD_TIMEOUT (R231): 100 µs without a valid word count as two missed words. -/
def execCascadeWordTimeout (s : State) : Out :=
  .next (
    match s.pos.rxAt with
    | some t => if follower s ∧ t + 100000 ≤ s.time.clock then missWords 2 s else s
    | none => s)

end Sys2Proof.Machine
end

