-- ==== Sys2Proof/Machine/CameraLines.lean ====
section
/-! DEFINITION. Camera lines of the vision pipeline (09): CAMSET tables (R303), sensor lines (R282 to R284), stages 1 and 2
(R290 to R292), and stages 3 to 6 (R293 to R296). -/

namespace Sys2Proof.Machine

def faceAt (s : State) (k : Nat) : Face := s.vision.faces.getD k {}
def setFace (s : State) (k : Nat) (f : Face → Face) : State :=
  { s with vision := { s.vision with faces := modAt s.vision.faces k f } }

/-- The CAMSET of a slot changed. -/
def setCam (s : State) (slot : Nat) (f : CamSet → CamSet) : State :=
  { s with objs := { s.objs with camsets := s.objs.camsets.update slot f } }

/-- The handle of the CAMSET of a slot. -/
def camHandle (s : State) (slot : Nat) : BitVec 32 := s.objs.camsets.handle tyCamset slot

/-! ### Tables (R303) -/

/-- The parameter block at creation (R303). -/
def camDefaults : Bytes :=
  le 2 256 ++ le 2 64 ++ le 2 0 ++ le 2 3584 ++ le 1 16 ++ le 1 26 ++ le 2 64 ++ zeros 6 ++ le 2 4096 ++ le 2 4096 ++ le 2 4096 ++
    le 2 4096 ++ zeros 8 ++ le 2 4096 ++ zeros 8 ++ le 2 4096 ++ zeros 2

/-- A byte of a table at creation (R303): no defects, dark 0, ref 3,584, the defaults, no windows, regions absent. -/
def camInit (t off : Nat) : Byte :=
  match t with
  | 0 => 0xFF
  | 2 => if off % 2 = 0 then 0x00 else 0x0E
  | 3 => camDefaults.getD off 0
  | 5 => if off % 12 = 0 then 0xFF else 0
  | _ => 0

/-- Sizes of the tables in bytes (cam.param_write). -/
def camTableSize (width : Nat) : Nat → Nat
  | 0 => 16384
  | 1 | 2 => 2 * width
  | 3 => 48
  | 4 => 1024
  | _ => 48

/-- A byte, 16-bit and 32-bit field of a table. -/
def tab8 (l : List (SMap Byte)) (t off : Nat) : Nat := ((smFind (l.getD t []) off).getD (camInit t off)).toNat
def tab16 (l : List (SMap Byte)) (t off : Nat) : Nat := tab8 l t off + 256 * tab8 l t (off + 1)
def tab32 (l : List (SMap Byte)) (t off : Nat) : Nat := tab16 l t off + 65536 * tab16 l t (off + 2)

/-- Bytes of one table laid over another. -/
def overlayTable (base new : SMap Byte) : SMap Byte := new.foldl (fun t e => smSet t e.1 e.2) base

/-- Every table overlaid. -/
def overlayAll (base new : List (SMap Byte)) : List (SMap Byte) := base.zipIdx.map fun e => overlayTable e.1 (new.getD e.2 [])

/-- The defect map: the entries before 0xFFFF_FFFF (table 0). -/
def defectsOf (l : List (SMap Byte)) : List Nat :=
  ((List.range 4096).map fun i => tab32 l 0 (4 * i)).takeWhile fun v => v != 0xFFFFFFFF

/-- A region of the face line: lane, first column, columns (table 5); absent ones left out. -/
def regionsOf (l : List (SMap Byte)) : List (Nat × Nat × Nat) :=
  ((List.range 4).map fun i => (tab8 l 5 (12 * i), tab32 l 5 (12 * i + 4), tab32 l 5 (12 * i + 8))).filter fun r => r.1 != 0xFF

/-! ### The face line (R284) -/

/-- The sensors that an exposure set uses: exposure_ns not 0 (R281). -/
def usedSensors (exposure : Bytes) : List Nat := (List.range 4).filter fun k => u32 exposure (8 * k + 4) != 0

/-- Sensors tile the face line exactly, first_px and crop_left even (R284): from a column on, in rising first_px. -/
def tilesFrom (at_ : Nat) : List Sensor → Nat → Bool
  | [], width => at_ == width
  | q :: rest, width =>
    q.firstPx == at_ && q.firstPx % 2 == 0 && q.cropLeft % 2 == 0 && q.cropLeft + q.cropRight < q.pixels &&
      tilesFrom (at_ + (q.pixels - q.cropLeft - q.cropRight)) rest width

def tiles (l : List Sensor) (width : Nat) : Bool := tilesFrom 0 (sortBy (fun q => (q.firstPx : Int)) l) width

/-- The pixels of a sensor line as they stand in the face line: cropped, then mirrored (R284). -/
def cropLine (q : Sensor) (px : List Nat) : List Nat :=
  let l := (px.drop q.cropLeft).take (q.pixels - q.cropLeft - q.cropRight)
  if q.mirror then l.reverse else l

/-- The face line of the used sensors, none where it does not fit (R284). -/
def faceLine (cam : CamSet) (used : List Nat) (lines : List SensorLine) : Option (List Nat) :=
  let cfg := used.filterMap fun k => (cam.sensors.getD k none).map fun q => (k, q)
  if cfg.length = used.length ∧ tiles (cfg.map (·.2)) cam.width then
    some ((sortBy (fun e => (e.2.firstPx : Int)) cfg).flatMap fun e =>
      match lines.find? (fun l => l.sensor == e.1) with
      | some l => cropLine e.2 (l.segs.flatMap id)
      | none => [])
  else none

/-- The col-swap flag of the sensor that a face column comes from (R295). -/
def swappedAt (cam : CamSet) (c : Nat) : Bool :=
  cam.sensors.any fun o => match o with
    | some q => q.colSwap && q.firstPx ≤ c && c < q.firstPx + (q.pixels - q.cropLeft - q.cropRight)
    | none => false

/-! ### Where a line lies -/

/-- Web position in 1/64 web line, and line in web lines, that a trigger position images (R279). -/
def imaged64 (cam : CamSet) (pos : Nat) : Int := (pos : Int) - cam.camOffset
def imagedLine (cam : CamSet) (pos : Nat) : Int := imaged64 cam pos / 64

/-- The active run of a web lane. -/
def laneRun (s : State) (lane : Nat) : Option Run :=
  (s.objs.runs.live.find? fun e => e.2.state.active && e.2.lane == lane).map fun e => e.2

/-- A web line lies `phase` to `phase + count` web lines into the repeat of a run. -/
def inPhase (r : Run) (w : Int) (phase count : Nat) : Bool :=
  let q := qOf r.pitch
  let y := (w * 16 / (q : Int)).toNat
  let start : Int := (repeatStart r (repeatOf r y).1 * q / 16 : Nat)
  0 ≤ w && start + phase ≤ w && w < start + phase + count

/-- The windows of table 4 that collect a line imaged at position `pos`: those of lanes with an active run in whose repeat
it lies in the window (R297). -/
def windowsOn (s : State) (cam : CamSet) (tabs : List (SMap Byte)) (pos : Nat) : List Nat :=
  (List.range 64).filter fun k =>
    let o := 16 * k
    tab8 tabs 4 (o + 3) % 2 == 1 && (laneRun s (tab8 tabs 4 (o + 2))).any fun r =>
      inPhase r (imagedLine cam pos) (tab32 tabs 4 (o + 12)) (tab16 tabs 4 (o + 10))

/-! ### Stages 1 and 2 -/

/-- Stage 1, defect pixels (R290). -/
def stage1 (defects : List Nat) (x : List Nat) : List Nat :=
  x.zipIdx.map fun e =>
    if defects.contains e.2 then
      let right := x.getD (e.2 + 2) (x.getD (e.2 - 2) 0)
      let left := if e.2 < 2 then right else x.getD (e.2 - 2) 0
      (left + right + 1) / 2
    else e.1

/-- The history of a lane for a camera line at position `pos` (R291, R292): whether it is valid, and its line p; none where the
lane has no active run. -/
def historyLine (s : State) (cam : CamSet) (lane : Nat) (pos : Nat) : Option (Bool × Nat) :=
  match s.objs.runs.live.find? (fun e => e.2.state.active && e.2.lane == lane) with
  | none => none
  | some e =>
    let r := e.2
    let w64 : Int := (pos : Int) - cam.camOffset
    let q := qOf r.pitch
    let y := (w64 * 16 / (64 * q : Nat)).toNat
    let len := repeatLen r (repeatOf r y).1 * q / 16
    if len = 0 then none else
    let since := max (4 * r.firstLine * q) (smGet cam.histFrom 0 lane)
    some (len * 64 ≤ cam.historyLines * cam.camPitch && (since + 64 * len : Nat) ≤ w64,
      (w64 % (64 * len : Nat)).toNat / cam.camPitch)

/-- One column of stage 2 (R291): the output and the code written back. -/
def tnr (alpha thresh : Nat) (old : Option Nat) (x : Nat) : Nat × Nat :=
  let y : Int := match old with
    | none => x
    | some code =>
      let h := code * code / 16
      if distInt x h ≤ thresh then (h : Int) + (((x : Int) - h) * alpha + 128) / 256 else x
  (y.toNat, isqrt (16 * y.toNat))

/-- Stage 2 over a face line (R291, R292): output, whether a region was bypassed, and the history after it. -/
def stage2 (s : State) (cam : CamSet) (tabs : List (SMap Byte)) (pos : Nat) (x : List Nat) :
    List Nat × Bool × SMap (SMap Nat) :=
  let views := (regionsOf tabs).map fun r => (r, historyLine s cam r.1 pos)
  let alpha := tab16 tabs 3 0
  let thresh := tab16 tabs 3 2
  let r := x.zipIdx.foldl (fun (acc : List Nat × SMap (SMap Nat)) e =>
    match views.find? (fun v => v.1.2.1 ≤ e.2 && e.2 < v.1.2.1 + v.1.2.2) with
    | some (_, some (valid, p)) =>
      let o := tnr alpha thresh (if valid then some (smGet (smGet cam.history [] p) 0 e.2) else none) e.1
      (o.1 :: acc.1, if p < cam.historyLines then smSet acc.2 p (smSet (smGet acc.2 [] p) e.2 o.2) else acc.2)
    | _ => (e.1 :: acc.1, acc.2)) ([], cam.history)
  (r.1.reverse, views.any fun v => !(v.2.any fun h => h.1), r.2)

/-! ### Stages 3 to 6 -/

/-- The value of a same-colour neighbour of a pixel, `dy` lines and `dx` columns away (R293). -/
def neighbour (recent : List (Nat × List Nat)) (line c : Nat) (dy dx : Int) : Option Nat :=
  let y : Int := line + dy
  let k : Int := c + dx
  if (dy = 0 ∧ dx = 0) ∨ k < 0 ∨ y < 0 then none
  else match recent.find? (fun e => e.1 == y.toNat) with
    | some e => e.2[k.toNat]?
    | none => none

/-- Stage 3, spatial noise reduction, of one pixel (R293). -/
def stage3 (thresh : Nat) (recent : List (Nat × List Nat)) (line c x : Nat) : Nat :=
  if thresh = 0 then x else
  let steps : List Int := [-2, 0, 2]
  let near : List Nat := (steps.flatMap fun dy => steps.filterMap fun dx => neighbour recent line c dy dx).filter fun v =>
    distInt v x ≤ thresh
  (x + sumOf near + (near.length + 1) / 2) / (near.length + 1)

/-- Stage 4, flat-field, of one pixel (R294): 0 in `ref` leaves the gain a free value (log 40). -/
def stage4 (tabs : List (SMap Byte)) (c x : Nat) : Nat :=
  let gain := quot (tab16 tabs 3 6 * 2 ^ 14) (tab16 tabs 2 (2 * c))
  (clampInt 0 4095 ((((x : Int) - tab16 tabs 1 (2 * c)) * gain + 8192) / 2 ^ 14)).toNat

/-- A 12-bit result (R295, R296). -/
def clamp12 (z : Int) : Int := clampInt 0 4095 z

/-- Stages 5 and 6 of one cell (R295, R296): R, G, C and I to o0 to o3. -/
def colour (tabs : List (SMap Byte)) (r g c i : Nat) : List Nat :=
  let less := fun (v : Nat) (off : Nat) => clamp12 ((v : Int) - (tab16 tabs 3 off * i / 4096 : Nat))
  let r' := less r 12
  let g' := less g 14
  let c' := less c 16
  let b := clamp12 ((tab16 tabs 3 22 * c' - tab16 tabs 3 18 * r' - tab16 tabs 3 20 * g') / 4096)
  let m := fun (k j : Nat) => toSigned 16 (tab16 tabs 3 (24 + 8 * k + 2 * j))
  let out := fun (k : Nat) => (clamp12 ((m k 0 * r' + m k 1 * g' + m k 2 * b + m k 3 * 4096 + 2048) / 4096)).toNat
  [out 0, out 1, out 2, i]

/-- The output columns of a pair of mosaic lines after stage 4 (R295): even line R and G, odd line C and I, the two columns
of a cell exchanged where the sensor swaps them. -/
def pairColumns (cam : CamSet) (tabs : List (SMap Byte)) (even odd : List Nat) : List (List Nat) :=
  (List.range (cam.width / 2)).map fun k =>
    let px := fun (l : List Nat) (j : Nat) => l.getD (2 * k + if swappedAt cam (2 * k) then 1 - j else j) 0
    colour tabs (px even 0) (px even 1) (px odd 0) (px odd 1)

/-! ### Substrate (R310) -/

/-- The dots that output column `k` of a face covers for a CALSET, in 1/65,536 dot (R311). -/
def calDots (q : CalSet) (k width : Nat) : Int × Int :=
  let x := q.x0 * 256
  let w : Int := (width : Int) * q.colPitch
  if q.mirrored then (x - ((k : Int) + 1) * w, x - (k : Int) * w) else (x + (k : Int) * w, x + ((k : Int) + 1) * w)

/-- Demand of a strip's bin on a bar (R308). -/
def stripSum (run : BitVec 32) (bar : Bar) (line bin : Int) : Nat :=
  if line < 0 ∨ bin < 0 then 0
  else match bar.strips.find? (fun e => e.run == run && e.line == line.toNat) with
    | some e => smGet e.sums 0 bin.toNat
    | none => 0

/-- A loop bin is substrate around a device line: no demand on any bar of the lane in it and its neighbours, in its strip
and the strips on either side (R310). -/
def binSubstrate (s : State) (run : BitVec 32) (r : Run) (y bin : Int) : Bool :=
  (runBars s r).all fun b => ([-1, 0, 1] : List Int).all fun d => ([-128, 0, 128] : List Int).all fun e =>
    stripSum run (barAt s b) (y / 128 * 128 + e) (bin + d) == 0

/-- A camera pixel images only substrate: of the run of a CALSET of the face whose span covers its column (R294, R310). -/
def substrateAt (s : State) (face : Nat) (cam : CamSet) (pos c : Nat) : Bool :=
  s.objs.calsets.live.any fun e =>
    let q := e.2
    let d := calDots q (c / 2) 1
    let b0 := d.1 / 65536 / 8
    let b1 := (d.2 - 1) / 65536 / 8
    q.face == face && match channelOf s q.channel with
      | none => false
      | some ch => match runOf s ch.run with
        | none => false
        | some r =>
          let y := ((pos : Int) - cam.camOffset) * 16 / (64 * qOf r.pitch : Nat)
          (ch.dotStart : Int) ≤ d.1 / 65536 && (d.2 - 1) / 65536 < (ch.dotStart + ch.dotWidth : Nat) &&
            0 ≤ y && runPrints r y.toNat &&
            (List.range ((b1 - b0).toNat + 1)).all fun i => binSubstrate s ch.run r y (b0 + i)

end Sys2Proof.Machine
end

