-- ==== Sys2Proof/Machine/Vision.lean ====
section
/-! DEFINITION. The vision pipeline (09): triggers (R279, R280), frames (R286 to R289, R298), line packets (R282, R283), the
flat-field at a frame's end (R294), captures (R300), faults (R301) and the cam family of messages. -/

namespace Sys2Proof.Machine

/-- The CAMSET in the active slot of a face, with its slot. -/
def activeCam (s : State) (k : Nat) : Option (Nat × CamSet) :=
  match (faceAt s k).active with
  | none => none
  | some i => (s.objs.camsets.at? i).map fun c => (i, c)

/-- VE0 or VE1 is declared faulty (R301). -/
def visionFaulty (s : State) : Bool := s.vision.fault.any id

/-! ### Pairs of lines and the end of a frame -/

/-- The frame of a face under way that a camera line belongs to. -/
def frameOf (s : State) (k slot f : Nat) : Option FrameAcc :=
  (faceAt s k).frames.find? fun a => a.camset == slot && a.frame == f && !a.ended

/-- That frame changed. -/
def setFrame (s : State) (k slot f : Nat) (g : FrameAcc → FrameAcc) : State :=
  setFace s k fun x => { x with
    frames := x.frames.map fun a => if a.camset = slot ∧ a.frame = f ∧ !a.ended then g a else a }

/-- Position Φ >> 10 at the trigger of a camera line. -/
def linePos (s : State) (k line : Nat) : Nat :=
  match (faceAt s k).trigLog.find? (fun e => e.1 == line) with
  | some e => e.2.1
  | none => 0

/-- One mosaic line through stages 3 and 4, with its substrate samples (R293, R294). -/
def flatLine (s : State) (k : Nat) (cam : CamSet) (acc : FrameAcc) (line : Nat) (px : List Nat) :
    List Nat × SMap (Nat × Nat) :=
  let thresh := tab16 acc.tables 3 4
  let y := px.zipIdx.map fun e => stage3 thresh (faceAt s k).recent line e.2 e.1
  let pos := linePos s k line
  (y.zipIdx.map fun e => stage4 acc.tables e.2 e.1,
   y.zipIdx.foldl (fun m e => if substrateAt s k cam pos e.2 then
      let v := smGet m (0, 0) e.2
      smSet m e.2 (v.1 + 1, v.2 + e.1) else m) acc.substrate)

/-- The next output line of a face (R293 to R296): nothing where one of its lines is missing (R289). -/
def nextPair (k slot : Nat) (cam : CamSet) (s : State) : State :=
  let n := (faceAt s k).pairNext
  let s1 := setFace s k fun x => { x with pairNext := n + 1 }
  let find := fun l => ((faceAt s k).recent.find? fun e => e.1 == l).map fun e => e.2
  match find (2 * n), find (2 * n + 1), frameOf s k slot (2 * n / max 1 cam.frameLines) with
  | some even, some odd, some acc =>
    let e := flatLine s k cam acc (2 * n) even
    let o := flatLine s k cam { acc with substrate := e.2 } (2 * n + 1) odd
    let cols := pairColumns cam acc.tables e.1 o.1
    let s2 := setFrame s1 k slot acc.frame fun a => { a with out := a.out ++ [(n, linePos s k (2 * n), cols)], substrate := o.2 }
    setFace s2 k fun x => { x with outLog := ((n, cols) :: x.outLog).take 65536 }
  | _, _, _ => s1

/-- Output lines whose stage-3 neighbours are all completed or discarded (R293). -/
def runPairs (k slot : Nat) (cam : CamSet) : Nat → State → State
  | 0, s => s
  | fuel + 1, s =>
    let f := faceAt s k
    if 2 * f.pairNext + 4 ≤ f.settledTo then runPairs k slot cam fuel (nextPair k slot cam s)
    else setFace s k fun x => { x with recent := x.recent.filter fun e => 2 * x.pairNext ≤ e.1 + 2 }

/-- The output lines that remain of a frame, with the neighbours there are. -/
def finishPairs (k slot f : Nat) (cam : CamSet) : Nat → State → State
  | 0, s => s
  | fuel + 1, s =>
    if 2 * (faceAt s k).pairNext < (f + 1) * cam.frameLines then finishPairs k slot f cam fuel (nextPair k slot cam s) else s

/-- The flat-field reference of a column after a frame (R294), none where it has too few samples: the present reference `now`
moved by the frame's samples. -/
def newRef (tabs now : List (SMap Byte)) (m : SMap (Nat × Nat)) (c : Nat) : Option Nat :=
  let v := smGet m (0, 0) c
  if v.1 = 0 ∨ v.1 < tab16 tabs 3 10 then none
  else
    let mean : Int := ((v.2 + v.1 / 2) / v.1 : Nat) - (tab16 tabs 1 (2 * c) : Int)
    let ref : Int := tab16 now 2 (2 * c)
    some (ofSigned 16 (ref + ((mean - ref) * tab8 tabs 3 8 + 128) / 256))

/-- A column's reference lies beyond ff_limit of what the host wrote last (R294). -/
def drifts (cam : CamSet) (c : Nat) : Bool :=
  let host := tab16 [[], [], cam.hostRef] 2 (2 * c)
  tab8 cam.tables 3 9 * host < 256 * distInt (tab16 cam.tables 2 (2 * c)) host

/-- The loop bins that a face column covers for a CALSET (R311). -/
def binsOfColumn (q : CalSet) (c : Nat) : List Nat :=
  let d := calDots q (c / 2) 1
  let b0 := d.1 / 65536 / 8
  ((List.range (((d.2 - 1) / 65536 / 8 - b0).toNat + 1)).map fun (i : Nat) => b0 + i).filterMap fun b =>
    if b < 0 then none else some b.toNat

/-- Columns that drift bar the loop bins they cover from the present window (R313). -/
def excludeBins (k : Nat) (cols : List Nat) (s : State) : State :=
  let bar : CalSet → CalSet := fun q =>
    if q.face ≠ k then q else { q with excluded := (cols.flatMap (binsOfColumn q) ++ q.excluded).eraseDups }
  { s with objs := { s.objs with calsets := s.objs.calsets.mapLive bar } }

/-- The flat-field step at a frame's end (R294): references, FF_UPDATED, FLAT_DRIFT. -/
def flatField (k slot : Nat) (acc : FrameAcc) (s : State) : State :=
  match s.objs.camsets.at? slot with
  | none => s
  | some cam =>
    let moved := (List.range cam.width).filterMap fun c => (newRef acc.tables cam.tables acc.substrate c).map fun r => (c, r)
    let ref := moved.foldl (fun t e => smSet (smSet t (2 * e.1) (BitVec.ofNat 8 e.2)) (2 * e.1 + 1) (BitVec.ofNat 8 (e.2 / 256)))
      (cam.tables.getD 2 [])
    let cam' := { cam with tables := setAt cam.tables 2 ref }
    let s1 := setCam s slot fun c => { c with tables := setAt c.tables 2 ref }
    let s2 := if moved.isEmpty then s1 else setFrame s1 k slot acc.frame fun a => { a with flags := a.flags ||| 8 }
    let cols := (List.range cam.width).filter (drifts cam')
    let s3 := excludeBins k cols s2
    if !cols.isEmpty ∧ due (faceAt s k).flatAt 1000000000 s.time.clock then
      fieldEvent 0x0904 (camHandle s slot) (le 4 (cols.headD 0) ++ le 4 cols.length)
        (setFace s3 k fun x => { x with flatAt := some s.time.clock })
    else s3

/-- A captured output line: 6 bytes a pixel (R300). The pixels of a line that was excluded are free values (log 40). -/
def captureLine (cam : CamSet) (acc : FrameAcc) (n fresh : Nat) : Bytes :=
  match acc.out.find? (fun e => e.1 == n) with
  | some e => e.2.2.flatMap fun o => le 6 (o.getD 0 0 + 4096 * o.getD 1 0 + 2 ^ 24 * o.getD 2 0 + 2 ^ 36 * o.getD 3 0)
  | none => (List.range (cam.width / 2)).flatMap fun i => leB 6 (Config.freeValue (fresh + i))

/-- The pixels of a captured frame (R300). -/
def captureFrame (cam : CamSet) (acc : FrameAcc) (fresh : Nat) : Bytes :=
  (List.range (cam.frameLines / 2)).flatMap fun i =>
    captureLine cam acc (acc.frame * (cam.frameLines / 2) + i) (fresh + i * (cam.width / 2))

/-- A frame ends (R286, R289, R294, R300): its flags, its references, its captured pixels. -/
def endFrame (k slot f : Nat) (s0 : State) : State :=
  match s0.objs.camsets.at? slot with
  | none => s0
  | some cam =>
    let s := finishPairs k slot f cam (cam.frameLines + 1) s0
    match frameOf s k slot f with
    | none => s
    | some acc =>
      let flags := acc.flags ||| (if cam.frameLines / 64 < acc.missing then 2 else 0)
      let s1 := setFrame s k slot f fun a => { a with flags := flags }
      let s2 := flatField k slot { acc with flags := flags } s1
      let pixels := captureFrame cam acc s.fresh
      let wants := cam.capturing.any fun c => c.frame == some f && c.bytes.isNone
      let fill : Capturing → Capturing := fun c => if c.frame = some f ∧ c.bytes.isNone then { c with bytes := some pixels } else c
      let s3 := setCam s2 slot fun c => { c with
        capturing := c.capturing.map fill
        mixed := c.mixed + flags % 2 }
      let s4 := if wants then { s3 with fresh := s3.fresh + cam.frameLines / 2 * (cam.width / 2) } else s3
      let s5 := setFrame s4 k slot f fun a => { a with ended := true }
      setFace s5 k fun x => { x with frames := x.frames.filter fun a => !(a.ended && a.dropped) }

/-! ### Settled lines -/

/-- The mark below which every line is settled moved up. -/
def advanceSettled : Nat → Face → Face
  | 0, f => f
  | fuel + 1, f =>
    if f.settled.contains f.settledTo then
      advanceSettled fuel { f with settledTo := f.settledTo + 1, settled := f.settled.filter fun l => l != f.settledTo }
    else f

/-- A line completed or discarded (R283): nothing that arrives for it later counts. -/
def settleLine (k line : Nat) (s : State) : State :=
  setFace s k fun f => advanceSettled 64 { f with settled := line :: f.settled, lines := f.lines.filter fun l => l.line != line }

def isSettled (f : Face) (line : Nat) : Bool := line < f.settledTo || f.settled.contains line

/-- A line discarded whole: counted as missing, for its frame too (R283, R289). -/
def missCameraLine (k slot line : Nat) (s : State) : State :=
  match s.objs.camsets.at? slot with
  | none => s
  | some cam =>
    let s1 := setCam s slot fun c => { c with missing := (c.missing + 1) % 2 ^ 32 }
    settleLine k line (setFrame s1 k slot (line / max 1 cam.frameLines) fun a => { a with missing := a.missing + 1 })

/-- Lines not settled below a bound are discarded (R283). -/
def discardBelow (k slot bound : Nat) (s : State) : State :=
  let f := faceAt s k
  (((List.range (bound - f.settledTo)).map fun i => f.settledTo + i).filter fun l => !isSettled f l).foldl
    (fun s l => missCameraLine k slot l s) s

/-! ### Activation -/

/-- The face's present CAMSET stops: its lines in flight are missing and its frames end (R304, R298). -/
def leaveFace (k : Nat) (s : State) : State :=
  match (faceAt s k).active with
  | none => s
  | some slot =>
    let s1 := discardBelow k slot (faceAt s k).nextLine s
    let s2 := ((faceAt s1 k).frames.filter fun a => !a.ended && a.camset == slot).foldl
      (fun s a => endFrame k slot a.frame s) s1
    let s3 := setCam s2 slot fun c => { c with active := false, activate := none }
    setFace s3 k fun f =>
      { active := none, frames := f.frames, flatAt := f.flatAt, started := f.started, expAt := f.expAt }

/-- A CAMSET becomes the face's active one, line and frame numbers at 0 (R304); blocks of its ring stay until entries are
reused (R299). -/
def enterFace (k slot : Nat) (s : State) : State :=
  let s1 := leaveFace k s
  let s2 := setCam s1 slot fun c => { c with
    active := true, activate := none, frame := 0, lost := [], lastBlock := none
    histFrom := (List.range 16).foldl (fun t l => smSet t l (phi64 s - c.camOffset).toNat) c.histFrom }
  setFace s2 k fun f => { f with active := some slot, trigPos := some (phi64 s).toNat }

/-! ### Exposure sets (R281, R287) -/

/-- CAM_CMD (R281). -/
def camCmd (k cmd set : Nat) (exposure : Bytes) (s : State) : State :=
  sendGeneral (8 + k) 0x10 (le 1 cmd ++ le 1 set ++ zeros 2 ++ fit 32 exposure) s

/-- A commit in force: exposure set, tables and, for table 2, what the host wrote (R287, R294); EXPOSURE_APPLIED. -/
def applyCommit (slot frame : Nat) (p : CamCommit) (s : State) : State :=
  match s.objs.camsets.at? slot with
  | none => s
  | some cam =>
    let s1 := setCam s slot fun c => { c with
      expSet := p.number, exposure := p.exposure, tables := overlayAll c.tables p.tables
      hostRef := overlayTable c.hostRef (p.tables.getD 2 []), pending := none }
    let s2 := setFace s1 cam.face fun f => { f with expAt := some f.started }
    fieldEvent 0x0903 (camHandle s slot) (le 4 frame ++ le 1 p.number) s2

/-! ### Triggers and frame starts -/

/-- Φ >> 10 has crossed a multiple of cam_pitch since the last crossing (R280). -/
def crossed (s : State) (k : Nat) (cam : CamSet) : Bool :=
  match (faceAt s k).trigPos with
  | none => false
  | some p => p / max 1 cam.camPitch < (phi64 s).toNat / max 1 cam.camPitch

/-- The crossing comes sooner after the last trigger than the camera line rate limit allows (R280). -/
def tooSoon (s : State) (k : Nat) (cam : CamSet) : Bool :=
  match (faceAt s k).trigAt with
  | none => false
  | some t => (s.time.clock - t) * (64 * cam.maxRate) < cam.camPitch * 1000000000

/-- A frame dropped whole (R298): counted, and FRAME_DROPPED at most once per second. -/
def countDropped (slot f : Nat) (s : State) : State :=
  match s.objs.camsets.at? slot with
  | none => s
  | some cam =>
    let first := if cam.dropNew = 0 then f else cam.dropFirst
    let tell := due cam.dropAt 1000000000 s.time.clock
    let s1 := setCam s slot fun c => { c with
      dropped := (c.dropped + 1) % 2 ^ 32, lost := f :: c.lost, dropFirst := first
      dropNew := if tell then 0 else c.dropNew + 1, dropAt := if tell then some s.time.clock else c.dropAt }
    if tell then fieldEvent 0x0902 (camHandle s slot) (le 4 first ++ le 4 (cam.dropNew + 1)) s1 else s1

/-- A change of the face's CAMSET that was asked for (R304). -/
def wantedCam (s : State) (k : Nat) : Option (Option Nat) :=
  match s.objs.camsets.live.find? (fun e => e.2.face == k && e.2.activate == some true) with
  | some e => some (some e.1)
  | none => if s.objs.camsets.live.any (fun e => e.2.face == k && e.2.active && e.2.activate == some false) then some none else none

/-- The frame of the next line starts (R286, R287, R298, R304, R464): a commit at least 1 ms old takes effect; the frame
gets an accumulator or is dropped. -/
def frameStart (k slot : Nat) (cam : CamSet) (s : State) : State :=
  let f := (faceAt s k).nextLine / max 1 cam.frameLines
  let s1 := match cam.pending with
    | some p => if p.since + 1000000 ≤ s.time.clock then applyCommit slot f p s else s
    | none => s
  let busy := ((faceAt s k).frames.filter fun a => !a.dropped).length
  let drop := 2 ≤ busy || (3 ≤ s.thermal.step && f % 2 == 1)
  let cam' := (s1.objs.camsets.at? slot).getD cam
  let acc : FrameAcc :=
    { camset := slot, frame := f, serial := (faceAt s1 k).started, expSet := cam'.expSet, tables := cam'.tables, exposure := cam'.exposure, dropped := drop }
  let s2 := setFace s1 k fun x => { x with frames := x.frames ++ [acc], frameOn := some f, started := x.started + 1 }
  let begin : Capturing → Capturing := fun c => if c.frame.isNone then { c with frame := some f } else c
  let s3 := setCam s2 slot fun c => { c with frame := f, capturing := c.capturing.map begin }
  if drop then countDropped slot f s3 else s3

/-- The next crossing begins a frame that has not started. -/
def frameDue (s : State) (k : Nat) (cam : CamSet) : Bool :=
  let f := faceAt s k
  crossed s k cam && !tooSoon s k cam && f.nextLine % max 1 cam.frameLines == 0 && f.frameOn != some (f.nextLine / max 1 cam.frameLines)

/-- The face's CAMSET changes at the frame start that is due, or the frame starts (R304). -/
def startDue (k slot : Nat) (cam : CamSet) (s : State) : State :=
  match wantedCam s k with
  | some (some j) => enterFace k j s
  | some none => leaveFace k s
  | none => if visionFaulty s then s else frameStart k slot cam s

/-- FRAME_START (R286, R287, R298, R304). -/
def execFrameStart (face : Fin 2) (s : State) : Out :=
  .next (match activeCam s face.val with
    | some (slot, cam) => if frameDue s face.val cam then startDue face.val slot cam s else s
    | none => s)

/-- A trigger sent for the next camera line (R280, R263). -/
def sendTrigger (k slot : Nat) (cam : CamSet) (s : State) : State :=
  let n := (faceAt s k).nextLine
  let pos := (phi64 s).toNat
  let s1 := setFace s k fun f => { f with
    nextLine := n + 1, trigPos := some pos, trigAt := some s.time.clock
    trigLog := ((n, pos, cam.expSet) :: f.trigLog).take 131072 }
  let s2 := setFrame s1 k slot (n / max 1 cam.frameLines) fun a => { a with
    wins := if n % 2 = 0 then smSet a.wins (n / 2) (windowsOn s cam a.tables pos) else a.wins
    posFirst := if n % max 1 cam.frameLines = 0 then pos else a.posFirst, posLast := pos }
  sendMark (8 + k) 1 (le 4 n ++ le 1 cam.expSet ++ zeros 1 ++ le 4 (s.time.field / 10)) s2

/-- CAMERA_TRIGGER (R279, R280): a crossing sends a trigger, or is skipped. -/
def execCameraTrigger (face : Fin 2) (s : State) : Out :=
  .next (
    let k := face.val
    match activeCam s k with
    | none => s
    | some (slot, cam) =>
      if !crossed s k cam then s
      else if tooSoon s k cam then
        let s1 := setCam s slot fun c => { c with skipped := (c.skipped + 1) % 2 ^ 32 }
        let s2 := setFace s1 k fun f => { f with trigPos := some (phi64 s).toNat, skips := ((phi64 s).toNat :: f.skips).take 131072 }
        match (faceAt s k).frameOn with
        | some fr => setFrame s2 k slot fr fun a => { a with flags := a.flags ||| 16, missing := a.missing + 1 }
        | none => s2
      else
        let s1 := if frameDue s k cam then startDue k slot cam s else s
        match activeCam s1 k with
        | some (slot', cam') => if slot' = slot ∧ crossed s1 k cam' then sendTrigger k slot cam' s1 else s1
        | none => s1)

/-! ### Line packets -/

/-- Pixels of a segment (R282): two per 3 bytes. -/
def unpackPixels (n : Nat) (b : Bytes) : List Nat :=
  (List.range n).map fun i =>
    let g := leAt b (i / 2 * 3) 3
    if i % 2 = 0 then g % 4096 else g / 4096

/-- A sensor line is whole: every segment and its LINE_END have come. -/
def lineWhole (l : SensorLine) : Bool := l.ended && (l.segs.map List.length).foldl (· + ·) 0 == l.pixels

/-- Pixels of segment `seg` of a sensor line, and the bytes that they take (R282). -/
def segPixels (pixels seg : Nat) : Nat := min 656 (pixels - 656 * seg)
def segBytes (n : Nat) : Nat := ceilDiv (ceilDiv (3 * n) 2) 4 * 4

/-- A line packet of a camera hub on a lane of the face link (R282, R283). LINE_DATA names no line: it is of the line whose
LINE_START came last from its sensor on its lane. A packet for a line completed or discarded is dropped and counted as late. -/
def takeLinePacket (k slot lane ptype : Nat) (b : Bytes) (s : State) : State :=
  let f := faceAt s k
  let late := setCam s slot fun c => { c with late := (c.late + 1) % 2 ^ 32 }
  let sensor := byteAt b 0
  let of_ := fun (line : Nat) (x : SensorLine) => x.line == line && x.sensor == sensor && x.lane == lane
  match ptype with
  | 0x30 =>
    let line := u32 b 4
    let on := fun (s : State) => setFace s k fun f => { f with lineOn := smSet f.lineOn (4 * lane + sensor) line }
    if isSettled f line then on late
    else
      let l : SensorLine :=
        { line := line, sensor := sensor, lane := lane, expSet := byteAt b 1, tick := u32 b 8, frac := byteAt b 12
          pixels := u32 b 16, segs := [], ended := false }
      on (setFace s k fun f => { f with lines := (f.lines.filter fun x => x.line != line || x.sensor != sensor) ++ [l] })
  | 0x31 =>
    match smFind f.lineOn (4 * lane + sensor) with
    | none => s
    | some line =>
      if isSettled f line then late
      else
        let take : SensorLine → SensorLine := fun x =>
          let n := segPixels x.pixels (u16 b 2)
          if of_ line x ∧ !x.ended ∧ x.segs.length = u16 b 2 ∧ b.length = 4 + segBytes n then
            { x with segs := x.segs ++ [unpackPixels n (b.drop 4)] }
          else x
        setFace s k fun f => { f with lines := f.lines.map take }
  | _ =>
    let line := u32 b 4
    if isSettled f line then late
    else setFace s k fun f => { f with lines := f.lines.map fun x => if of_ line x then { x with ended := true } else x }

/-- CAMERA_LINE_PACKET (R282, R283): LINE_START, LINE_DATA or LINE_END. -/
def execCameraLinePacket (face lane : Fin 2) (ptype : BitVec 8) (body : List Byte) (s : State) : Out :=
  .next (
    let k := face.val
    let t := ptype.toNat
    if t < 0x30 ∨ 0x32 < t then s
    else
      let s1 := takePacket (8 + k) t s
      match activeCam s1 k with
      | none => s1
      | some (slot, _) => takeLinePacket k slot lane.val t body s1)

/-- The sensor lines of a camera line, when every sensor used has delivered its own whole (R283). -/
def completeLine (f : Face) (cam : CamSet) (exposure : Bytes) (line : Nat) : Option (List SensorLine) :=
  let ls := f.lines.filter fun l => l.line == line && lineWhole l
  let used := usedSensors exposure
  if !used.isEmpty ∧ used.all fun q => ls.any fun l => l.sensor == q &&
      (cam.sensors.getD q none).all fun c => c.pixels == l.pixels then some ls else none

/-- The field device time of a capture tick [31:0] with its fraction in 1/256 tick: the latest that is not ahead of now. -/
def captureTime (s : State) (tick frac : Nat) : Nat :=
  let now := s.time.field / 10
  10 * (now - (now + 2 ^ 32 - tick % 2 ^ 32) % 2 ^ 32) + 10 * frac / 256

/-- A complete camera line enters the pipeline (R284, R288, R290 to R292), and lines 8 or more behind it are discarded (R283). -/
def takeLine (k slot line : Nat) (cam : CamSet) (acc : FrameAcc) (ls : List SensorLine) (s : State) : State :=
  let s1 := match faceLine cam (usedSensors acc.exposure) ls with
    | none => missCameraLine k slot line s
    | some px =>
      let r := stage2 s cam acc.tables (linePos s k line) (stage1 (defectsOf acc.tables) px)
      let mixed := ls.any fun l => l.expSet != acc.expSet
      let t := captureTime s ((ls.head?.map fun l => l.tick).getD 0) ((ls.head?.map fun l => l.frac).getD 0)
      let s1 := setFrame s k slot acc.frame fun a => { a with
        flags := a.flags ||| flag mixed ||| 4 * flag r.2.1
        time := if line % max 1 cam.frameLines = 0 || a.time.isNone then some t else a.time }
      let s2 := setCam s1 slot fun c => { c with history := r.2.2 }
      settleLine k line (setFace s2 k fun f => { f with recent := f.recent ++ [(line, r.1)] })
  runPairs k slot cam 64 (discardBelow k slot (line + 1 - 8) s1)

/-- The first camera line of a face that every sensor used has delivered whole, with its frame (R283). -/
def readyLine (s : State) (k slot : Nat) (cam : CamSet) : Option (Nat × FrameAcc × List SensorLine) :=
  ((faceAt s k).lines.map fun l => l.line).findSome? fun line =>
    match frameOf s k slot (line / max 1 cam.frameLines) with
    | none => none
    | some acc => (completeLine (faceAt s k) cam acc.exposure line).map fun ls => (line, acc, ls)

/-- FACE_LINE_COMPLETE (R283 to R285, R288 to R296): the first complete line of a face. -/
def execFaceLineComplete (face : Fin 2) (s : State) : Out :=
  .next (
    let k := face.val
    match activeCam s k with
    | none => s
    | some (slot, cam) =>
      if visionFaulty s then s else
      match readyLine s k slot cam with
      | none => s
      | some (line, acc, ls) => takeLine k slot line cam acc ls s)

/-- HUB_STATUS (R282). -/
def execHubStatus (face : Fin 2) (body : List Byte) (s : State) : Out :=
  .next (
    let s1 := takePacket (8 + face.val) 0x33 s
    match activeCam s1 face.val with
    | none => s1
    | some (slot, _) => setCam s1 slot fun c => { c with hubStatus := fit 16 body })

/-- FRAME_END (R286, R289, R294): the oldest frame of a face whose lines are all completed or discarded, and with them the two
lines of the next frame that stage 3 takes for its last pair (R293; DEDUCED, log 148). -/
def execFrameEnd (face : Fin 2) (s : State) : Out :=
  .next (
    let k := face.val
    match activeCam s k with
    | none => s
    | some (slot, cam) =>
      match (faceAt s k).frames.find? (fun a => a.camset == slot && !a.ended) with
      | none => s
      | some a => if (a.frame + 1) * cam.frameLines + 2 ≤ (faceAt s k).settledTo then endFrame k slot a.frame s else s)

/-- CAPTURE_DONE (R300): the pixels of a captured frame are written; its message is done. -/
def execCaptureDone (face : Fin 2) (s : State) : Out :=
  .next (match s.objs.camsets.live.find? (fun e => e.2.face == face.val && e.2.capturing.any fun c => c.bytes.isSome) with
    | none => s
    | some (slot, cam) => match cam.capturing.find? (fun c => c.bytes.isSome) with
      | none => s
      | some c =>
        let shot : Captured := { buffer := c.buffer, frame := c.frame.getD 0, bytes := c.bytes.getD [], held := false }
        finishFlight 0x0909 c.msg stOk (setCam s slot fun x => { x with
          capturing := x.capturing.erase c
          captures := (x.captures.filter fun y => y.buffer != c.buffer) ++ [shot] }))

/-- Number of a loop mode (cal.query). -/
def calModeNumber : CalMode → Nat
  | .detached => 0 | .observe => 1 | .holding => 2 | .correct => 3

/-- LOOP_STATE of a CALSET with a cause. -/
def loopState (slot cause : Nat) (s : State) : State :=
  match s.objs.calsets.at? slot with
  | none => s
  | some q => fieldEvent 0x0A01 (s.objs.calsets.handle tyCalset slot)
      (le 1 (calModeNumber q.mode) ++ le 1 cause ++ zeros 2 ++ le 4 (q.ref.filter fun r => r.2 != 0).length) s

/-- Captures that will never end are completed with a status. -/
def dropCaptures (slot status : Nat) (s : State) : State :=
  match s.objs.camsets.at? slot with
  | none => s
  | some cam => cam.capturing.foldl (fun s c => finishFlight 0x0909 c.msg status s)
      (setCam s slot fun c => { c with capturing := [] })

/-- A vision engine declared faulty (R301, R334): frames stop, VISION_FAULT, and every CALSET reports the vision hold. -/
def visionEngineFault (engine cause : Nat) (s : State) : State :=
  if s.vision.fault.getD engine false then s else
  let first := !visionFaulty s
  let stop : Face → Face := fun f => { f with frames := [], lines := [] }
  let s1 := { s with vision := { s.vision with
    fault := setAt s.vision.fault engine true, faces := s.vision.faces.map stop } }
  let s2 := domainOff (19 + engine) (fieldEvent 0x0905 0 (le 1 engine ++ le 1 cause) s1)
  let s3 := s2.objs.camsets.live.foldl (fun s e => dropCaptures e.1 stInternal s) s2
  if !first then s3 else
  let hold : CalSet → CalSet := fun q => { q with visionHold := true }
  s3.objs.calsets.live.foldl (fun s e => loopState e.1 2 s)
    { s3 with objs := { s3.objs with calsets := s3.objs.calsets.mapLive hold } }

/-- VISION_FAULT (R301): causes 1 SRAM uncorrectable, 2 datapath parity, 3 test failed. -/
def execVisionFault (engine : Fin 2) (cause : Fin 3) (s : State) : Out :=
  .next (visionEngineFault engine.val (cause.val + 1) s)

end Sys2Proof.Machine
end

