-- ==== Sys2Proof/Machine/Arbitration.lean ====
section
/-! DEFINITION. Deadline arbitration (R390 to R408): the decision, locks, emergency requesters, grant forecasts and the
priority registers. A grant costs the ticks of R401: one per segment at a port, three per transfer at a cluster. -/

namespace Sys2Proof.Machine

/-- The tick count: field device time in ns divided by 10, modulo 2^32 (R15). -/
def nowTick (s : State) : BitVec 32 := BitVec.ofNat 32 (s.time.field / 10)

/-- How far a tick value d lies ahead of tick t; negative: overdue (R16). -/
def ticksTo (d t : BitVec 32) : Int := (d - t).toInt

/-- The later of two ticks, as seen from tick t (R16). -/
def laterTick (t x y : BitVec 32) : BitVec 32 := if ticksTo x t < ticksTo y t then y else x

/-! ### Deadlines (R19, R213, R391) -/

/-- The fire phase of a bar in run lines × 2^16, with its trim target included (R213). -/
def firePhase16 (s : State) (b : Nat) : Int :=
  (s.pos.phi32 * 16 - trimTarget (barAt s b) * 2 ^ 32) / ((barQ s b : Int) * 2 ^ 16)

/-- The largest max_line_rate of the runs that print on a bar; 0: none prints. -/
def barRate (s : State) (b : Nat) : Nat := maxOf ((sources s b).map fun c => c.run.maxRate)

/-- The fire tick of line n of a bar, as if the web ran at max_line_rate (R213). -/
def fireTick (s : State) (b n : Nat) : BitVec 32 :=
  nowTick s + BitVec.ofInt 32 (((n : Int) * 65536 - firePhase16 s b) * 100000000 / ((max 1 (barRate s b) : Nat) * 65536))

/-- The latest-service tick of a request made for line n of a bar: its fire tick, less FA line periods, less 2 LP (R19). -/
def lineService (s : State) (b n : Nat) : BitVec 32 :=
  fireTick s b n - BitVec.ofNat 32 ((barFa s b + 2) * 100000000 / max 1 (barRate s b))

/-- The deadline that a requester sets (R391). -/
def deadlineOf (s : State) (id : Nat) (need : ReqNeed) : BitVec 32 :=
  match need with
  | .line b n => lineService s b.val n
  | .capture t => t + 10000
  | .decision t => t - 100000
  | .arrival => nowTick s +
      (if id = 15 then 1000 else if id = 16 then 2000 else if id = 17 ∨ id = 18 then 100000000 else if id = 19 then 100
       else if id = 20 then BitVec.ofNat 32 s.fabric.debugWait else 0)

/-- What the deadline of a requester's requests follows from (R391). -/
def needFits (id : Nat) (need : ReqNeed) : Bool :=
  match need with
  | .line _ _ => id ≤ 10
  | .capture _ => id == 11 || id == 12
  | .decision _ => id == 13 || id == 14
  | .arrival => 15 ≤ id

/-- A request as it begins to wait, with a forecast still to be made (R392). -/
def newWaiting (s : State) (req : ArbReq) : Waiting :=
  ⟨req, deadlineOf s req.requester.val req.need, req.bytes / 64, nowTick s, nowTick s, false⟩

def portAt (s : State) (p : Nat) : Arbiter := s.fabric.ports.getD p {}
def clusterAt (s : State) (k : Nat) : Arbiter := s.fabric.clusters.getD k {}
def arbAt (s : State) (cluster : Bool) (i : Nat) : Arbiter := if cluster then clusterAt s i else portAt s i

/-- One arbiter changed. -/
def setArb (s : State) (cluster : Bool) (i : Nat) (f : Arbiter → Arbiter) : State :=
  { s with fabric :=
    if cluster then { s.fabric with clusters := modAt s.fabric.clusters i f }
    else { s.fabric with ports := modAt s.fabric.ports i f } }

/-- Default class of a requester (R391); the emergency requesters have none. -/
def defaultClass (r : Nat) : Nat :=
  if r ≤ 10 ∨ r = 19 then 3 else if r ≤ 14 then 2 else if r ≤ 16 then 1 else 0

/-- The reset value of a requester's priority register. -/
def prioDefault (r : Nat) : BitVec 32 := BitVec.ofNat 32 (defaultClass r * 2 ^ 16)

/-- A requester's register in force and its shadow. -/
def prioActive (a : Arbiter) (r : Nat) : BitVec 32 := smGet a.active (prioDefault r) r
def prioShadow (a : Arbiter) (r : Nat) : BitVec 32 := smGet a.shadow (prioDefault r) r

/-- OFFSET and CLASS of a requester at an arbiter. -/
def prioOffset (a : Arbiter) (r : Nat) : Nat := field (prioActive a r).toNat 15 0
def prioClass (a : Arbiter) (r : Nat) : Nat := field (prioActive a r).toNat 17 16

/-- Refresh and the debug port (R399). -/
def emergency (r : Nat) : Bool := r == 20 || r == 21

/-- The class that counts in a tie: none for an emergency requester. -/
def tieClass (a : Arbiter) (r : Nat) : Nat := if emergency r then 0 else prioClass a r

/-- The key of a request: its effective deadline less the present tick, as a signed 32-bit number (R393). -/
def arbKey (a : Arbiter) (t : BitVec 32) (w : Waiting) : Int :=
  ticksTo (w.deadline - BitVec.ofNat 32 (prioOffset a w.req.requester.val)) t

/-- Request x ranks before y (R393): smaller key, then higher class, then the lowest id above the id granted last, wrapping. -/
def ranksBefore (a : Arbiter) (t : BitVec 32) (x y : Waiting) : Bool :=
  let kx := arbKey a t x
  let ky := arbKey a t y
  let cx := tieClass a x.req.requester.val
  let cy := tieClass a y.req.requester.val
  let turn := fun (w : Waiting) => (w.req.requester.val + 31 - a.lastId) % 32
  kx < ky || (kx == ky && (cy < cx || (cx == cy && turn x < turn y)))

/-- The first in rank of a list. -/
def firstRank (a : Arbiter) (t : BitVec 32) : List Waiting → Option Waiting
  | [] => none
  | w :: r => match firstRank a t r with
    | none => some w
    | some v => if ranksBefore a t v w then some v else some w

/-- Cost of a request in ticks (R401): segments at a port, 3 per transfer at a cluster. -/
def arbCost (cluster : Bool) (w : Waiting) : Nat := if cluster then 3 else w.left

/-- Cost that remains of the current transfer and of a lock in force, not counting an owner's own request (R401). -/
def remaining (a : Arbiter) (t : BitVec 32) : Nat :=
  let cur := match a.current with
    | some (_, stop) => (ticksTo stop t).toNat
    | none => 0
  let lock := match a.lock with
    | some k => sumOf ((a.queue.filter fun w => w.req.requester.val == k.owner && w.req.lock != .none).map fun w => w.left)
    | none => 0
  cur + lock

/-- The forecast of a request: F = t + L + Σ c + E (R401); `e` is the emergency allowance. -/
def forecastOf (cluster : Bool) (a : Arbiter) (t : BitVec 32) (e extra : Nat) (w : Waiting) : BitVec 32 :=
  let locked := fun (v : Waiting) => match a.lock with
    | some k => v.req.requester.val == k.owner && v.req.lock != .none
    | none => false
  t + BitVec.ofNat 32 (remaining a t + extra + e +
    sumOf ((a.queue.filter fun v => v != w && !locked v && ranksBefore a t v w).map (arbCost cluster)))

/-- Forecasts after a change of the contest: they only move later, and only of requests not yet begun (R402). -/
def revise (cluster : Bool) (t : BitVec 32) (e : Nat) (p : Waiting → Bool) (a : Arbiter) : Arbiter :=
  let later : Waiting → Waiting := fun w =>
    if p w && w.left * 64 == w.req.bytes then { w with forecast := laterTick t w.forecast (forecastOf cluster a t e 0 w) } else w
  { a with queue := a.queue.map later }

/-! ### Locks -/

/-- Ticks that a lock has counted: from its FIRST grant, less emergency holds (R395). -/
def lockTicks (k : LockState) (t : BitVec 32) : Nat := (t - k.grantAt).toNat - k.paused

/-- A lock over: debug writes that it held back join the queue again (R400). -/
def dropLock (a : Arbiter) : Arbiter := { a with lock := none, queue := a.queue ++ a.heldDebug, heldDebug := [] }

/-- ARB_LOCK. -/
def arbLockEvent (port owner cause seg : Nat) (s : State) : State :=
  fieldEvent 0x0E20 0 (le 1 port ++ le 1 owner ++ le 1 cause ++ zeros 1 ++ le 4 seg) s

/-- A lock at its limit before LAST ends; what is left of it contends as ordinary requests (R395, R396). -/
def expireLock (p : Nat) (s : State) : State :=
  match (portAt s p).lock with
  | none => s
  | some k =>
    if 16 ≤ k.segments ∨ 200 ≤ lockTicks k (nowTick s) then
      arbLockEvent p k.owner 1 k.lastSeg (setArb s false p fun a => dropLock { a with
        lapsed := if a.queue.any fun w => w.req.requester.val == k.owner && w.req.lock == .last then a.lapsed
          else k.owner :: a.lapsed
        queue := a.queue.map fun w =>
          if w.req.requester.val == k.owner && w.req.lock != .none then
            { w with req := { w.req with lock := .none }, expired := true }
          else w })
    else s

/-- LOCK_EXPIRY (R396). -/
def execLockExpiry (port : Fin 4) (s : State) : Out := .next (expireLock port.val s)

/-- The lock after a segment granted to a request (R395). -/
def lockAfter (lock : Option LockState) (w : Waiting) (t : BitVec 32) (seg : Nat) : Option LockState :=
  match w.req.lock, lock with
  | .none, k => k
  | _, some k =>
    if k.owner ≠ w.req.requester.val then some k
    else if w.req.lock = .last ∧ w.left = 1 then none
    else some { k with segments := k.segments + 1, lastSeg := seg, suspended := false, seen := seg :: k.seen }
  | .first, none => some ⟨w.req.requester.val, 1, t, 0, seg, false, [seg]⟩
  | _, none => none

/-! ### Grants -/

/-- A request with `n` segments fewer to grant; without any it leaves the queue. -/
def takeSegments (w : Waiting) (n : Nat) (q : List Waiting) : List Waiting :=
  q.filterMap fun v => if v = w then (if w.left ≤ n then none else some { w with left := w.left - n }) else some v

/-- A burst without a wrong bit. -/
def noFlips : EccFlips := ⟨[], [], []⟩

/-- A read of a segment at port p by a requester, `scrub` for the patrol scrub, with the wrong bits of its burst (R373 to R376): a
corrected segment is written back by requester 19, an uncorrectable one is counted. -/
def meetErrors (p addr : Nat) (scrub : Bool) (flips : EccFlips) (s : State) : State :=
  let found := readBurst s.mem addr flips
  match readCause s.mem addr found, found with
  | some c, _ => readUncorrectable addr c s
  | none, .single =>
    let seg := addr / 64
    let good := correctedBytes s.mem addr flips
    let cells := if good = memBytes s.mem (64 * seg) 64 then s.mem.cells else cellsWrite s.mem.cells (64 * seg) good
    let back : ArbReq := ⟨19, .arrival, 64, true, BitVec.ofNat 38 (64 * seg), .none, false⟩
    setArb (readCorrected addr scrub { s with mem := { s.mem with cells := cells } }) false p fun a =>
      let w := newWaiting s back
      let w := { w with forecast := forecastOf false a (nowTick s) 41 0 w }
      revise false (nowTick s) 41 (fun v => v != w && ranksBefore a (nowTick s) w v) { a with queue := a.queue ++ [w] }
  | none, _ => s

/-- One segment of a port's request granted (R390): lock, current transfer, what the requester is told, and what the DRAM
does: the rank leaves power-down, the scrub goes on, and a read meets the errors of its burst (R373 to R378). -/
def grantSegment (p : Nat) (w : Waiting) (flips : EccFlips) (s : State) : State :=
  let t := nowTick s
  let id := w.req.requester.val
  let addr := w.req.address.toNat + (w.req.bytes - 64 * w.left)
  let seg := addr / 64
  let s1 := setArb s false p fun a =>
    let lock := lockAfter a.lock w t seg
    let rest := takeSegments w 1 a.queue
    let ended := a.lock.isSome && lock.isNone
    { a with
      queue := if ended then rest ++ a.heldDebug else rest
      heldDebug := if ended then [] else a.heldDebug
      lock := lock
      current := some (id, t + 1), lastId := id
      granted := some (id, addr, w.expired, a.tellBroken), tellBroken := false, broken := false }
  let r := rankIndex s.mem.inForce addr
  let next := if id = 17 ∧ seg = s.mem.scrubNext then seg + 1 else s.mem.scrubNext
  let s2 := { s1 with mem := { s1.mem with
    powerDown := setAt s1.mem.powerDown r false
    lastCmd := setAt s1.mem.lastCmd r s.time.clock, scrubNext := next } }
  if w.req.write then s2 else meetErrors p addr (id == 17) flips s2

/-- Requests of a requester outstanding at a port (R392). -/
def slotsUsed (a : Arbiter) (id : Nat) : Nat := ((a.queue ++ a.heldDebug).filter fun w => w.req.requester.val == id).length

/-- The DRAM is in self-refresh, or the exit is not complete (R380). -/
def portAsleep (s : State) : Bool := s.mem.selfRefresh

/-- A request as it reaches a port: what is left of an expired sequence contends as an ordinary request, and its response
carries LOCK_EXPIRED (R396). -/
def arriving (a : Arbiter) (s : State) (req : ArbReq) : Waiting :=
  if a.lapsed.contains req.requester.val ∧ (req.lock = .cont ∨ req.lock = .last) then
    { newWaiting s { req with lock := .none } with expired := true }
  else newWaiting s req

/-- A request put into a port's queue with its forecast, `now` for one that is granted at once; requests ranked behind it are
revised (R401, R402). -/
def enterPort (p : Nat) (req : ArbReq) (now : Bool) (s : State) : State :=
  let t := nowTick s
  let s1 := wakeMemory s
  let r := rankIndex s.mem.inForce req.address.toNat
  -- R378: a rank in power-down adds 15 ns; R380: an exit from self-refresh adds its rest
  let extra := (if s.mem.powerDown.getD r false then 2 else 0) +
    (match s1.mem.srExit with | some c => (c - s.time.clock) / 10 | none => 0)
  let s2 := { s1 with mem := { s1.mem with idleSince := s.time.clock } }
  setArb s2 false p fun a =>
    let w := arriving a s req
    let w := { w with forecast := if now then t else forecastOf false a t 41 extra w }
    let ends : Bool := req.lock == .last || req.lock == .first
    revise false t 41 (fun v => v != w && ranksBefore a t w v) { a with
      queue := a.queue ++ [w], lapsed := if ends then a.lapsed.filter (· != req.requester.val) else a.lapsed }

/-- A class 0 request with the sleep flag waits for its forecast (R403). -/
def sleeps (a : Arbiter) (t : BitVec 32) (w : Waiting) : Bool :=
  w.req.sleep && !emergency w.req.requester.val && prioClass a w.req.requester.val == 0 && 0 < ticksTo w.forecast t

/-- The requests that a port may grant a segment to (R395, R403). -/
def portEligible (a : Arbiter) (t : BitVec 32) : List Waiting :=
  a.queue.filter fun w => !sleeps a t w && (match a.lock with
    | none => true
    | some k => emergency w.req.requester.val || (w.req.requester.val == k.owner && w.req.lock != .none))

/-- An emergency request whose deadline has come (R399). -/
def emergencyDue (a : Arbiter) (t : BitVec 32) (p : Nat → Bool) : Option Waiting :=
  firstRank a t (a.queue.filter fun w => emergency w.req.requester.val && p w.req.requester.val &&
    ticksTo w.deadline t ≤ 0)

/-- The ticks for which a refresh holds its port (R399, R401). -/
def refreshHold (s : State) : Nat :=
  clampNat 1 41 (Config.refreshTicks s.mem.inForce.density (anyActive s))

/-- The segments that a request addresses. -/
def segmentsOf (w : Waiting) : List Nat :=
  (List.range (w.req.bytes / 64)).map fun i => w.req.address.toNat / 64 + i

/-- A segment that the locked sequence in force addresses: granted to it, or waiting with it (R400). -/
def lockSegment (a : Arbiter) (seg : Nat) : Bool :=
  match a.lock with
  | none => false
  | some k => k.seen.contains seg ||
      a.queue.any fun v => v.req.requester.val == k.owner && v.req.lock != .none && (segmentsOf v).contains seg

/-- An emergency requester takes its port at a segment boundary (R399): a refresh for its tRFC, the debug port for at
most 4 segments, the first of which meets the wrong bits given; a lock is suspended. A debug write to a segment of the
suspended sequence is held (R400). -/
def takeEmergency (p : Nat) (w : Waiting) (flips : EccFlips) (s : State) : State :=
  let t := nowTick s
  let a := portAt s p
  if w.req.requester.val = 21 then
    let r := 2 * p + w.req.address.toNat % 2
    let hold := refreshHold s
    let s1 := setArb s false p fun a => revise false t 0 (fun _ => true) { a with
      queue := a.queue.filter (· != w)
      lock := a.lock.map fun k => { k with suspended := true, paused := k.paused + hold }
      current := some (21, t + BitVec.ofNat 32 hold), lastId := 21 }
    { s1 with mem := { s1.mem with
      refreshes := modAt s1.mem.refreshes r (· + 1)
      sameBank := setAt s1.mem.sameBank r (anyActive s)
      powerDown := setAt s1.mem.powerDown r false
      lastCmd := setAt s1.mem.lastCmd r s.time.clock } }
  else
    if w.req.write ∧ (segmentsOf w).any (lockSegment a) then
      setArb s false p fun a => { a with
        queue := a.queue.filter (· != w), heldDebug := a.heldDebug ++ [w]
        lock := a.lock.map fun k => { k with suspended := true } }
    else
      let n := min 4 w.left
      let first := w.req.address.toNat + (w.req.bytes - 64 * w.left)
      let s1 := if w.req.write then s
        else (List.range n).foldl (fun s k => meetErrors p (first + 64 * k) false (if k = 0 then flips else noFlips) s) s
      let r := rankIndex s.mem.inForce first
      let s2 := { s1 with mem := { s1.mem with
        powerDown := setAt s1.mem.powerDown r false
        lastCmd := setAt s1.mem.lastCmd r s.time.clock } }
      setArb s2 false p fun a => revise false t 0 (fun _ => true) { a with
        queue := takeSegments w 4 a.queue
        lock := a.lock.map fun k => { k with suspended := true, paused := k.paused + n }
        current := some (20, t + BitVec.ofNat 32 n), lastId := 20
        granted := some (20, w.req.address.toNat, false, a.tellBroken), tellBroken := false, broken := false }

/-- A commit at a port's next decision puts every shadow in force together (R404). -/
def commitShadows (p : Nat) (s : State) : State :=
  setArb s false p fun a =>
    if a.commit then revise false (nowTick s) 41 (fun _ => true) { a with active := a.shadow, commit := false } else a

/-- A refresh holds the port for its tRFC (R399). -/
def refreshing (a : Arbiter) (t : BitVec 32) : Bool := a.current.any fun e => e.1 == 21 && 0 < ticksTo e.2 t

/-- EMERGENCY_TAKE (R399). -/
def execEmergencyTake (port : Fin 4) (refresh : Bool) (flips : EccFlips) (s : State) : Out :=
  .next (
    let s1 := commitShadows port.val s
    match emergencyDue (portAt s1 port.val) (nowTick s) (fun r => r == (if refresh then 21 else 20)) with
    | some w => if portAsleep s ∨ refreshing (portAt s port.val) (nowTick s) then s else takeEmergency port.val w flips s1
    | none => s)

/-- A port's decision (R393 to R400): at the end of the transfer under way, and never within a refresh. -/
def portDecision (p : Nat) (flips : EccFlips) (s : State) : State :=
  if portAsleep s ∨ refreshing (portAt s p) (nowTick s) then s else
  let s1 := expireLock p (commitShadows p s)
  let a := portAt s1 p
  let t := nowTick s
  match emergencyDue a t (fun _ => true) with
  | some w => takeEmergency p w flips s1
  | none => match firstRank a t (portEligible a t) with
    | some w =>
      if w.req.requester.val = 21 ∨ (w.req.requester.val = 20 ∧ a.lock.isSome) then takeEmergency p w flips s1
      else grantSegment p w flips s1
    | none => setArb s1 false p fun a => { a with current := none }

/-- A cluster's decision (R390, R392, R398): one transfer goes on to its port; CONTINUE and LAST rank first. -/
def clusterDecision (k : Nat) (s : State) : State :=
  let a := clusterAt s k
  let t := nowTick s
  let open_ := a.queue.filter fun w => !sleeps a t w &&
    slotsUsed (portAt s (subchannel s.mem.inForce w.req.address.toNat)) w.req.requester.val < 4
  let locked := open_.filter fun w => w.req.lock == .cont || w.req.lock == .last
  match firstRank a t (if locked.isEmpty then open_ else locked) with
  | none => setArb s true k fun a => { a with current := none }
  | some w =>
    let id := w.req.requester.val
    let s1 := setArb s true k fun a => { a with
      queue := a.queue.filter (· != w), current := some (id, t + 3), lastId := id
      granted := some (id, w.req.address.toNat, false, false) }
    enterPort (subchannel s.mem.inForce w.req.address.toNat) w.req false s1

/-- ARB_DECISION (R394). -/
def execArbDecision (cluster : Bool) (index : Fin 4) (flips : EccFlips) (s : State) : Out :=
  .next (if cluster then clusterDecision index.val s else portDecision index.val flips s)

/-- SLEEP_WAKE (R403): a sleeping class 0 request is granted at its forecast. -/
def execSleepWake (port : Fin 4) (flips : EccFlips) (s : State) : Out :=
  .next (
    let s1 := commitShadows port.val s
    let a := portAt s1 port.val
    let t := nowTick s
    match firstRank a t (a.queue.filter fun w => w.req.sleep && prioClass a w.req.requester.val == 0 && ticksTo w.forecast t ≤ 0) with
    | some w => if portAsleep s ∨ a.lock.isSome ∨ refreshing a t then s else grantSegment port.val w flips s1
    | none => s)

/-! ### Requests -/

/-- The cluster that a requester belongs to. -/
def clusterOf (id : Nat) : Nat := if id ≤ 8 then 0 else if id ≤ 10 then 1 else if id ≤ 14 then 2 else 3

/-- The port at which a requester holds a lock. -/
def lockHeld (s : State) (id : Nat) : Option Nat :=
  (List.range 4).find? fun p => (portAt s p).lock.any fun k => k.owner == id

/-- A request keeps R397: with a lock held only to the locked port, and no second FIRST. -/
def lockRule (s : State) (req : ArbReq) (p : Nat) : Bool :=
  match lockHeld s req.requester.val with
  | none => true
  | some q => q == p && req.lock != .first

/-- The chapters' own consequence for an engine declared faulty (R154, R301, R363, R513); the cause byte of a lock
protocol fault is not among those listed: a free value (log 45). -/
def engineFault (id : Nat) (s : State) : State :=
  let (c, s) := takeFree 8 s
  if id ≤ 8 then (match (benchAt s id).role with | .removed => s | _ => declareBench id c s)
  else if id = 9 ∨ id = 10 then
    (if (id = 10) = s.bench.lsbActive then sequencerTakeover s else { s with bench := { s.bench with lsFormerTest := true } })
  else if id = 11 ∨ id = 12 then visionEngineFault (id - 11) c s
  else if id = 13 ∨ id = 14 then vdEngineFault (id - 13) c s
  else s

/-- A broken lock rule (R397): the request is not issued. -/
def protocolFault (req : ArbReq) (s : State) : State :=
  let id := req.requester.val
  let p := (lockHeld s id).getD 0
  let seg := match (portAt s p).lock with
    | some k => k.lastSeg
    | none => 0
  let s1 := arbLockEvent p id 3 seg s
  engineFault id { s1 with fabric := { s1.fabric with faulty := s1.fabric.faulty ++ [id] } }

/-- The resource is idle (R394): nothing under way, and none but sleeping requests waits. -/
def arbIdle (a : Arbiter) (t : BitVec 32) : Bool :=
  a.queue.all (sleeps a t) && (match a.current with | none => true | some (_, stop) => ticksTo stop t ≤ 0)

/-- A port's lock lets a request through (R395, R399). -/
def lockLets (a : Arbiter) (req : ArbReq) : Bool :=
  a.lock.all fun k => emergency req.requester.val || (k.owner == req.requester.val && req.lock != .none)

/-- A bench makes its following fetch request after the grant, and at once only where a forecast of its own lies more than
100 ticks ahead (R403). -/
def benchFollows (s : State) (id : Nat) : Bool :=
  let t := nowTick s
  let own := (s.fabric.ports ++ s.fabric.clusters).flatMap fun a => a.queue.filter fun w => w.req.requester.val == id
  8 < id || own.isEmpty || own.any fun w => 100 < ticksTo w.forecast t

/-- A request is one that its requester may issue (R391, R392): a requester that exists, in its own cluster, a size of 1 to 4
segments, a free slot at the port; a bench's further requests by R403; scrub and test pause at throttle step T1 and scrub in
self-refresh (R377, R464). -/
def requestOk (cluster : Bool) (i : Nat) (req : ArbReq) (s : State) : Bool :=
  let id := req.requester.val
  id ≤ 21 && needFits id req.need && 64 ≤ req.bytes && req.bytes ≤ 256 && req.bytes % 64 == 0 && !s.fabric.faulty.contains id &&
    (if cluster then clusterOf id == i
     else i == subchannel s.mem.inForce req.address.toNat && slotsUsed (portAt s i) id < 4) &&
    benchFollows s id && !((id == 17 || id == 18) && 1 ≤ s.thermal.step) && !(id == 17 && s.mem.selfRefresh)

/-- ARB_REQUEST (R392, R394, R397, R401): the request joins the queue with its forecast; an idle resource grants it at once. -/
def execArbRequest (cluster : Bool) (index : Fin 4) (req : ArbReq) (flips : EccFlips) (s : State) : Out :=
  .next (
    let i := index.val
    let t := nowTick s
    if !requestOk cluster i req s then s
    else if !lockRule s req (subchannel s.mem.inForce req.address.toNat) then protocolFault req s
    else if cluster then
      -- an idle link grants at once, whatever the sleep flag, where the port slot is free
      let idle := arbIdle (clusterAt s i) t && slotsUsed (portAt s (subchannel s.mem.inForce req.address.toNat)) req.requester.val < 4
      let s1 := setArb s true i fun a =>
        let w := newWaiting s req
        let w := { w with forecast := if idle then t else forecastOf true a t 41 0 w }
        revise true t 41 (fun v => v != w && ranksBefore a t w v) { a with queue := a.queue ++ [w] }
      if idle then clusterDecision i s1 else s1
    else
      let idle := arbIdle (portAt s i) t && !s.mem.selfRefresh && lockLets (portAt s i) req
      let s1 := enterPort i req idle s
      if idle then portDecision i flips s1 else s1)

/-- REFRESH_DUE (R383, R399): a refresh of a rank falls due; its request joins the port's contest, and an idle port issues it
at once. -/
def execRefreshDue (port : Fin 4) (rank : Fin 2) (s : State) : Out :=
  .next (
    let r := 2 * port.val + rank.val
    let t := nowTick s
    if !s.mem.trained ∨ s.mem.selfRefresh ∨ !rankThere s.mem.inForce r ∨ s.time.clock < s.mem.refreshNext.getD r 0 then s else
    let req : ArbReq := ⟨21, .arrival, 64, false, BitVec.ofNat 38 rank.val, .none, false⟩
    let w := newWaiting s req
    let idle := arbIdle (portAt s port.val) t
    let s1 := setArb s false port.val fun a => { a with queue := a.queue ++ [w] }
    let s2 := { s1 with mem := { s1.mem with
      refreshNext := setAt s1.mem.refreshNext r (s.time.clock + trefi (s.mem.band.getD r 0)) } }
    if idle then takeEmergency port.val w noFlips s2 else s2)

/-- LOCK_BROKEN (R407): reset of an engine; every lock that it holds is released and its queued requests are withdrawn. -/
def execLockBroken (requester : Fin 32) (s : State) : Out :=
  .next (
    let id := requester.val
    let held := (List.range 4).filter fun p => (portAt s p).lock.any fun k => k.owner == id
    let s1 := held.foldl (fun s p =>
      match (portAt s p).lock with
      | none => s
      | some k => arbLockEvent p id 2 k.lastSeg (setArb s false p fun a => dropLock { a with
          broken := true, lockOwner := id, lockSeg := BitVec.ofNat 32 k.lastSeg, tellBroken := true })) s
    let drop : Arbiter → Arbiter := fun a => { a with queue := a.queue.filter fun w => w.req.requester.val != id }
    { s1 with fabric := { s1.fabric with
      ports := s1.fabric.ports.map (fun a => { drop a with lapsed := a.lapsed.filter (· != id) })
      clusters := s1.fabric.clusters.map drop
      faulty := s1.fabric.faulty.filter (· != id) } })

/-! ### diag.arb_* -/

/-- PORTn_LOCK. -/
def portLockWord (a : Arbiter) : Nat :=
  match a.lock with
  | some k => 1 + 2 * k.owner + 64 * flag a.broken
  | none => 2 * a.lockOwner + 64 * flag a.broken

/-- diag.arb_prio (0x0E21, R404, R405). -/
def opDiagArbPrio : OpDef where
  code := 0x0E21
  len b := 8 ≤ b.length && b.length == 8 + 4 * byteAt b 3
  fields m _ :=
    let b := m.payload
    [within (byteAt b 0) 0 1 0, within (byteAt b 1) 0 3 1, within (byteAt b 2) 0 31 2,
     within (byteAt b 3) 1 32 3, (byteAt b 2 + byteAt b 3 ≤ 32, 2), reserved b 4 4] ++
      (List.range (byteAt b 3)).map fun i => below (u32 b (8 + 4 * i)) 18 (8 + 4 * i)
  body m s :=
    let b := m.payload
    let words := (List.range (byteAt b 3)).map fun i => w32 b (8 + 4 * i)
    let k := byteAt b 1
    if byteAt b 0 = 0 then okState (setArb s false k fun a => { a with shadow := smSetRun a.shadow (byteAt b 2) words })
    else okState (setArb s true k fun a =>
      revise true (nowTick s) 41 (fun _ => true) { a with active := smSetRun a.active (byteAt b 2) words })

/-- diag.arb_commit (0x0E22, R404). -/
def opDiagArbCommit : OpDef where
  code := 0x0E22
  len b := b.length == 4
  fields m _ := [below (byteAt m.payload 0) 4 0, reserved m.payload 1 3]
  body m s :=
    let mask := byteAt m.payload 0
    let mark : Arbiter × Nat → Arbiter := fun e => if bit mask e.2 then { e.1 with commit := true } else e.1
    okState { s with fabric := { s.fabric with ports := s.fabric.ports.zipIdx.map mark } }

/-- diag.arb_query (0x0E20). -/
def opDiagArbQuery : OpDef where
  code := 0x0E20
  len b := b.length == 4
  fields m _ := [within (byteAt m.payload 0) 0 1 0, within (byteAt m.payload 1) 0 3 1, reserved m.payload 2 2]
  body m s :=
    let cluster := byteAt m.payload 0 == 1
    let a := arbAt s cluster (byteAt m.payload 1)
    okBytes s (le 4 (if cluster then 0 else portLockWord a) ++ (List.range 32).flatMap (fun r => leB 4 (prioActive a r)) ++
      (if cluster then zeros 128 else (List.range 32).flatMap fun r => leB 4 (prioShadow a r)) ++
      (if cluster then zeros 4 else leB 4 a.lockSeg))

def execDiagArbPrio (m : Msg) (s : State) : Out := .next (message opDiagArbPrio m s)
def execDiagArbCommit (m : Msg) (s : State) : Out := .next (message opDiagArbCommit m s)
def execDiagArbQuery (m : Msg) (s : State) : Out := .next (message opDiagArbQuery m s)

end Sys2Proof.Machine
end

