-- ==== Sys2Proof/Machine/DeviceTime.lean ====
section
/-! DEFINITION. Device time: steps (R426, R427, R432), the time words and the echoes that carry it across Saddle (R428,
R429). -/

namespace Sys2Proof.Machine

/-- A number of ns added to a time that does not go below 0. -/
def shiftTime (t : Nat) (d : Int) : Nat := ((t : Int) + d).toNat

/-- A step forward from t0 to t1 has passed the next pulse or expiry over (R432). -/
def passedOver (next16 t0 t1 : Nat) : Bool := t0 < next16 / 65536 && next16 / 65536 ≤ t1

/-- Triggers of some outputs, and timers, whose next time a step passes over. -/
def markLate (p : Nat → Bool) (t0 t1 : Nat) (o : Objects) : Objects :=
  let trig : Trigger → Trigger := fun t => match t.kind with
    | .time out .. => if p out ∧ t.armed ∧ passedOver t.next16 t0 t1 then { t with late := true } else t
    | .compare .. => t
  { o with triggers := o.triggers.mapLive trig }

/-- Timers run on field device time (R433). -/
def markTimers (t0 t1 : Nat) (o : Objects) : Objects :=
  let f : Timer → Timer := fun t => if t.running ∧ passedOver t.next16 t0 t1 then { t with late := true } else t
  { o with timers := o.timers.mapLive f }

/-- Deadlines and forecasts of an arbiter moved with the tick count (R427). -/
def shiftArbiter (ticks : Int) (a : Arbiter) : Arbiter :=
  let w : Waiting → Waiting := fun w => { w with
    deadline := w.deadline + BitVec.ofInt 32 ticks, forecast := w.forecast + BitVec.ofInt 32 ticks
    arrived := w.arrived + BitVec.ofInt 32 ticks }
  let k : LockState → LockState := fun k => { k with grantAt := k.grantAt + BitVec.ofInt 32 ticks }
  { a with
    queue := a.queue.map w
    heldDebug := a.heldDebug.map w
    current := a.current.map fun e => (e.1, e.2 + BitVec.ofInt 32 ticks)
    lock := a.lock.map k }

/-- Field device time jumps (R427, R432): the tick count jumps with it, every deadline and forecast moves along. -/
def jumpField (t : Nat) (s : State) : State :=
  let ticks : Int := (t / 10 : Nat) - (s.time.field / 10 : Nat)
  let o := markTimers s.time.field t (markLate (fun out => out < 4) s.time.field t s.objs)
  { s with
    objs := o
    time := { s.time with field := t }
    fabric := { s.fabric with
      ports := s.fabric.ports.map (shiftArbiter ticks), clusters := s.fabric.clusters.map (shiftArbiter ticks) } }

/-- Device time is stepped (R426): the epoch advances and TIME_STEPPED is written. The field die follows with the next
time word (R427, R429). -/
def stepTime (d : Int) (s : State) : State :=
  let t := shiftTime s.time.te d
  let s1 := { s with
    objs := markLate (fun out => 4 ≤ out) s.time.te t s.objs
    time := { s.time with te := t, epoch := (s.time.epoch + 1) % 256, steps := s.time.steps + 1 } }
  hostEvent 0x0C02 0 (leS 8 d) s1

/-- A step is permitted: no run is active, or the step-in-run flag is set (R426). -/
def stepPermitted (s : State) : Bool := s.time.stepInRun || !anyActive s

/-- The transfer latency in 1/16 ns: the average of the last 64 echoes (R428); 0 before the first (log 47). -/
def saddleLatency (s : State) : Nat := if s.time.echoes.isEmpty then 0 else sumOf s.time.echoes / s.time.echoes.length

/-- The largest deviation of the last 64 echoes from their average (time.query). -/
def saddleSpread (s : State) : Nat :=
  maxOf (s.time.echoes.map fun (e : Nat) => distInt (e : Int) (saddleLatency s : Nat))

/-- TIME_WORD_SEND (R428): every 1 µs a word with device time and step epoch. -/
def execTimeWordSend (s : State) : Out :=
  .next (
    if s.power.hostReset ∨ s.time.clock < s.time.wordSentAt + 1000 then s
    else { s with time := { s.time with word := some (s.time.te, s.time.epoch), wordSentAt := s.time.clock } })

/-- Field device time as a time word of the present step epoch sets it: the word plus the latency, within 8 ns of TE device time
once the transfer is locked, and within 200 ns before (R27, R428, R429; log 133). -/
def wordTime (word : Nat) (s : State) : Nat :=
  let t : Int := ((word + saddleLatency s / 16 : Nat) : Int)
  let near : Int := if s.time.locked then 8 else 200
  ((s.time.te : Int) + clampInt (-near) near (t - s.time.te)).toNat

/-- TIME_WORD_RECEIVE (R27, R427, R428): the word sent last arrives; a new epoch is a jump, and so is
a TE that has restarted. A word of an epoch that TE has left
sets nothing, and the field die takes the rate of TE as long as the transfer is locked. -/
def execTimeWordReceive (crcOk : Bool) (s : State) : Out :=
  .next (match s.time.word with
    | none => s
    | some (ns, epoch) =>
      let s0 := { s with time := { s.time with word := none } }
      if !crcOk ∨ s.power.fieldReset then s0 else
      let s1 := if epoch ≠ s.time.epoch then s0
        else if epoch = s.time.fieldEpoch ∧ distInt (wordTime ns s : Nat) s.time.field ≤ 208 then { s0 with time := { s0.time with field := wordTime ns s } }
        else jumpField (wordTime ns s) s0
      { s1 with time := { s1.time with
        fieldEpoch := epoch, wordAt := s.time.clock, fieldY := if s.time.locked then s.time.y else s.time.fieldY } })

/-- One latency measurement in 1/16 ns (R428): half of the round trip less the field side's turnaround, plus the asymmetry held in
OTP (log 157). -/
def echoLatency (roundTrip turnaround : Nat) : Nat :=
  (((roundTrip : Int) - turnaround) / 2 + Config.saddleAsymmetry.toInt).toNat

/-- HEARTBEAT_ECHO (R428): one latency measurement; 64 in a row within ±2 ns of the average lock the transfer. -/
def execHeartbeatEcho (roundTrip turnaround : Nat) (s : State) : Out :=
  let latency16 := echoLatency roundTrip turnaround
  let s1 := { s with time := { s.time with echoes := (latency16 :: s.time.echoes).take 64, echoAt := s.time.clock } }
  let near : Bool := decide (distInt (latency16 : Int) (saddleLatency s1 : Nat) ≤ 32)
  let run := if near then s1.time.echoRun + 1 else 0
  let s2 := { s1 with time := { s1.time with echoRun := run, lost := false } }
  if 64 ≤ run ∧ !s.time.locked then
    done s (hostEvent 0x0C04 0 (le 1 1 ++ zeros 3 ++ le 4 (saddleLatency s2))
      { s2 with time := { s2.time with locked := true } })
  else .next s2

/-- SADDLE_TIME_LOSS (R429): the TIME channel or the echo has been lost for 10 ms; a lock is reported lost. -/
def execSaddleTimeLoss (s : State) : Out :=
  if s.time.lost ∨ (s.time.clock < s.time.wordAt + 10000000 ∧ s.time.clock < s.time.echoAt + 10000000) then .next s
  else
    let s1 := { s with time := { s.time with lost := true, locked := false, echoRun := 0 } }
    done s (if s.time.locked then hostEvent 0x0C04 0 (le 1 0 ++ zeros 3 ++ le 4 (saddleLatency s)) s1 else s1)

end Sys2Proof.Machine
end

