-- ==== Sys2Proof/Machine/Servo.lean ====
section
/-! DEFINITION. PTP and the servo of TE (R416 to R426, R437), with time.query. The best-master comparison and the numbers
of portState are those of IEEE 1588, which the manual names (PRESUMED, log 16). -/

namespace Sys2Proof.Machine

/-! ### Servo -/

/-- Number of a servo state (time.query). -/
def ServoState.number : ServoState → Nat
  | .freeRun => 0 | .acquiring => 1 | .locked => 2 | .holdover => 3

/-- Whole seconds of holdover; 0 outside HOLDOVER. -/
def holdoverAge (s : State) : Nat :=
  match s.time.servo, s.time.holdAt with
  | .holdover, some t => (s.time.clock - t) / 1000000000
  | _, _ => 0

/-- A change of the servo's state (R423): TIME_STATE with its cause and the holdover age so far. -/
def servoTo (st : ServoState) (cause : Nat) (s : State) : State :=
  if s.time.servo = st then s else
  hostEvent 0x0C01 0 (le 1 st.number ++ le 1 cause ++ zeros 2 ++ le 4 (holdoverAge s))
    { s with time := { s.time with
      servo := st, lockRun := 0, unlockRun := 0
      holdAt := if st = .holdover then some s.time.clock else none } }

/-- The bound of y and i in 1/256 ppb (R422). -/
def maxSlew (s : State) : Int := (s.time.maxSlewPpb : Int) * 256

/-- One servo step (R422); the history of y is kept for the average of R424. -/
def servoStep (o : Int) (s : State) : State :=
  let i := clampInt (-(maxSlew s)) (maxSlew s) (s.time.i + s.time.ki * o)
  let y := clampInt (-(maxSlew s)) (maxSlew s) (s.time.kp * o + i)
  { s with time := { s.time with i := i, y := y, yLog := (s.time.clock, y) :: s.time.yLog } }

/-- The integral of y over the span from `start` to `stop`, the history newest first. -/
def yIntegral (start stop : Nat) : List (Nat × Int) → Int
  | [] => 0
  | (t, y) :: r =>
    let lo := max t start
    (if lo < stop then ((stop - lo : Nat) : Int) * y else 0) + (if t ≤ start then 0 else yIntegral start (min stop t) r)

/-- The mean of y over the last holdover_avg_s seconds of ACQUIRING or LOCKED; none where it has spent less than that
there (R424). -/
def yMean (s : State) : Option Int :=
  let span := s.time.holdoverAvgS * 1000000000
  match s.time.yLog.getLast? with
  | none => none
  | some (t0, _) =>
    if s.time.clock < t0 + span then none
    else some (yIntegral (s.time.clock - span) s.time.clock s.time.yLog / (span : Int))

/-- The master is lost (R424): HOLDOVER with y and i held. -/
def loseMaster (s : State) : State :=
  let s1 := { s with time := { s.time with candidate := none, samples := [] } }
  match s.time.servo with
  | .acquiring | .locked =>
    let held := match yMean s with
      | some v => { s1.time with y := v, i := v }
      | none => s1.time
    let s2 := servoTo .holdover 3 { s1 with time := held }
    { s2 with time := { s2.time with yLog := [] } }
  | _ => s1

/-- A master is accepted with its last sample (R425, R426). -/
def acceptMaster (o : Int) (s : State) : State :=
  let s1 := servoTo .acquiring 4 { s with time := { s.time with
    candidate := none, samples := [], yLog := [(s.time.clock, s.time.y)] } }
  let s2 := { s1 with ptp := { s1.ptp with portState := 9 } }
  if s2.time.stepNs ≠ 0 ∧ s2.time.stepNs < o.natAbs ∧ stepPermitted s2 then stepTime o s2 else servoStep o s2

/-- A sample before acceptance (R425). -/
def candidateSample (gm : BitVec 64) (o : Int) (s : State) : State :=
  let old := if s.time.candidate = some gm then s.time.samples else []
  let n := s.time.acceptCount
  let l := (old ++ [o]).drop (old.length + 1 - n)
  let spread : Nat := match l.head? with
    | none => 0
    | some a => (l.foldl max a - l.foldl min a).toNat
  if n ≤ l.length ∧ spread ≤ s.time.acceptSpread then acceptMaster o s
  else { s with time := { s.time with candidate := some gm, samples := l } }

/-- A sample of an accepted master (R422, R423). -/
def masterSample (o : Int) (s : State) : State :=
  let s1 := servoStep o s
  if s1.time.servo = .acquiring then
    let run := if o.natAbs ≤ s1.time.lockNs then s1.time.lockRun + 1 else 0
    if s1.time.lockCount ≤ run then servoTo .locked 1 s1 else { s1 with time := { s1.time with lockRun := run } }
  else
    let run := if 4 * s1.time.lockNs < o.natAbs then s1.time.unlockRun + 1 else 0
    if 4 ≤ run then servoTo .acquiring 2 s1 else { s1 with time := { s1.time with unlockRun := run } }

/-- SYNC_MESSAGE (R422 to R425): an offset sample from the chosen grandmaster, as firmware takes it: with its stamps of R417 and the
configured asymmetry accounted for. -/
def execSyncMessage (gm : BitVec 64) (offsetNs : Int) (s : State) : Out :=
  .next (
    if s.ptp.port = none ∨ s.ptp.gm ≠ some gm then s else
    let s1 := { s with
      ptp := { s.ptp with syncAt := some s.time.clock }
      time := { s.time with lastOffset := offsetNs } }
    match s1.time.servo with
    | .acquiring | .locked => masterSample offsetNs s1
    | _ => candidateSample gm offsetNs s1)

/-! ### PTP -/

/-- 2^k seconds in ns, k from -4 on. -/
def pow2s (k : Int) : Nat := 2 ^ (k + 4).toNat * 62500000

/-- A list of numbers is better than another: lexicographic, smaller first (the default BMCA of IEEE 1588). -/
def better : List Nat → List Nat → Bool
  | a :: r, b :: t => a < b || (a == b && better r t)
  | _, _ => false

/-- The device's own rank: it loses a tie, its clockIdentity taken as the greatest (log 16). -/
def ownRank (s : State) : List Nat := [s.ptp.priority1, s.ptp.clockClass, s.ptp.priority2, 2 ^ 64]

/-- A PTP message sent (R416, R419): `inserted`, the MAC wrote a field into the departing frame, whose UDP/IPv4 checksum is then 0;
over UDP/IPv6 two bytes follow every message (R420). -/
def ptpSend (kind : PtpKind) (inserted twoStep : Bool) (correction : Int) (stamp : Nat) (s : State) : State :=
  { s with
    ptp := { s.ptp with
      sent := ⟨kind, twoStep, correction, stamp, inserted && s.ptp.transport == 0, s.ptp.transport == 1⟩ :: s.ptp.sent }
    ports := match s.ptp.port with | some k => modAt s.ports k (sendFrame .ptp) | none => s.ports }

/-- A Sync with its egress stamp (R419): in one step inserted, the fraction below 1 ns in the correctionField; else in the
Follow_Up. -/
def ptpSync (s : State) : State :=
  let part : Int := (s.time.frac / 65536 : Nat)
  if s.ptp.oneStep then ptpSend .sync true false part s.time.te s
  else ptpSend .followUp false false part s.time.te (ptpSend .sync false true 0 0 s)

/-- The answer to a Pdelay_Req (R419): in one step t3 - t2 is added to the correctionField and requestReceiptTimestamp is 0; else
the answer carries t2 and its follow-up t3. -/
def ptpPdelayResp (correction : Int) (t2 t3 : Nat) (s : State) : State :=
  if s.ptp.oneStep then ptpSend .pdelayResp true false (correction + ((t3 : Int) - t2) * 65536) 0 s
  else ptpSend .pdelayRespFollowUp false false correction t3 (ptpSend .pdelayResp false true 0 t2 s)

/-- An Announce (R424): the default BMCA chooses the best of the present grandmaster, the sender and, unless slave-only,
the device. -/
def takeAnnounce (gm : BitVec 64) (rank : List Nat) (utc : Int) (s : State) : State :=
  let mine : Bool := !s.ptp.slaveOnly && better (ownRank s) rank
  if s.ptp.gm = some gm then
    if mine then
      let s1 := loseMaster s
      { s1 with ptp := { s1.ptp with gm := none, gmRank := [], portState := 6, syncAt := none } }
    else { s with ptp := { s.ptp with gmRank := rank, announceAt := some s.time.clock, utcOffset := utc } }
  else if mine ∨ !(s.ptp.gm = none ∨ better rank s.ptp.gmRank) then s
  else
    let s1 := loseMaster s
    hostEvent 0x0C03 0 (leB 8 gm) { s1 with ptp := { s1.ptp with
      gm := some gm, gmRank := rank, utcOffset := utc, portState := 8
      announceAt := some s.time.clock, syncAt := some s.time.clock } }

/-- PTP_MESSAGE (R416, R419, R424): messages other than an offset sample. -/
def execPtpMessage (msg : PtpMsg) (s : State) : Out :=
  .next (
    if s.ptp.port = none then s else
    match msg with
    | .announce gm p1 cls p2 utc => takeAnnounce gm [p1, cls, p2, gm.toNat] utc s
    | .delayResp ns => { s with ptp := { s.ptp with pathDelay := ns } }
    | .delayReq => if s.ptp.portState = 6 ∧ !s.ptp.p2p then ptpSend .delayResp false false 0 s.time.te s else s
    | .pdelayReq c t2 t3 => if s.ptp.p2p then ptpPdelayResp c t2 t3 s else s
    | .followUp => s
    | .managementOrSignaling => s)

/-- SYNC_TIMEOUT (R424): no Sync from the master for sync_timeout sync intervals. -/
def execSyncTimeout (s : State) : Out :=
  .next (match s.ptp.port, s.ptp.gm, s.ptp.syncAt with
    | some _, some _, some t =>
      if t + s.ptp.syncTimeout * pow2s s.ptp.logSync ≤ s.time.clock then loseMaster s else s
    | _, _, _ => s)

/-- ANNOUNCE_TIMEOUT (R424): the announce receipt timeout expires; a device that is not slave-only becomes master. -/
def execAnnounceTimeout (s : State) : Out :=
  .next (match s.ptp.port, s.ptp.announceAt with
    | some _, some t =>
      if t + s.ptp.announceTimeout * pow2s s.ptp.logAnnounce ≤ s.time.clock then
        let s1 := if s.ptp.gm = none then s else loseMaster s
        { s1 with ptp := { s1.ptp with
          gm := none, gmRank := [], announceAt := none, syncAt := none, portState := if s.ptp.slaveOnly then 4 else 6 } }
      else s
    | _, _ => s)

/-- PTP_TRANSMIT_INTERVAL (R416, R419): what is due is sent: Sync and Announce by a master, Delay_Req by a slave, Pdelay_Req
under P2P. A one-step Sync carries its egress stamp. -/
def execPtpTransmitInterval (s : State) : Out :=
  .next (
    if s.ptp.port = none then s else
    let now := s.time.clock
    let sendDue := fun (i : Nat) (k : Int) => s.ptp.sentAt.getD i 0 + pow2s k ≤ now
    let stamp := fun (i : Nat) (s : State) => { s with ptp := { s.ptp with sentAt := setAt s.ptp.sentAt i now } }
    let s1 :=
      if s.ptp.portState = 6 ∧ sendDue 0 s.ptp.logSync then
        stamp 0 (ptpSync s)
      else s
    let s2 := if s.ptp.portState = 6 ∧ sendDue 1 s.ptp.logAnnounce then stamp 1 (ptpSend .announce false false 0 0 s1) else s1
    if sendDue 2 s.ptp.logMinDelay ∧ (s.ptp.p2p ∨ s.ptp.portState = 8 ∨ s.ptp.portState = 9) then
      stamp 2 (ptpSend (if s.ptp.p2p then .pdelayReq else .delayReq) false false 0 0 s2)
    else s2)

/-- PTP moves to the other port when its own goes down (R418): loss of the master. -/
def ptpFailover (port : Nat) (s : State) : State :=
  if s.ptp.port = some port ∧ s.ptp.failover ∧ (s.ports.getD (1 - port) {}).up then
    let s1 := loseMaster s
    { s1 with ptp := { s1.ptp with
      port := some (1 - port), gm := none, gmRank := [], syncAt := none, announceAt := some s.time.clock, portState := 4 } }
  else s

/-! ### Messages -/

/-- time.ptp_config (0x0C03). A change of port, transport or domain is a loss of the master (log 16). -/
def opTimePtpConfig : OpDef where
  code := 0x0C03
  field := false
  len b := b.length == 24
  fields m _ :=
    let b := m.payload
    [(byteAt b 0 ≤ 1 || byteAt b 0 == 0xFF, 0), below (byteAt b 1) 4 1, within (byteAt b 2) 0 2 2, within (byteAt b 3) 0 127 3,
     withinInt (s8 b 4) (-4) 1 4, within (byteAt b 5) 0 4 5, withinInt (s8 b 6) (-4) 5 6, within (byteAt b 7) 2 10 7,
     (if bit (byteAt b 1) 2 then byteAt b 10 == 255 else decide (6 ≤ byteAt b 10), 10), reserved b 11 1,
     within (u16 b 12) 2 64 12, reserved b 14 2, reserved b 20 4]
  body m s :=
    let b := m.payload
    let fl := byteAt b 1
    let on := byteAt b 0 ≤ 1
    let port := if on then some (byteAt b 0) else none
    let same : Bool := s.ptp.port = port && s.ptp.transport == byteAt b 2 && s.ptp.domain == byteAt b 3
    let s1 := if same then s else loseMaster s
    let p := { s1.ptp with
      port := port, p2p := bit fl 0, oneStep := bit fl 1, slaveOnly := bit fl 2, failover := bit fl 3
      transport := byteAt b 2, domain := byteAt b 3, logSync := s8 b 4, logAnnounce := byteAt b 5, logMinDelay := s8 b 6
      announceTimeout := byteAt b 7, priority1 := byteAt b 8, priority2 := byteAt b 9, clockClass := byteAt b 10
      syncTimeout := u16 b 12, asymmetry := s32 b 16 }
    let p := if same then p else { p with
      gm := none, gmRank := [], syncAt := none, announceAt := some s.time.clock, portState := if on then 4 else 1 }
    let s2 := { s1 with ptp := p }
    okState (if on then s2 else servoTo .freeRun 0 s2)

/-- time.servo_config (0x0C02). -/
def opTimeServoConfig : OpDef where
  code := 0x0C02
  field := false
  len b := b.length == 24
  fields m _ :=
    let b := m.payload
    [within (u32 b 8) 1 500000 8, within (u16 b 12) 10 10000 12, within (byteAt b 14) 4 255 14, within (byteAt b 15) 2 64 15,
     within (u16 b 20) 1 600 20, below (byteAt b 22) 1 22, reserved b 23 1]
  body m s :=
    let b := m.payload
    okState { s with time := { s.time with
      kp := u16 b 0, ki := u16 b 2, stepNs := u32 b 4, maxSlewPpb := u32 b 8, lockNs := u16 b 12, lockCount := byteAt b 14
      acceptCount := byteAt b 15, acceptSpread := u32 b 16, holdoverAvgS := u16 b 20, stepInRun := bit (byteAt b 22) 0 } }

/-- A time of 8 bytes of seconds and 4 of ns at a payload offset. -/
def timeAt (b : Bytes) (i : Nat) : Nat := u64 b i * 1000000000 + u32 b (i + 8)

/-- time.set (0x0C05, R437). -/
def opTimeSet : OpDef where
  code := 0x0C05
  field := false
  len b := b.length == 16
  fields m _ := [(u32 m.payload 8 < 1000000000, 8), reserved m.payload 12 4]
  body m s := do
    require (s.time.servo != .acquiring && s.time.servo != .locked && stepPermitted s) (plainErr stState)
    let s1 := stepTime ((timeAt m.payload 0 : Int) - s.time.te) s
    okState { s1 with time := { s1.time with frac := 0 } }

/-- time.query (0x0C01). -/
def opTimeQuery : OpDef where
  code := 0x0C01
  field := false
  len b := b.length == 0
  body _ s :=
    let t := s.time
    okBytes s (le 1 t.servo.number ++ le 1 s.ptp.portState ++ le 1 (s.ptp.port.getD 0xFF) ++ le 1 (flag t.locked) ++
      le 4 (t.te % 1000000000) ++ le 8 (t.te / 1000000000) ++ leB 8 (s.ptp.gm.getD 0) ++ leS 4 t.lastOffset ++
      le 4 s.ptp.pathDelay ++ leS 4 t.y ++ le 4 (holdoverAge s) ++ le 4 (saddleLatency s) ++ le 4 (saddleSpread s) ++
      leS 2 s.ptp.utcOffset ++ le 1 t.epoch ++ zeros 1 ++ le 4 t.steps ++ zeros 8)

def execTimePtpConfig (m : Msg) (s : State) : Out := .next (message opTimePtpConfig m s)
def execTimeServoConfig (m : Msg) (s : State) : Out := .next (message opTimeServoConfig m s)
def execTimeSet (m : Msg) (s : State) : Out := .next (message opTimeSet m s)
def execTimeQuery (m : Msg) (s : State) : Out := .next (message opTimeQuery m s)

end Sys2Proof.Machine
end

