-- ==== Sys2Proof/Machine/Ethernet.lean ====
section
/-! DEFINITION. The Ethernet ports (R412 to R415) and the sessions of the mailbox transport (R61 to R70) but for the messages
they carry (Machine/Fetch.lean). -/

namespace Sys2Proof.Machine

def ethAt (s : State) (p : Nat) : EthPort := s.ports.getD p {}
def setEth (s : State) (p : Nat) (f : EthPort → EthPort) : State := { s with ports := modAt s.ports p f }

/-! ### Ports -/

/-- ETH_LINK: state 0 down, 1 up, 2 address conflict. -/
def ethLinkEvent (p st : Nat) (s : State) : State := hostEvent 0x0120 0 (le 1 p ++ le 1 st ++ le 1 (ethAt s p).mode) s

/-- A port's link goes down: ETH_LINK, and PTP moves if it may (R418). -/
def linkDown (p : Nat) (s : State) : State :=
  if (ethAt s p).up then ptpFailover p (ethLinkEvent p 0 (setEth s p fun e => { e with up := false })) else s

/-- An IPv6 address found to be a duplicate is not used (R414). -/
def dropAddress (global : Bool) (e : EthPort) : EthPort :=
  { e with dupLocal := e.dupLocal || !global, dupGlobal := e.dupGlobal || global }

/-- A port whose link comes up: duplicates are looked for anew, and IPv4 sends one gratuitous ARP (R414). -/
def portUp (e : EthPort) : EthPort :=
  let e := { e with up := true, dupLocal := false, dupGlobal := false }
  if e.flags.getLsbD 3 then sendFrame .gratuitousArp e else e

/-- ETH_LINK (R414, R418): the link of a port changes, or an address of it is found to be a duplicate. -/
def execEthLink (port : Fin 2) (up : Bool) (duplicate : Option Bool) (s : State) : Out :=
  .next (
    let p := port.val
    let e := ethAt s p
    match duplicate with
    | some g =>
      if !e.up ∨ !e.flags.getLsbD 4 ∨ (if g then e.dupGlobal else e.dupLocal) then s
      else ethLinkEvent p 2 (setEth s p (dropAddress g))
    | none =>
      if !up then linkDown p s
      else if e.up ∨ e.mode = 0 then s
      else ethLinkEvent p 1 (setEth s p portUp))

/-- A UDP port is taken: the mailbox's, or one of PTP's (R413). -/
def udpTaken (s : State) (dport : Nat) : Bool := dport == s.mbx.ethPort.toNat || dport == 319 || dport == 320

/-- The port has an IPv6 address in use that a packet is for: the global one, or the link-local one (R414). -/
def v6InUse (e : EthPort) (global : Bool) : Bool :=
  e.flags.getLsbD 4 && (if global then e.ipv6 != 0 && !e.dupGlobal else !e.dupLocal)

/-- A port can be reached by IPv4 or by IPv6 (R412, R414). -/
def portReached (e : EthPort) (v6 : Bool) : Bool :=
  e.up && (if v6 then v6InUse e true || v6InUse e false else e.flags.getLsbD 3)

/-- A frame meets the four conditions of R413, and an IP packet is for an address that the port uses (R414). -/
def frameAccepted (s : State) (p : Nat) (f : EthFrame) : Bool :=
  let e := ethAt s p
  let dst := match f.dst with
    | .own => true
    | .broadcast => f.kind == .arp
    | .ptpMulticast => true
    | .other => false
  let tags := if e.flags.getLsbD 2 then f.vids == [e.vlan % 4096] else f.vids.isEmpty
  let kind := match f.kind with
    | .arp | .ptpRaw => true
    | .icmp4Echo => e.flags.getLsbD 3
    | .icmp6EchoOrNd | .routerAdvert _ => v6InUse e f.global
    | .udp4 d => e.flags.getLsbD 3 && udpTaken s d
    | .udp6 d => v6InUse e f.global && udpTaken s d
    | .pause | .otherIp | .otherType => false
  dst && tags && kind

/-- What the device answers to a frame itself: ARP for its IPv4 address, an echo request where echo is on, neighbour
discovery (R413, R414). -/
def frameAnswer (e : EthPort) (k : EthKind) : Option SentFrame :=
  match k with
  | .arp => if e.flags.getLsbD 3 then some .arpReply else none
  | .icmp4Echo => if e.flags.getLsbD 5 then some .echoReply else none
  | .icmp6EchoOrNd => some .neighbourAdvert
  | _ => none

/-- A port after an accepted frame: counted, answered, its IPv6 router noted. -/
def tookFrame (k : EthKind) (router : Option Nat) (e : EthPort) : EthPort :=
  let e1 := { e with rxFrames := e.rxFrames + 1, router6 := router }
  match frameAnswer e k with
  | some f => sendFrame f e1
  | none => e1

/-- The IPv6 router that a port uses after a frame: the last that advertised itself (R414). -/
def routerSeen (e : EthPort) (k : EthKind) : Option Nat :=
  match k with
  | .routerAdvert r => if e.flags.getLsbD 4 then some r else e.router6
  | _ => e.router6

/-- Parts cover a datagram of `total` bytes from byte `at_` on: some part always takes in the first byte not yet reached (R70). -/
def covered (parts : List (Nat × Nat)) : Nat → Nat → Nat → Bool
  | 0, at_, total => total ≤ at_
  | fuel + 1, at_, total => total ≤ at_ ||
    match parts.find? fun g => g.1 ≤ at_ && at_ < g.1 + g.2 with
    | none => false
    | some g => covered parts fuel (g.1 + g.2) total

/-- A part of an IP datagram (R70): up to 4,200 bytes, at most 64 incomplete datagrams. -/
def takeFragment (p : Nat) (g : Fragment) (s : State) : State :=
  let old := s.eth.frags.find? fun r => r.port == p && r.ident == g.ident
  let rest := s.eth.frags.filter fun r => !(r.port == p && r.ident == g.ident)
  let r0 := old.getD ⟨p, g.ident, [], none, s.time.clock⟩
  let r1 := { r0 with parts := (g.offset, g.size) :: r0.parts, total := if g.last then some (g.offset + g.size) else r0.total }
  if 4200 < g.offset + g.size ∨ r1.total.any (covered r1.parts r1.parts.length 0) then { s with eth := { s.eth with frags := rest } }
  else if old.isNone ∧ 64 ≤ rest.length then s
  else { s with eth := { s.eth with frags := rest ++ [r1] } }

/-- ETH_FRAME_RECEIVE (R412 to R414, R70). -/
def execEthFrameReceive (port : Fin 2) (frame : EthFrame) (s : State) : Out :=
  .next (
    let p := port.val
    if !(ethAt s p).up then s
    else if !frame.fcsOk then setEth s p fun e => { e with fcsErr := e.fcsErr + 1 }
    else if !frameAccepted s p frame then setEth s p fun e => { e with discarded := e.discarded + 1 }
    else
      let s1 := setEth s p (tookFrame frame.kind (routerSeen (ethAt s p) frame.kind))
      match frame.frag with
      | none => s1
      | some g => takeFragment p g s1)

/-- FRAGMENT_TIMEOUT (R70). -/
def execFragmentTimeout (s : State) : Out :=
  .next { s with eth := { s.eth with frags := s.eth.frags.filter fun r => s.time.clock < r.since + 100000000 } }

/-- An accepted configuration put into force (R415): a change of mode, MAC or IP address closes the port's sessions with
cause 2; a change of mode drops the link. -/
def applyEth (p : Nat) (s : State) : State :=
  match (ethAt s p).pending with
  | none => s
  | some (b, _) =>
    let e := ethAt s p
    let n : EthPort := { e with
      mode := byteAt b 1, flags := BitVec.ofNat 8 (byteAt b 2), prefix4 := byteAt b 3, vlan := u16 b 4, mtu := u16 b 6
      mac := u48 b 8, ipv4 := u32 b 16, gateway4 := u32 b 20, ipv6 := leAt b 24 16, prefix6 := byteAt b 40, pending := none }
    let cuts : Bool := n.mode != e.mode || n.mac != e.mac || n.ipv4 != e.ipv4 || n.ipv6 != e.ipv6
    let n := if cuts then { n with dupLocal := false, dupGlobal := false } else n
    let s1 := if n.mode = e.mode then s else linkDown p s
    let s2 := setEth s1 p fun e => { n with up := e.up, txFrames := e.txFrames, frames := e.frames }
    if cuts then
      (s2.eth.sessions.filter fun q => q.port == p).foldl (fun s q => closeSession q.session.toNat 2 s)
        { s2 with eth := { s2.eth with handshakes := s2.eth.handshakes.filter fun h => h.port != p } }
    else s2

/-- sys.eth_config (0x0120, R415): answered before the port changes, which it does with the next tick. -/
def opSysEthConfig : OpDef where
  code := 0x0120
  field := false
  len b := b.length == 48
  fields m _ :=
    let b := m.payload
    let vid := u16 b 4 % 4096
    [within (byteAt b 0) 0 1 0, within (byteAt b 1) 0 3 1, below (byteAt b 2) 6 2, within (byteAt b 3) 0 32 3,
     ((!bit (byteAt b 2) 2 || (1 ≤ vid && vid ≤ 4094)) && u16 b 4 < 32768, 4), within (u16 b 6) 1280 9000 6,
     reserved b 14 2, within (byteAt b 40) 1 128 40, reserved b 41 7]
  body m s := okState (setEth s (byteAt m.payload 0) fun e => { e with pending := some (m.payload, s.time.clock) })

/-- sys.eth_query (0x0121). -/
def opSysEthQuery : OpDef where
  code := 0x0121
  field := false
  len b := b.length == 4
  fields m _ := [within (byteAt m.payload 0) 0 1 0, reserved m.payload 1 3]
  body m s :=
    let p := byteAt m.payload 0
    let e := ethAt s p
    okBytes s (le 1 (flag e.up) ++ le 1 e.mode ++ leB 1 e.flags ++ zeros 1 ++
      le 4 (s.eth.sessions.filter fun q => q.port == p).length ++ le 8 e.rxFrames ++ le 8 e.txFrames ++ le 4 e.fcsErr ++
      le 4 e.discarded ++ le 4 e.fecCorrected ++ le 4 e.fecUncorrected ++ le 6 (macInForce s p) ++ zeros 2)

def execSysEthConfig (m : Msg) (s : State) : Out := .next (message opSysEthConfig m s)
def execSysEthQuery (m : Msg) (s : State) : Out := .next (message opSysEthQuery m s)

/-! ### Handshake -/

/-- The enrolled key of an index. -/
def hostKey (s : State) (i : Nat) : Option HostKey := s.cairn.keys.getD i none

/-- The clocks of the HELLO datagrams processed within the last second (R65). -/
def recentHellos (s : State) : List Nat := s.eth.hellos.filter fun t => s.time.clock < t + 1000000000

/-- HELLO (R62 to R65): a valid one is answered by REPLY; every other one by silence. A host_pub that begins with 0x04 is taken as
valid, whether or not its coordinates are a point of P-384, which R65 leaves open (DESIGN CHOICE, log 136). -/
def execHello (port : Fin 2) (v6 : Bool) (body : Bytes) (s : State) : Out :=
  .next (
    let l := recentHellos s
    if !s.mbx.ethEnable ∨ !s.mbx.ready ∨ !portReached (ethAt s port.val) v6 ∨ 10 ≤ l.length then s else
    let s1 := { s with eth := { s.eth with hellos := s.time.clock :: l } }
    let k := byteAt body 129
    if body.length ≠ 132 ∨ byteAt body 0 ≠ 4 ∨ (hostKey s k).isNone ∨ u16 body 130 ≠ 0 ∨ 4 ≤ s.eth.sessions.length then s1 else
    let n := s.eth.nextSession
    let head := leB 97 (Config.devicePoint n) ++ (leB 48 (Config.random n)).take 32 ++ le 4 n ++ zeros 3
    let reply := head ++ leB 96 (Config.ecdsaSign (Config.sha384 (body ++ head)))
    sendUdp port.val v6 (transportHeader 0 0x02 0 0 ++ reply) { s1 with eth := { s1.eth with
      handshakes := s1.eth.handshakes ++ [⟨BitVec.ofNat 32 n, port.val, v6, k, body, reply, s.time.clock⟩]
      nextSession := if n + 1 < 2 ^ 32 then n + 1 else 1 } })

/-- The info of the key derivation: the ASCII string "K8W22 mbx v1" (R64). -/
def hkdfInfo : Bytes := [0x4B, 0x38, 0x57, 0x32, 0x32, 0x20, 0x6D, 0x62, 0x78, 0x20, 0x76, 0x31]

/-- CONFIRM (R64, R65): with a valid signature within 1 s of the REPLY the session opens. -/
def execConfirm (session : BitVec 32) (body : Bytes) (s : State) : Out :=
  .next (match s.eth.handshakes.find? fun h => h.session == session with
    | none => s
    | some h =>
      let good : Bool := body.length == 96 && s.mbx.ethEnable && decide (s.time.clock ≤ h.since + 1000000000) &&
        decide (s.eth.sessions.length < 4) && (match hostKey s h.keyIdx with
          | none => false
          | some k => Config.ecdsaVerify k.key (Config.sha384 (h.hello ++ h.reply)) body)
      if !good then s else
      let salt := slice h.hello 97 32 ++ slice h.reply 97 32
      let k := leB 72 (Config.hkdf72 (leB 48 (Config.ecdhX (slice h.hello 0 97) session.toNat)) salt hkdfInfo)
      let q : Session :=
        { session := session, port := h.port, v6 := h.v6, keyIdx := h.keyIdx
          keyIn := slice k 0 32, keyOut := slice k 32 32, saltIn := slice k 64 4, saltOut := slice k 68 4, rxHigh := 0, rxSeen := [], txNext := 1
          errors := 0, nextSeq := [1, 1, 1, 1], stored := [], gap := [], unacked := [], talusCi := 0, talusSeq := 0, held := []
          dropped := 0, lastRx := s.time.clock }
      sessionEvent session 1 { s with eth := { s.eth with
        handshakes := s.eth.handshakes.filter fun x => x.session != session
        sessions := s.eth.sessions ++ [q] } })

/-- HANDSHAKE_TIMEOUT (R64). -/
def execHandshakeTimeout (session : BitVec 32) (s : State) : Out :=
  .next { s with eth := { s.eth with
    handshakes := s.eth.handshakes.filter fun h => h.session != session || s.time.clock ≤ h.since + 1000000000 } }

/-! ### Datagrams of a session -/

/-- A datagram of a session (R66): discarded and counted, or accepted with its plaintext. -/
def takeDatagram (session : BitVec 32) (counter : Nat) (plain : Option Bytes) (s : State) : State × Option Bytes :=
  match sessionAt s session.toNat with
  | none => (s, none)
  | some q =>
    match plain with
    | none => (setSession session.toNat (fun q => { q with errors := q.errors + 1 }) s, none)
    | some b =>
      if 2 ^ 32 ≤ counter then (closeSession session.toNat 4 s, none)
      else if counter = 0 ∨ q.rxSeen.contains counter ∨ counter + 64 ≤ q.rxHigh then
        (setSession session.toNat (fun q => { q with errors := q.errors + 1 }) s, none)
      else
        let high := max q.rxHigh counter
        (setSession session.toNat (fun q => { q with
          rxHigh := high, rxSeen := (counter :: q.rxSeen).filter fun c => high < c + 64, lastRx := s.time.clock }) s, some b)

/-- A record written to a session: numbered, kept until it is acknowledged, sent (R68). -/
def sessionWrite (inst : Nat) (r : EventRec) (s : State) : State :=
  match sessionAt s inst with
  | none => s
  | some q =>
    let t : TalusRec := ⟨q.talusSeq, r⟩
    let index := (q.talusCi + q.unacked.length) % 2 ^ 32
    sendDatagram inst 0x11 (le 4 index ++ t.bytes) (setSession inst (fun q => { q with
      unacked := q.unacked ++ [(t, s.time.clock)], talusSeq := (q.talusSeq + 1) % 65536 }) s)

/-- A record for a session: written while 32,768 are not outstanding, else held or dropped (R60, R68). -/
def sessionRecord (inst : Nat) (r : EventRec) (s : State) : State :=
  match sessionAt s inst with
  | none => s
  | some q =>
    if q.unacked.length < 32768 ∧ q.held = [] ∧ q.dropped = 0 then sessionWrite inst r s
    else if q.held.length < 1024 then setSession inst (fun q => { q with held := q.held ++ [r] }) s
    else setSession inst (fun q => { q with dropped := q.dropped + 1 }) s

/-- The TALUS_LOST record. -/
def lostRecord (n : Nat) (s : State) : EventRec := ⟨0x0102, 0, s.time.te, none, le 8 n, none, false⟩

/-- Held records of a session written while there is space, TALUS_LOST first (R60). -/
def flushSession (inst : Nat) : Nat → State → State
  | 0, s => s
  | fuel + 1, s =>
    match sessionAt s inst with
    | none => s
    | some q =>
      if 32768 ≤ q.unacked.length then s
      else if q.dropped ≠ 0 then
        flushSession inst fuel (sessionWrite inst (lostRecord q.dropped s) (setSession inst (fun q => { q with dropped := 0 }) s))
      else match q.held with
        | [] => s
        | r :: rest => flushSession inst fuel (sessionWrite inst r (setSession inst (fun q => { q with held := rest }) s))

/-- EVENT_ACK (R68): the session's Talus CI advances. -/
def execEventAck (session : BitVec 32) (counter : Nat) (plain : Option (List Byte)) (s : State) : Out :=
  .next (
    let (s1, b) := takeDatagram session counter plain s
    match b, sessionAt s1 session.toNat with
    | some b, some q =>
      let n := (u32 b 0 + 2 ^ 32 - q.talusCi) % 2 ^ 32
      if b.length ≠ 4 ∨ q.unacked.length < n then s1
      else flushSession session.toNat 1026 (setSession session.toNat (fun q => { q with
        unacked := q.unacked.drop n, talusCi := u32 b 0 }) s1)
    | _, _ => s1)

/-- EVENT_RESEND (R68): records not acknowledged for 50 ms are sent again. -/
def execEventResend (session : BitVec 32) (s : State) : Out :=
  .next (match sessionAt s session.toNat with
    | none => s
    | some q =>
      let old := fun (e : TalusRec × Nat) => decide (e.2 + 50000000 ≤ s.time.clock)
      let s1 := q.unacked.zipIdx.foldl (fun s e =>
        if old e.1 then sendDatagram session.toNat 0x11 (le 4 ((q.talusCi + e.2) % 2 ^ 32) ++ e.1.1.bytes) s else s) s
      setSession session.toNat (fun q => { q with
        unacked := q.unacked.map fun e => if old e then (e.1, s.time.clock) else e }) s1)

/-- CLOSE (R69). -/
def execClose (session : BitVec 32) (counter : Nat) (plain : Option (List Byte)) (s : State) : Out :=
  .next (
    let (s1, b) := takeDatagram session counter plain s
    match b with
    | some b => if b.length = 4 then closeSession session.toNat 2 s1 else s1
    | none => s1)

/-- SESSION_IDLE_TIMEOUT (R69). -/
def execSessionIdleTimeout (session : BitVec 32) (s : State) : Out :=
  .next (match sessionAt s session.toNat with
    | none => s
    | some q => if q.lastRx + 10000000000 ≤ s.time.clock then closeSession session.toNat 3 s else s)

end Sys2Proof.Machine
end

