-- ==== Sys2Proof/Machine/Clock.lean ====
section
/-! DEFINITION. The passing of time. The model measures every interval and deadline of the manual by `time.clock`, in ns;
one idle step is one tick of 10 ns (R15; DESIGN CHOICE, log 18). -/

namespace Sys2Proof.Machine

/-- Time goes on by one tick: the model's clock, TE device time at the servo's rate (R421, R422) and field device
time, at the rate of TE while the Saddle time transfer is locked (R27), else at its last rate (R429). -/
def passTime (s : State) : State :=
  -- y is in 1/256 ppb and the fraction counts 2^-32 ns: 10 ns × y × 2^32 / (256 × 10^9)
  let frac : Int := (s.time.frac : Int) + 10 * 2 ^ 32 + s.time.y * 10 * 2 ^ 24 / 1000000000
  let frac := frac.toNat
  let y := if s.time.locked then s.time.y else s.time.fieldY
  let ff : Int := (s.time.fieldFrac : Int) + 10 * 2 ^ 32 + y * 10 * 2 ^ 24 / 1000000000
  let ff := ff.toNat
  { s with time := { s.time with
    clock := s.time.clock + 10
    te := s.time.te + frac / 2 ^ 32
    frac := frac % 2 ^ 32
    field := s.time.field + ff / 2 ^ 32
    fieldFrac := ff % 2 ^ 32
    fieldY := y } }

/-- The time for which the memory has been idle (R379): it restarts at every tick at which it is not. -/
def noteMemIdle (s : State) : State :=
  if memIdle s then s else { s with mem := { s.mem with idleSince := s.time.clock } }

/-- One idle step: time passes, the transmitters of the SETT lanes fill it with blocks (R243, R245; log 126), and an Ethernet
configuration accepted comes into force (R415, log 15). -/
def idleTick (s : State) : State := applyEth 1 (applyEth 0 (noteMemIdle (tickLanes (passTime s))))

end Sys2Proof.Machine
end

