-- ==== Sys2Proof/Machine/Camera.lean ====
section
/-! DEFINITION. The cam family of messages (09: R284, R287, R299, R300, R302 to R304). -/

namespace Sys2Proof.Machine

/-- Bytes of the largest statistics block: header, 64 windows and the column records (R297). -/
def blockMax (width bin : Nat) : Nat := 64 + 64 * 48 + 16 * (width / 2 / 2 ^ bin)

/-- Extents of a CAMSET (R303, R93, R100): history, statistics ring, and a store of two captured frames. -/
def camExtents (width bin depth frameLines history : Nat) : Nat :=
  ceilDiv (history * width) extentBytes + ceilDiv (depth * blockMax width bin) extentBytes +
    ceilDiv (2 * (frameLines / 2 * (width / 2) * 6)) extentBytes

/-- cam.create (0x0901, R303). -/
def opCamCreate : OpDef where
  code := 0x0901
  trained := true
  len b := b.length == 32
  fields m _ :=
    let b := m.payload
    [within (byteAt b 0) 0 1 0, within (byteAt b 1) 0 3 1, within (byteAt b 2) 2 16 2, below (byteAt b 3) 2 3,
      (256 ≤ u32 b 4 && u32 b 4 ≤ 65536 && u32 b 4 % 64 == 0, 4),
      (256 ≤ u16 b 8 && u16 b 8 ≤ 16384 && u16 b 8 % 64 == 0, 8), within (u16 b 10) 64 65535 10,
      within (u32 b 12) 1 200000 12, within (u32 b 20) 0 16777216 20, reserved b 24 8]
  body m s := do
    let b := m.payload
    let n := camExtents (u32 b 4) (byteAt b 1) (byteAt b 2) (u16 b 8) (u32 b 20)
    let (ext, s1) ← orErr (takeExtents n s) (plainErr stNoSpace)
    let c : CamSet :=
      { face := byteAt b 0, binLog2 := byteAt b 1, depth := byteAt b 2, statsEvt := bit (byteAt b 3) 0
        hostHold := bit (byteAt b 3) 1, width := u32 b 4, frameLines := u16 b 8, camPitch := u16 b 10, maxRate := u32 b 12
        camOffset := u32 b 16, historyLines := u32 b 20, extents := ext }
    let (i, t) ← orErr (s1.objs.camsets.create c) (plainErr stNoSpace)
    .ok { state := { s1 with objs := { s1.objs with camsets := t } }
          handle := some (t.handle tyCamset i), payload := le 8 (n * extentBytes) }

/-- cam.destroy (0x0902, R76): a capture that waits completes with NOHANDLE. -/
def opCamDestroy : OpDef where
  code := 0x0902
  trained := true
  types := [tyCamset]
  len b := b.length == 0
  body m s := do
    let c ← orErr (camsetOf s m.handle) (plainErr stNoHandle)
    require (!c.active) (plainErr stState)
    let s1 := giveExtents c.extents (dropCaptures (hIdx m.handle) stNoHandle s)
    okState { s1 with objs := { s1.objs with camsets := s1.objs.camsets.release (hIdx m.handle) } }

/-- The sensor records of a cam.sensor_write laid over those of the CAMSET. -/
def writeSensors (b : Bytes) (n : Nat) (l : List (Option Sensor)) : List (Option Sensor) :=
  (List.range n).foldl (fun l k =>
    let o := 4 + 16 * k
    let q : Sensor :=
      { colSwap := bit (byteAt b (o + 1)) 0, mirror := bit (byteAt b (o + 1)) 1, cropLeft := u16 b (o + 2)
        cropRight := u16 b (o + 4), firstPx := u32 b (o + 8), pixels := u32 b (o + 12) }
    setAt l (byteAt b o) (some q)) l

/-- cam.sensor_write (0x0903, R284): the sensors must tile the face line. -/
def opCamSensorWrite : OpDef where
  code := 0x0903
  trained := true
  types := [tyCamset]
  len b := 4 ≤ b.length && b.length == 4 + 16 * byteAt b 0
  fields m s :=
    let b := m.payload
    [within (byteAt b 0) 1 4 0, reserved b 1 3] ++
      ((List.range (byteAt b 0)).flatMap fun k =>
        let o := 4 + 16 * k
        [within (byteAt b o) 0 3 o, below (byteAt b (o + 1)) 2 (o + 1), (u16 b (o + 2) % 2 == 0, o + 2), reserved b (o + 6) 2,
          (u32 b (o + 8) % 2 == 0, o + 8), within (u32 b (o + 12)) 1 65536 (o + 12)]) ++
      [((camsetOf s m.handle).all fun c => tiles ((writeSensors b (byteAt b 0) c.sensors).filterMap id) c.width, 6)]
  body m s :=
    okState (setCamset s m.handle fun c => { c with sensors := writeSensors m.payload (byteAt m.payload 0) c.sensors })

/-- cam.exposure_write (0x0904, R281, R287): staged. -/
def opCamExposureWrite : OpDef where
  code := 0x0904
  trained := true
  types := [tyCamset]
  len b := b.length == 32
  fields m _ := (List.range 4).map fun k => (byteAt m.payload (8 * k) == k, 8 * k)
  body m s := okState (setCamset s m.handle fun c => { c with exposureStaged := some m.payload })

/-- Conditions on the entries of tables 3 to 5, by byte offset in the table, with the length of each field. -/
def tableChecks (l : List (SMap Byte)) (t : Nat) : List (Bool × Nat × Nat) :=
  match t with
  | 3 =>
    let v := fun o => tab16 l 3 o
    [(1 ≤ v 0 && v 0 ≤ 256, 0, 2), (v 2 ≤ 4095, 2, 2), (v 4 ≤ 4095, 4, 2), (1 ≤ v 6 && v 6 ≤ 4095, 6, 2),
      (1 ≤ tab8 l 3 9, 9, 1), (1 ≤ v 10 && v 10 ≤ 16384, 10, 2), (v 12 ≤ 4095, 12, 2), (v 14 ≤ 4095, 14, 2), (v 16 ≤ 4095, 16, 2)]
  | 4 => (List.range 64).flatMap fun k => [(tab8 l 4 (16 * k + 2) ≤ 3, 16 * k + 2, 1), (tab8 l 4 (16 * k + 3) ≤ 1, 16 * k + 3, 1)]
  | 5 => (List.range 4).flatMap fun k =>
      [(tab8 l 5 (12 * k) ≤ 3 || tab8 l 5 (12 * k) == 0xFF, 12 * k, 1), (tab16 l 5 (12 * k + 1) + tab8 l 5 (12 * k + 3) == 0, 12 * k + 1, 3)]
  | _ => []

/-- The staged tables with a cam.param_write applied. -/
def stageTable (c : CamSet) (b : Bytes) : List (SMap Byte) :=
  modAt c.staged (byteAt b 0) fun t => smSetRun t (u32 b 4) (b.drop 8)

/-- cam.param_write (0x0905, R303): staged; the entries it touches must be in range. -/
def opCamParamWrite : OpDef where
  code := 0x0905
  trained := true
  types := [tyCamset]
  len b := 9 ≤ b.length
  fields m s :=
    let b := m.payload
    let t := byteAt b 0
    let lo := u32 b 4
    let hi := lo + (b.length - 8)
    [within t 0 5 0, reserved b 1 3] ++ match camsetOf s m.handle with
      | none => []
      | some c => if t ≤ 5 ∧ camTableSize c.width t < hi then [(false, 4)] else
          let touched := (tableChecks (overlayAll c.tables (stageTable c b)) t).filter fun k => k.2.1 < hi && lo < k.2.1 + k.2.2
          touched.map fun k => (k.1, 8 + (k.2.1 - lo))
  body m s := okState (setCamset s m.handle fun c => { c with staged := stageTable c m.payload })

/-- cam.commit (0x0906, R287): a new exposure set for the hub; in force at once on an inactive CAMSET, else at a frame start.
A commit that waits is replaced, its table bytes kept. -/
def opCamCommit : OpDef where
  code := 0x0906
  trained := true
  types := [tyCamset]
  len b := b.length == 0
  body m s := do
    let c ← orErr (camsetOf s m.handle) (plainErr stNoHandle)
    let set := (c.expLast + 1) % 256
    let base := (c.pending.map fun p => p.exposure).getD c.exposure
    let tables := overlayAll ((c.pending.map fun p => p.tables).getD (List.replicate 6 [])) c.staged
    let p : CamCommit := ⟨set, s.time.clock, c.exposureStaged.getD base, tables⟩
    let s1 := setCamset s m.handle fun c => { c with
      expLast := set, staged := List.replicate 6 [], exposureStaged := none, pending := some p }
    let s2 := camCmd c.face 1 set p.exposure s1
    okBytes (if c.active then s2 else applyCommit (hIdx m.handle) 0 p s2) (le 1 set)

/-- Bytes per second of a face with this CAMSET: `half` halves of width × the camera line rate, rounded up (R302). -/
def camLoad (half : Nat) (c : CamSet) : Nat := ceilDiv (half * c.width * c.maxRate * 64) (2 * c.camPitch)

/-- Budgets 17 and 18 with this CAMSET active on its face (R302), in place of another there; the other face is charged for its
active CAMSET, or for the one that waits to replace it where that takes more (DEDUCED, log 149). -/
def camBudgets (s : State) (c : CamSet) (capture : Bool) : List Budget :=
  let load := fun (x : CamSet) (capture : Bool) => camLoad 4 x + if capture || !x.capturing.isEmpty then camLoad 3 x else 0
  let others := s.objs.camsets.live.filter fun e => e.2.face != c.face && (e.2.active || e.2.activate == some true)
  let demand := maxOf (others.map fun e => load e.2 false) + load c capture
  [⟨17, 5, 0, 6, 2400000000 / c.width, ceilDiv (c.maxRate * 64) c.camPitch, false⟩, ⟨18, 0, 0, 3, 9600000000, demand, false⟩]

/-- cam.activate (0x0907, R302, R304). -/
def opCamActivate : OpDef where
  code := 0x0907
  trained := true
  types := [tyCamset]
  len b := b.length == 4
  fields m _ := [within (byteAt m.payload 0) 0 1 0, reserved m.payload 1 3]
  body m s := do
    let c ← orErr (camsetOf s m.handle) (plainErr stNoHandle)
    let i := hIdx m.handle
    if byteAt m.payload 0 = 0 then
      okState (setCam s i fun c => { c with activate := if c.active then some false else none })
    else
      admitAll (camBudgets s c false)
      let clear : CamSet → CamSet := fun x => if x.face = c.face ∧ x.activate = some true then { x with activate := none } else x
      let s1 := { s with objs := { s.objs with camsets := s.objs.camsets.mapLive clear } }
      if (activeCam s c.face).isNone then okState (enterFace c.face i s1)
      else okState (setCam s1 i fun c => { c with activate := some true })

/-- The statistics block of a frame number, or the newest: NOHANDLE for one dropped or not yet written, STALE for one
overwritten. -/
def blockOf (c : CamSet) (n : Nat) : Except OpErr StatsBlock :=
  if n = 0xFFFFFFFF then orErr c.ring.getLast? (plainErr stNoHandle)
  else match c.ring.reverse.find? (fun b => b.frame == n) with
    | some b => .ok b
    | none =>
      if !c.lost.contains n ∧ c.lastBlock.any (fun l => n ≤ l) then .error (plainErr stStale) else .error (plainErr stNoHandle)

/-- cam.stats_read (0x0908, R299). -/
def opCamStatsRead : OpDef where
  code := 0x0908
  trained := true
  types := [tyCamset]
  len b := b.length == 12
  fields m _ := [within (byteAt m.payload 8) 0 1 8, reserved m.payload 9 3]
  body m s := do
    let c ← orErr (camsetOf s m.handle) (plainErr stNoHandle)
    let k ← blockOf c (u32 m.payload 0)
    let o := u32 m.payload 4
    require (o < k.bytes.length) (badArg 4)
    let free : StatsBlock → StatsBlock := fun x => if x = k then { x with released := true } else x
    let s1 := if byteAt m.payload 8 = 1 then setCamset s m.handle fun c => { c with ring := c.ring.map free } else s
    okBytes s1 ((k.bytes.drop o).take 4064)

/-- A buffer of the frame store for a new capture: one never used, else the older frame that no unreleased read holds
(R300). -/
def captureBuffer (c : CamSet) : Option Nat :=
  match [0, 1].find? (fun b => !c.captures.any (fun x => x.buffer == b) && !c.capturing.any fun x => x.buffer == b) with
  | some b => some b
  | none => (c.captures.find? fun x => !x.held && !c.capturing.any fun y => y.buffer == x.buffer).map fun x => x.buffer

/-- cam.capture (0x0909, R300, R302): ACCEPTED; its DONE follows the end of the write. STATE on an inactive CAMSET, which has no
next frame (R49). -/
def opCamCapture : OpDef where
  code := 0x0909
  trained := true
  types := [tyCamset]
  len b := b.length == 0
  body m s := do
    let c ← orErr (camsetOf s m.handle) (plainErr stNoHandle)
    require (c.active && !visionFaulty s) (plainErr stState)
    let b ← orErr (captureBuffer c) (plainErr stBusy)
    admitAll ((camBudgets s c true).drop 1)
    .ok { state := setCamset s m.handle fun c => { c with capturing := c.capturing ++ [⟨b, none, m, none⟩] }
          status := stAccepted }

/-- cam.frame_read (0x090A, R300). -/
def opCamFrameRead : OpDef where
  code := 0x090A
  trained := true
  types := [tyCamset]
  len b := b.length == 8
  fields m _ := [within (byteAt m.payload 0) 0 1 0, within (byteAt m.payload 1) 0 1 1, reserved m.payload 2 2]
  body m s := do
    let c ← orErr (camsetOf s m.handle) (plainErr stNoHandle)
    let k ← orErr (c.captures.find? fun x => x.buffer == byteAt m.payload 0) (plainErr stNoHandle)
    let o := u32 m.payload 4
    require (o < k.bytes.length) (badArg 4)
    let hold : Captured → Captured := fun x => if x.buffer = k.buffer then { x with held := byteAt m.payload 1 = 0 } else x
    okBytes (setCamset s m.handle fun c => { c with captures := c.captures.map hold }) ((k.bytes.drop o).take 4064)

/-- cam.query (0x090B). -/
def opCamQuery : OpDef where
  code := 0x090B
  trained := true
  types := [tyCamset]
  len b := b.length == 0
  body m s := do
    let c ← orErr (camsetOf s m.handle) (plainErr stNoHandle)
    okBytes s (le 1 (flag c.active) ++ le 1 c.expSet ++ zeros 2 ++ le 4 c.frame ++ le 4 c.dropped ++ le 4 c.missing ++
      le 4 c.late ++ le 4 c.skipped ++ le 4 c.mixed ++ fit 16 c.hubStatus ++ zeros 4)

def execCamCreate (m : Msg) (s : State) : Out := .next (message opCamCreate m s)
def execCamDestroy (m : Msg) (s : State) : Out := .next (message opCamDestroy m s)
def execCamSensorWrite (m : Msg) (s : State) : Out := .next (message opCamSensorWrite m s)
def execCamExposureWrite (m : Msg) (s : State) : Out := .next (message opCamExposureWrite m s)
def execCamParamWrite (m : Msg) (s : State) : Out := .next (message opCamParamWrite m s)
def execCamCommit (m : Msg) (s : State) : Out := .next (message opCamCommit m s)
def execCamActivate (m : Msg) (s : State) : Out := .next (message opCamActivate m s)
def execCamStatsRead (m : Msg) (s : State) : Out := .next (message opCamStatsRead m s)
def execCamCapture (m : Msg) (s : State) : Out := .next (message opCamCapture m s)
def execCamFrameRead (m : Msg) (s : State) : Out := .next (message opCamFrameRead m s)
def execCamQuery (m : Msg) (s : State) : Out := .next (message opCamQuery m s)

end Sys2Proof.Machine
end

