-- ==== Sys2Proof/Machine/LoopStats.lean ====
section
/-! DEFINITION. Statistics blocks (R297 to R299) and what the colour loop takes from them: prediction (R309), measurement (R311),
the frames it uses (R312), samples (R314) and measured profiles (R323). -/

namespace Sys2Proof.Machine

/-! ### Statistics (R297) -/

/-- The rounded mean of values, one of none a free value (log 40). -/
def meanOf (l : List Nat) : Nat := quot (sumOf l + l.length / 2) l.length

/-- The integer root of the population variance. -/
def sdOf (l : List Nat) : Nat :=
  if l.isEmpty then quot 1 0
  else isqrt ((l.length * sumOf (l.map fun x => x * x) - sumOf l * sumOf l) / (l.length * l.length))

/-- The least value; of none a free value. -/
def leastOf (l : List Nat) : Nat := (minOf l).getD (quot 2 0)
def greatestOf (l : List Nat) : Nat := if l.isEmpty then quot 3 0 else maxOf l

/-- The values of channel c of pixels. -/
def channelOfPixels (c : Nat) (px : List (List Nat)) : List Nat := px.map fun o => o.getD c 0

/-- A 16-bit value for each of the four channels. -/
def fourOf (f : List Nat → Nat) (px : List (List Nat)) : Bytes :=
  [0, 1, 2, 3].flatMap fun c => le 2 (f (channelOfPixels c px))

/-- The pixels of a window record of table 4 (R297), on the output lines that the window collected. -/
def windowPixels (acc : FrameAcc) (k : Nat) : List (List Nat) :=
  let o := 16 * k
  (acc.out.filter fun e => (smGet acc.wins [] e.1).contains k).flatMap
    fun e => (e.2.2.drop (tab32 acc.tables 4 (o + 4))).take (tab16 acc.tables 4 (o + 8))

/-- A window record. -/
def windowRecord (acc : FrameAcc) (k : Nat) : Bytes :=
  let px := windowPixels acc k
  le 2 (tab16 acc.tables 4 (16 * k)) ++ zeros 2 ++ le 4 px.length ++ fourOf meanOf px ++ fourOf sdOf px ++ fourOf leastOf px ++
    fourOf greatestOf px ++ zeros 8

/-- The pixels of a column bin over the frame. -/
def binPixels (cam : CamSet) (acc : FrameAcc) (k : Nat) : List (List Nat) :=
  acc.out.flatMap fun e => (e.2.2.drop (k * 2 ^ cam.binLog2)).take (2 ^ cam.binLog2)

/-- Column bins of a CAMSET. -/
def binCount (cam : CamSet) : Nat := cam.width / 2 / 2 ^ cam.binLog2

/-- Windows enabled. -/
def enabledWindows (acc : FrameAcc) : List Nat := (List.range 64).filter fun k => tab8 acc.tables 4 (16 * k + 3) % 2 == 1

/-- The statistics block of a frame (R297). -/
def statsBytes (s : State) (cam : CamSet) (acc : FrameAcc) : Bytes :=
  let wins := enabledWindows acc
  let cols := binCount cam
  let total := 64 + 48 * wins.length + 16 * cols
  let t := acc.time.getD 0
  leB 4 (camHandle s acc.camset) ++ le 1 cam.face ++ le 1 acc.expSet ++ le 2 acc.flags ++ le 4 acc.frame ++ le 2 acc.out.length ++
    le 2 acc.missing ++ leS 6 (imagedLine cam acc.posFirst) ++ leS 6 (imagedLine cam acc.posLast) ++ le 4 (t % 1000000000) ++
    le 6 (t / 1000000000) ++ le 2 wins.length ++ le 4 cols ++ le 1 cam.binLog2 ++ zeros 3 ++ le 4 total ++ zeros 12 ++
    (wins.flatMap (windowRecord acc)) ++
    (List.range cols).flatMap fun k => let px := binPixels cam acc k; fourOf meanOf px ++ fourOf sdOf px

/-! ### Prediction and measurement -/

/-- The channel of a CALSET, and its run. -/
def calChannel (s : State) (q : CalSet) : Option (Channel × Run) :=
  match channelOf s q.channel with
  | none => none
  | some c => (runOf s c.run).map fun r => (c, r)

/-- First bin of a channel's span, and their number (R305). -/
def binSpan (c : Channel) : Nat × Nat := (c.dotStart / 8, c.dotWidth / 8)

/-- Mean demand of a bar over device lines a to z in a bar bin (R309). -/
def demandMean (run : BitVec 32) (bar : Bar) (a z j : Nat) : Nat :=
  let acc := sumOf ((bar.strips.filter fun e => e.run == run).map fun e =>
    let lo := max a e.line
    let hi := min z (e.line + 127)
    if lo ≤ hi then smGet e.sums 0 j * (hi + 1 - lo) else 0)
  acc / (1024 * (z + 1 - a))

/-- Bars of the lane whose channels cover a bar bin. -/
def coveringBars (s : State) (r : Run) (j : Nat) : List Nat :=
  ((runChannels s r).filter fun e => e.2.dotStart ≤ 8 * j && 8 * j + 8 ≤ e.2.dotStart + e.2.dotWidth).map fun e => e.2.bar

/-- ⌊4,096 × log₂(target / max(m, 1))⌋, clamped to 16 bits, read from a ROM exact to ±1 (R311; log 41). -/
def density (target m : Nat) : Nat :=
  let m := max m 1
  let exact := if target ≤ m then 0 else Nat.log2 (target ^ 4096 / m ^ 4096)
  clampNat 0 65535 (exact + (Config.densityError target m).toNat % 3 - 1)

/-- The measured mean of a bar bin (R311): camera bins weighted by the dots they share; none where none covers it. -/
def measuredMean (q : CalSet) (cam : CamSet) (acc : FrameAcc) (j : Nat) : Option Nat :=
  let lo : Int := 8 * j * 65536
  let hi : Int := (8 * j + 8) * 65536
  let parts := (List.range (binCount cam)).filterMap fun k =>
    let d := calDots q k (2 ^ cam.binLog2)
    let share := (min hi d.2 - max lo d.1).toNat
    if share = 0 then none else some (share, meanOf (channelOfPixels q.channelC (binPixels cam acc k)))
  if parts.isEmpty then none else some (sumOf (parts.map fun p => p.1 * p.2) / sumOf (parts.map (·.1)))

/-- The device lines of a run that a frame images, first and last (R309). -/
def frameSpan (cam : CamSet) (acc : FrameAcc) (r : Run) : Int × Int :=
  (imagedLine cam acc.posFirst * 16 / (qOf r.pitch : Int), imagedLine cam acc.posLast * 16 / (qOf r.pitch : Int))

/-- The five conditions on a frame (R312), and the start of the window (R318). -/
def frameUsed (s : State) (q : CalSet) (r : Run) (cam : CamSet) (acc : FrameAcc) : Bool :=
  let (a, z) := frameSpan cam acc r
  let printed := r.state == .printing || (r.state == .stopping && r.leftAt.any fun l => z ≤ (l : Int))
  acc.flags &&& 0x13 == 0 && q.camShape == some (cam.width, cam.binLog2) && printed && 0 ≤ a &&
    r.firstLine ≤ a.toNat && runPrints r z.toNat && q.fromLine ≤ a.toNat &&
    !((runBars s r).any fun b => (barAt s b).disturbed.any fun l => a ≤ (l : Int) && (l : Int) ≤ z) &&
    (faceAt s cam.face).expAt.all fun f => f + q.params.ffSettle ≤ acc.serial

/-- The sample of a bar bin (R314): own demand, and density less what the other bars explain. -/
def sampleOf (s : State) (q : CalSet) (c : Channel) (r : Run) (cam : CamSet) (acc : FrameAcc) (a z j : Nat) :
    Option (Nat × Nat × Int) :=
  match measuredMean q cam acc j with
  | none => none
  | some m =>
    let others := (coveringBars s r j).filter fun b => b != c.bar
    let explained := sumInt (others.map fun b => q.ink.getD b 0 * (demandMean c.run (barAt s b) a z j : Int) / 4096)
    some (j, demandMean c.run (barAt s c.bar) a z j, (density (tab16 acc.tables 3 6) m : Int) - explained)

/-! ### Measured profiles (R323, R325) -/

/-- The dots of a slot outside stitch zones, lowest and highest. -/
def headDots (t : BarTable) (e : SlotRec) : Option (Nat × Nat) :=
  let l := ((slotNozzleList e).map (·.1)).filter fun x => match (dotMap t x).zone with
    | .stitch _ _ => false
    | _ => true
  (minOf l).map fun lo => (lo, maxOf l)

/-- Dot ranges whose profiles a registration window keeps: the whole window (0) and each head's dots in it (slot + 1). -/
def profileRanges (t : Option BarTable) (w : RegWindow) : List (Nat × Nat × Nat) :=
  let whole := (0, w.dotFirst, w.dotFirst + w.dotCount)
  match t with
  | none => [whole]
  | some t => whole :: (presentSlots t).filterMap fun e => (headDots t e.2).bind fun d =>
      let lo := max d.1 w.dotFirst
      let hi := min (d.2 + 1) (w.dotFirst + w.dotCount)
      if lo < hi then some (e.1 + 1, lo, hi) else none

/-- The entries of one output line for the registration windows of a CALSET (R323): the density of the mean over the columns that
lie in a range. -/
def profileLine (s : State) (q : CalSet) (c : Channel) (r : Run) (cam : CamSet) (acc : FrameAcc)
    (e : Nat × Nat × List (List Nat)) : List (Nat × Nat × Nat) :=
  let w64 := imaged64 cam e.2.1
  if w64 < 0 then [] else
  let y := (w64 * 16 / (64 * qOf r.pitch : Nat)).toNat
  let yr := (repeatOf r y).2
  (q.regWindows.zipIdx.filter fun w => w.1.enable && w.1.linePhase ≤ yr && yr < w.1.linePhase + w.1.lineCount).flatMap fun w =>
    (profileRanges (barAt s c.bar).table w.1).filterMap fun g =>
      let px := (e.2.2.zipIdx.filter fun p =>
        let d := calDots q p.2 1
        ((g.2.1 * 65536 : Nat) : Int) ≤ d.1 && d.2 ≤ ((g.2.2 * 65536 : Nat) : Int)).map fun p => p.1
      if px.isEmpty then none
      else some (w.2 * 33 + g.1, w64.toNat, density (tab16 acc.tables 3 6) (meanOf (channelOfPixels q.channelC px)))

/-- A CALSET takes a frame (R312, R314, R323): its shape is recorded at the first frame after attach. -/
def feedCal (s : State) (cam : CamSet) (acc : FrameAcc) (q0 : CalSet) : CalSet :=
  if q0.mode = .detached ∨ q0.face ≠ cam.face then q0 else
  let q := { q0 with camShape := some (q0.camShape.getD (cam.width, cam.binLog2)) }
  match calChannel s q with
  | none => q
  | some (c, r) =>
    if !frameUsed s q r cam acc ∨ q.params.winFrames ≤ q.frames then q
    else
      let (a, z) := frameSpan cam acc r
      let bins := (List.range (binSpan c).2).filterMap fun i =>
        sampleOf s q c r cam acc a.toNat z.toNat ((binSpan c).1 + i)
      { q with
        samples := q.samples ++ [(acc.frame, bins)], frames := q.frames + 1
        regProfile := if q.registration then q.regProfile ++ acc.out.flatMap (profileLine s q c r cam acc) else q.regProfile }

/-- A ring entry is free (R299): one never used, or the oldest, consumed and, with host-hold, released. -/
def entryFree (c : CamSet) : Bool :=
  c.ring.length < c.depth || (match c.ring.head? with | none => false | some b => b.consumed && (!c.hostHold || b.released))

/-- FRAME_STATS (R297 to R299, R312, R314): the block of the oldest ended frame of a face whose CAMSET's ring has a free entry is written
to it and the colour loop consumes it. -/
def execFrameStats (face : Fin 2) (s : State) : Out :=
  .next (
    let k := face.val
    match (faceAt s k).frames.find? (fun a => a.ended && (s.objs.camsets.at? a.camset).all entryFree) with
    | none => s
    | some acc => match s.objs.camsets.at? acc.camset with
      | none => setFace s k fun f => { f with frames := f.frames.erase acc }
      | some cam =>
        if visionFaulty s then s else
        let block : StatsBlock :=
          { frame := acc.frame, bytes := statsBytes s cam acc, flags := acc.flags, consumed := true, released := false }
        let s1 := setFace s k fun f => { f with frames := f.frames.erase acc }
        let s2 := setCam s1 acc.camset fun c => { c with
          ring := (if c.ring.length < c.depth then c.ring else c.ring.drop 1) ++ [block], lastBlock := some acc.frame }
        let s3 := { s2 with objs := { s2.objs with calsets := s2.objs.calsets.mapLive (feedCal s cam acc) } }
        if cam.statsEvt then
          fieldEventAt 0x0901 (camHandle s acc.camset) (some (imagedLine cam acc.posFirst).toNat)
            (le 4 acc.frame ++ le 2 acc.flags ++ le 1 acc.expSet) s3
        else s3)

end Sys2Proof.Machine
end

