-- ==== Sys2Proof/Machine/Loop.lean ====
section
/-! DEFINITION. The colour loop (10): estimation (R314, R315), the update (R316), gains (R317), commits (R318, R319), registration
and stitch estimates (R323 to R325), and recalculation (R326, R327). -/

namespace Sys2Proof.Machine

/-- The CALSET of a slot changed. -/
def setCal (s : State) (slot : Nat) (f : CalSet → CalSet) : State :=
  { s with objs := { s.objs with calsets := s.objs.calsets.update slot f } }

/-- The handle of the CALSET of a slot. -/
def calHandle (s : State) (slot : Nat) : BitVec 32 := s.objs.calsets.handle tyCalset slot

/-- Entries of the learned tables, by the span's bin or the bar's nozzle index (R336). -/
def refOf (q : CalSet) (i : Nat) : Nat := smGet q.ref 0 i
def gOf (q : CalSet) (i : Nat) : Nat := smGet q.g 0x8000 i
def baseOf (q : CalSet) (n : Nat) : Nat := smGet q.base 0x8000 n

/-- The calibration count and time of a CALSET (R335). -/
def countCal (s : State) (q : CalSet) : CalSet := { q with calCount := (q.calCount + 1) % 2 ^ 32, calTime := s.time.field }

/-! ### Gains (R317) -/

/-- g_x of a bar dot (R317); bins outside the span take the nearest of the span. -/
def gainFactor (q : CalSet) (span : Nat × Nat) (x : Nat) : Nat :=
  let a : Int := 2 * (x : Int) - 7
  let j0 := a / 16
  let f := (a % 16).toNat
  let at_ := fun (j : Int) => gOf q (clampInt 0 ((span.2 : Int) - 1) (j - span.1)).toNat
  (at_ j0 * (16 - f) + at_ (j0 + 1) * f + 8) / 16

/-- The gain of a nozzle (R317). -/
def loopGain (q : CalSet) (span : Nat × Nat) (n x : Nat) : Nat :=
  clampNat 1 0xFFFF ((baseOf q n * gainFactor q span x + 0x4000) / 2 ^ 15)

/-- The nozzles of a channel's span with their dots. -/
def spanNozzles (s : State) (c : Channel) : List (Nat × Nat) :=
  match (barAt s c.bar).table with
  | none => []
  | some t => (presentSlots t).flatMap fun e => ((slotNozzleList e.2).filter fun k =>
      c.dotStart ≤ k.1 && k.1 < c.dotStart + c.dotWidth).map fun k => (k.2.1, k.1)

/-- Gains of the span's nozzles staged as owner 1 (R318, R326): all of them, or those whose g_x the bins named move. -/
def stageGains (q : CalSet) (c : Channel) (bins : Option (List Nat)) (s : State) : State :=
  let span := binSpan c
  let moved := fun (x : Nat) => match bins with
    | none => true
    | some l =>
      let j0 := (2 * (x : Int) - 7) / 16
      let rel := fun (j : Int) => (clampInt 0 ((span.2 : Int) - 1) (j - span.1)).toNat
      l.contains (rel j0) || l.contains (rel (j0 + 1))
  stageNozzles c.bar 1 (((spanNozzles s c).filter fun n => moved n.2).map fun n =>
    (n.1, ⟨0xFFFF, BitVec.ofNat 32 (loopGain q span n.1 n.2)⟩)) s

/-! ### Estimation -/

/-- The observations of a bin in the window: x and y. -/
def binSamples (q : CalSet) (bin : Nat) : List (Nat × Int) :=
  q.samples.filterMap fun f => (f.2.find? fun e => e.1 == bin).map fun e => e.2

/-- e(j), c(j) and observability of a bin (R314, R315): `own` is w of the channel's bar. -/
def estimate (q : CalSet) (own : Int) (bin : Nat) : BinStat :=
  let l := binSamples q bin
  let n := l.length
  let sx := sumOf (l.map fun e => e.1)
  let sy := sumInt (l.map fun e => e.2)
  let num : Int := n * sumInt (l.map fun e => (e.1 : Int) * e.2) - (sx : Int) * sy
  let den : Int := n * (sumOf (l.map fun e => e.1 * e.1) : Nat) - (sx : Int) * sx
  let e : Int := if den = 0 ∨ own = 0 then 0 else num * 16777216 / (den * own)
  let var := if n = 0 then 0 else den.toNat / (n * n)
  let p := q.params
  let obs := n ≠ 0 && p.obsN ≤ n && p.obsCov ≤ sx / n && p.obsVar ≤ var && 0 < e && !q.excluded.contains bin
  let c1 := min 256 (quot (64 * var) p.obsVar)
  let c2 := min 256 (256 * n / max 1 p.winFrames)
  { e := e.toNat, c := c1 * c2 / 256, observable := obs, patched := q.patching.contains bin, atLimit := false, n := n }

/-- g after an update (R316), with the step taken. -/
def updateG (p : CalParams) (g ref : Nat) (k : BinStat) : Nat × Int :=
  let r : Int := (ref * 2 ^ 15 / k.e : Nat)
  let step := clampInt (-(p.maxStep : Int)) p.maxStep ((r - 0x8000) * (p.lambda * k.c : Nat) / 65536)
  ((clampInt p.gMin p.gMax ((g : Int) + (g : Int) * step / 32768)).toNat, step)

/-- A CALSET commits nothing and recalculates nothing: vision hold (R334), thermal pause (R333). -/
def calPaused (q : CalSet) : Bool := q.visionHold || q.thermalPause

/-- The update of every observable bin with a reference, at the end of a window in CORRECT (R316). -/
def updateBins (q : CalSet) : CalSet :=
  if q.mode ≠ .correct then q else
  q.bins.foldl (fun q e =>
    let ref := refOf q e.1
    if e.2.observable ∧ ref ≠ 0 then
      let (g, step) := updateG q.params (gOf q e.1) ref e.2
      let limit := g == q.params.gMin || g == q.params.gMax
      { q with
        g := smSet q.g e.1 g
        bins := smSet q.bins e.1 { e.2 with atLimit := limit }
        changed := if g = gOf q e.1 ∨ q.changed.contains e.1 then q.changed else e.1 :: q.changed
        largestStep := max q.largestStep step.natAbs }
    else q) q

/-- Bins marked for patching (R321): bar bins. -/
def markPatches (first : Nat) (q : CalSet) : CalSet :=
  if q.mode ≠ .correct ∨ !q.patches then { q with patching := [] } else
  q.bins.foldl (fun q e =>
    if refOf q e.1 = 0 then q
    else if e.2.observable then { q with unseen := smDel q.unseen e.1, patching := q.patching.filter fun b => b != first + e.1 }
    else
      let n := smGet q.unseen 0 e.1 + 1
      { q with
        unseen := smSet q.unseen e.1 n
        patching := if q.params.patchAfter ≤ n ∧ !q.patching.contains (first + e.1) then (first + e.1) :: q.patching else q.patching }) q

/-! ### Registration and stitch estimates -/

/-- Pairs of measured density and predicted demand at one shift, in 1/16 web line (R323). -/
def shiftPairs (q : CalSet) (slot : Nat) (run : BitVec 32) (bar : Bar) (pitch head : Nat) (shift : Int) : List (Int × Int) :=
  q.regProfile.filterMap fun e =>
    if e.1 % 33 ≠ head then none else
    let y := ((e.2.1 : Int) - 4 * shift) * 16 / (64 * qOf pitch : Nat)
    let t : Nat := match bar.profile.find? (fun l => l.run == run && (l.line : Int) == y) with
      | none => 0
      | some l => smGet l.sums 0 (profileKey slot (e.1 / 33) head)
    some (Int.ofNat e.2.2, Int.ofNat t)

/-- The normalised correlation at one shift. -/
def shiftCorr (q : CalSet) (slot : Nat) (run : BitVec 32) (bar : Bar) (pitch head : Nat) (shift : Int) : Int :=
  let l := shiftPairs q slot run bar pitch head shift
  if l.isEmpty then -4096 else Config.ncc (l.map (·.1)) (l.map (·.2))

/-- A peak at k refined by the parabola through its neighbours, in 1/256 of a shift (R323; the width of the fraction is a
DESIGN CHOICE, log 150). -/
def refinePeak (corr : Int → Int) (n : Nat) (k : Int) : Int :=
  let a := corr (k - 1)
  let c := corr (k + 1)
  let bend := a - 2 * corr k + c
  256 * k + if k.natAbs < n ∧ bend < 0 then 128 * (a - c) / bend else 0

/-- The shift of the largest correlation within reg_search, the nearest to 0 among equals, in 1/256 sixteenth, and that
correlation (R323). -/
def bestReg (q : CalSet) (slot : Nat) (run : BitVec 32) (bar : Bar) (pitch head : Nat) : Int × Int :=
  let n := q.params.regSearch
  let corr := shiftCorr q slot run bar pitch head
  let all : List Int := (List.range (2 * n + 1)).map fun (k : Nat) => (k : Int) - n
  let best := (sortBy (fun k => k.natAbs) all).foldl (fun (best : Int × Int) k =>
    if best.2 < corr k then (k, corr k) else best) (0, -4096)
  (refinePeak corr n best.1, best.2)

/-- A shift in whole sixteenths. -/
def wholeShift (fine : Int) : Int := (fine + 128) / 256

/-- The shift of the CALSET of a bar in the lane in the window of these frames, if valid (R324). -/
def refShift (s : State) (r : Run) (bar face : Nat) (window : Option (Nat × Nat)) : Option Int :=
  (runChannels s r).findSome? fun e =>
    if e.2.bar ≠ bar then none else
    match calsetOf s e.2.calset with
    | some q => if q.registration ∧ q.regValid ∧ q.face = face ∧ q.regWindow = window then some q.regFine else none
    | none => none

/-- The registration correction of a bar moved, once for a window (R324); REG_ESTIMATE when it changes. -/
def moveReg (slot : Nat) (q : CalSet) (c : Channel) (r : Run) (s : State) : State :=
  if q.mode ≠ .correct ∨ !q.regValid ∨ q.regUsed ∨ q.params.regRef = c.bar ∨ q.visionHold then s else
  match refShift s r q.params.regRef q.face q.regWindow with
  | none => s
  | some ref =>
    let d := clampInt (-(q.params.regStep : Int)) q.params.regStep (-(wholeShift (q.regFine - ref)))
    let s1 := setCal s slot fun q => { q with regUsed := true }
    if d = 0 then s1 else
    let corr := (barAt s c.bar).regCorr + d
    fieldEvent 0x0A05 (calHandle s slot) (leS 2 (wholeShift q.regFine) ++ leS 2 corr ++ leS 2 q.regPeak)
      (setBar s1 c.bar fun bar => { bar with regCorr := corr })

/-- The corrections that the end of a window in a lane makes possible: every bar's whose estimate and the reference's are of
the same window (R324). -/
def moveLane (r : Run) (s : State) : State :=
  (runChannels s r).foldl (fun s e => match calsetOf s e.2.calset with
    | some q => moveReg (hIdx e.2.calset) q e.2 r s
    | none => s) s

/-- Bins of an overlap of the bar's table that lie in the span, relative to it. -/
def overlapBins (t : BarTable) (span : Nat × Nat) (o : Nat) : List Nat :=
  (((List.range t.width).filter fun x => match (dotMap t x).zone with
    | .stitch k _ => k == o
    | _ => false).map fun x => x / 8).eraseDups.filterMap fun j => if span.1 ≤ j ∧ j < span.1 + span.2 then some (j - span.1) else none

/-- The mean of g over bins, rounded down. -/
def meanG (q : CalSet) (l : List Nat) : Nat := quot (sumOf (l.map (gOf q))) l.length

/-- The band factor of an overlap (R325): 1.0 where the span holds none of it. -/
def bandFactor (q : CalSet) (t : BarTable) (span : Nat × Nat) (o : Nat) : Nat :=
  let inner := overlapBins t span o
  match minOf inner with
  | none => 0x8000
  | some lo =>
    let hi := maxOf inner
    let sides := ((List.range 4).map fun (i : Nat) => (lo : Int) - 1 - i) ++ (List.range 4).map fun (i : Nat) => (hi : Int) + 1 + i
    let near := (sides.filter fun j => 0 ≤ j && j < (span.2 : Int)).map Int.toNat
    quot (meanG q inner * 2 ^ 15) (meanG q near) % 2 ^ 16

/-- Head offsets found in a window, relative to the bar's shift (R325): signed sixteenths by slot. -/
def headShift (q : CalSet) (slot : Nat) (run : BitVec 32) (bar : Bar) (pitch h : Nat) : Option Int :=
  let e := bestReg q slot run bar pitch (h + 1)
  if (q.params.regMinCorr : Int) ≤ e.2 then some (wholeShift (e.1 - q.regFine)) else none

/-- The registration and stitch estimates at the end of a window (R323 to R325). -/
def registrationEnd (slot : Nat) (q0 : CalSet) (c : Channel) (r : Run) (s : State) : State :=
  if !q0.registration then s else
  let bar := barAt s c.bar
  let e := bestReg q0 slot c.run bar r.pitch 0
  let frames := q0.samples.map (·.1)
  let q := { q0 with
    regFine := e.1, regPeak := e.2, regValid := (q0.params.regMinCorr : Int) ≤ e.2, regUsed := false
    regWindow := some (frames.headD 0, frames.getLast?.getD 0) }
  match bar.table with
  | none => setCal s slot fun _ => q
  | some t =>
    let found : List (Nat × Int) := if !q.regValid then [] else
      (presentSlots t).filterMap fun e => (headShift q slot c.run bar r.pitch e.1).map fun d => (e.1, d)
    let q' := { q with
      headOffsets := found.foldl (fun l e => setAt l e.1 e.2) q.headOffsets
      bandFactors := (List.range 31).map (bandFactor q t (binSpan c)) }
    let s1 := (found.filter fun e => 8 < e.2.natAbs).foldl (fun s e =>
      fieldEvent 0x0A06 (calHandle s slot) (le 1 c.bar ++ le 1 e.1 ++ leS 2 e.2) s) (setCal s slot fun _ => q')
    moveLane r s1

/-! ### The end of a window -/

/-- Marked bins that no patch-capable window of the run covers (R322), relative to the span. -/
def unpatchable (s : State) (q : CalSet) (r : Run) (first : Nat) : List Nat :=
  (q.patching.filter fun b => !((windowList r (repeatOf r (runPos s r.pitch)).1).any fun w => w.patch && w.dotFirst ≤ 8 * b && 8 * b + 8 ≤ w.dotFirst + w.dotCount)).map
    fun b => b - first

/-- Tables 0 to 2 written, and references written in CORRECT, take effect at a window start (R336). -/
def takeTables (q : CalSet) : CalSet :=
  let q1 := { q with ref := q.newRefs.getD q.ref, newRefs := none }
  match q.newTables with
  | some (p, ink, w) => { q1 with params := p, ink := ink, regWindows := w, newTables := none }
  | none => q1

/-- A window starts afresh. -/
def newWindow (q : CalSet) : CalSet := takeTables { q with samples := [], frames := 0, excluded := [], regProfile := [] }

/-- The reference captured at the end of a window in HOLDING (R320). -/
def captureRef (s : State) (q : CalSet) : CalSet :=
  let l := q.bins.filter fun e => e.2.observable
  if q.mode ≠ .holding ∨ l.isEmpty then q
  else countCal s { q with ref := l.foldl (fun t e => smSet t e.1 e.2.e) q.ref, mode := .correct }

/-- What the end of a window tells of the bins (R316, R321, R322). -/
def tellBins (slot first : Nat) (q : CalSet) (r : Run) (s : State) : State :=
  let atLimit := (q.bins.filter fun e => e.2.atLimit).map (·.1)
  let s1 := if atLimit.isEmpty then s else
    fieldEvent 0x0A04 (calHandle s slot) (le 4 (atLimit.headD 0) ++ le 4 atLimit.length) s
  let blind := sortBy (fun b : Nat => (b : Int)) (unpatchable s q r first)
  if blind.isEmpty then s1
  else fieldEvent 0x0A03 (calHandle s slot) (le 4 (blind.headD 0) ++ le 4 blind.length) s1

/-- LOOP_WINDOW_END (R313 to R316, R320 to R325). -/
def execLoopWindowEnd (calset : Fin 64) (s : State) : Out :=
  .next (
    let slot := calset.val
    match s.objs.calsets.at? slot with
    | none => s
    | some q => match calChannel s q with
      | none => s
      | some (c, r) =>
        if q.mode = .detached ∨ q.frames < q.params.winFrames then s else
        let (first, count) := binSpan c
        let bins := (List.range count).map fun i => (i, estimate q (q.ink.getD c.bar 0) (first + i))
        let q1 := markPatches first (updateBins (captureRef s { q with bins := bins, windowsDone := q.windowsDone + 1 }))
        let s1 := tellBins slot first q1 r (setCal s slot fun _ => q1)
        let s2 := registrationEnd slot q1 c r s1
        let s3 := setCal s2 slot newWindow
        if q.mode = .holding ∧ q1.mode = .correct then loopState slot 1 s3 else s3)

/-! ### Commits -/

/-- A loop commit took its line (none: in force at once): LOOP_COMMIT where the CALSET asks for it, and its counts (R318, R335). -/
def reportLoop (slot : Nat) (line : Option Nat) (s : State) : State :=
  match s.objs.calsets.at? slot with
  | none => s
  | some q =>
    let s1 := setCal s slot fun q =>
      countCal s { q with changed := [], largestStep := 0, fromLine := line.getD q.fromLine, samples := [], frames := 0, excluded := [], regProfile := [] }
    if q.params.commitEvents then
      fieldEventAt 0x0A02 (calHandle s slot) line (le 4 q.changed.length ++ le 2 q.largestStep) s1
    else s1

/-- LOOP_COMMIT (R318, R319): the gains that a window changed staged and committed as owner 1. -/
def execLoopCommit (calset : Fin 64) (s : State) : Out :=
  .next (
    let slot := calset.val
    match s.objs.calsets.at? slot with
    | none => s
    | some q => match calChannel s q with
      | none => s
      | some (c, _) =>
        if q.mode ≠ .correct ∨ q.changed.isEmpty ∨ calPaused q then s else
        let r := ownerCommit c.bar 0 1 (stageGains q c (some q.changed) s)
        if (barAt r.1 c.bar).heldOwners.contains 1 then r.1 else reportLoop slot r.2 r.1)

/-- GATE_MAP once for each kind of change that a gate commit carries, with the nozzles of all of it (R331, R332). -/
def reportGate (b : Nat) (line : Option Nat) (s : State) : State :=
  let due := (barAt s b).gate.mapDue
  let l := ([0, 1, 2].map fun k => (k, sumOf ((due.filter fun e => e.1 == k).map (·.2)))).filter fun e => e.2 != 0
  l.foldl (fun s e => fieldEventAt 0x0A07 0 line (le 1 b ++ le 1 e.1 ++ zeros 2 ++ le 4 e.2) s)
    (setBar s b fun bar => { bar with gate := { bar.gate with mapDue := [] } })

/-- A commit of owner 2, with its report unless it is held (R319, R331). -/
def gateCommit (b : Nat) (s : State) : State :=
  let r := ownerCommit b 0 2 s
  if (barAt r.1 b).heldOwners.contains 2 then r.1 else reportGate b r.2 r.1

/-- The CALSETs that serve channels of a bar, by slot. -/
def calsOn (s : State) (b : Nat) : List Nat :=
  (s.objs.calsets.live.filter fun e => (channelOf s e.2.channel).any fun c => c.bar == b).map (·.1)

/-- HELD_COMMIT (R319): the commit of an owner held until an armed switch had taken effect. -/
def execHeldCommit (bar : Fin 8) (gate : Bool) (s : State) : Out :=
  .next (
    let b := bar.val
    let owner := if gate then 2 else 1
    if !(barAt s b).heldOwners.contains owner ∨ (barActive s b ∧ (planLine s b 0 [3] none).isNone) then s else
    let r := ownerCommit b 0 owner s
    if (barAt r.1 b).heldOwners.contains owner then r.1
    else if gate then reportGate b r.2 r.1
    else (calsOn s b).foldl (fun s slot =>
      if (s.objs.calsets.at? slot).any fun q => !q.changed.isEmpty then reportLoop slot r.2 s else s) r.1)

/-! ### Recalculation (R326, R327) -/

/-- A recalculation ends: its message is done; a release hands ownership back, and its registration correction is gone. -/
def endRecalc (slot status : Nat) (s : State) : State :=
  match s.objs.calsets.at? slot with
  | none => s
  | some q => match q.recalc with
    | none => s
    | some (reverting, msg, _, _) =>
      let bar := ((channelOf s q.channel).map fun c => c.bar).getD 8
      let s1 := setCal s slot fun q =>
        let q1 := { q with recalc := none, mode := if reverting && status == stOk then .observe else q.mode }
        if status = stOk then countCal s q1 else q1
      let s2 := if reverting ∧ status = stOk then loopState slot 0 (setBar s1 bar fun b => { b with regCorr := 0 }) else s1
      match msg with
      | some (op, m) => finishFlight op m status s2
      | none => s2

/-- Every gain of the span computed and committed as owner 1 (R317, R326): with every g taken as 1.0 where it reverts. -/
def recompute (q : CalSet) (c : Channel) (reverting : Bool) (s : State) : State :=
  (ownerCommit c.bar 0 1 (stageGains (if reverting then { q with g := [] } else q) c none s)).1

/-- A recalculation starts (R326): at once where the bar prints nothing, on the spare where one is ready
and no other recalculation waits for it, else by the FS. The Bool: it has ended already. -/
def startRecalc (slot : Nat) (reverting : Bool) (op : Nat) (m : Msg) (s : State) : State × Bool :=
  match s.objs.calsets.at? slot with
  | none => (s, true)
  | some q => match channelOf s q.channel with
    | none => (s, true)
    | some c =>
      let printing := s.objs.runs.live.any fun e => e.2.state == .printing && runOn s c.bar e.2
      let begin := fun (stage : Nat) (loaned : Bool) =>
        setCal s slot fun q => { q with recalc := some (reverting, some (op, m), stage, loaned) }
      if !printing then
        let s1 := recompute q c reverting (setCal s slot fun q => { q with recalc := some (reverting, none, 2, false) })
        (endRecalc slot stOk s1, true)
      else match (spareReady s).filter fun _ => !loanPending s with
        | some x => (setBench (begin 0 true) x fun e => { e with role := .loading c.bar, matched := 0 }, false)
        | none => (begin 1 false, false)

/-- The bench on loan to a bar. -/
def loanedTo (s : State) (b : Nat) : Option Nat := s.bench.bench.findIdx? fun e => e.role == .loaned b

/-- RECALCULATION_DONE (R326): the next step of a recalculation that is due. -/
def execRecalculationDone (calset : Fin 64) (s : State) : Out :=
  .next (
    let slot := calset.val
    match s.objs.calsets.at? slot with
    | none => s
    | some q => match q.recalc, channelOf s q.channel with
      | some (rev, msg, 1, loaned), some c =>
        let s1 := recompute q c rev s
        if loaned then setCal s1 slot fun q => { q with recalc := some (rev, msg, 2, true) } else endRecalc slot stOk s1
      | some (_, _, 2, true), some c =>
        match loanedTo s c.bar with
        | none => s
        | some x =>
          let switched := (barAt s c.bar).nozzles.armed.isEmpty && !(barAt s c.bar).heldOwners.contains 1
          if switched ∧ (1024 ≤ (benchAt s x).matched ∨ !barActive s c.bar) then
            let s1 := setBench s x fun e => { e with role := .loading s.bench.rotBar, matched := 0 }
            endRecalc slot stOk (benchRotated c.bar x ((workingOn s c.bar).getD 0xFF) 3 (benchAt s x).matched s1)
          else s
      | some _, none => endRecalc slot stNoHandle s
      | _, _ => s)

/-- The CALSET whose recalculation uses the spare, or waits for it. -/
def spareCal (s : State) : Option (Nat × CalSet) :=
  s.objs.calsets.live.find? fun e => match e.2.recalc with
    | some (_, _, _, true) => true
    | _ => false

/-- RECALC_SPARE_FAIL (R327): the spare on loan, or wanted for it, has failed: the freed bench takes the bar back. -/
def execRecalcSpareFail (s : State) : Out :=
  .next (match spareCal s with
    | none => s
    | some (slot, q) => match channelOf s q.channel with
      | none => s
      | some c =>
        if s.bench.bench.any fun e => e.role == .loaned c.bar || e.role == .loading c.bar then s
        else
          let stage := (q.recalc.map fun r => r.2.2.1).getD 0
          let failed := (s.bench.bench.findIdx? fun e => e.role == .testing true || e.role == .removed).getD 0xFF
          let s1 := if stage = 0 then s else benchRotated c.bar failed ((workingOn s c.bar).getD 0xFF) 1 0 s
          endRecalc slot stInternal s1)

end Sys2Proof.Machine
end

