-- ==== Sys2Proof/Machine/Calibration.lean ====
section
/-! DEFINITION. Calibration messages (10: R305 to R307, R320, R333, R335 to R340): the cal and loop families but for the gates. -/

namespace Sys2Proof.Machine

/-! ### Tables as bytes (R335) -/

/-- Table 0 as its 48 bytes. -/
def CalParams.bytes (p : CalParams) : Bytes :=
  le 2 p.winFrames ++ le 1 p.lambda ++ le 1 (flag p.commitEvents) ++ le 2 p.maxStep ++ le 2 p.gMin ++ le 2 p.gMax ++ le 2 p.obsN ++
    le 4 p.obsVar ++ le 2 p.obsCov ++ le 2 p.patchAfter ++ le 2 p.patchLines ++ (p.tint.flatMap (le 2)) ++ le 2 p.regSearch ++
    le 2 p.regMinCorr ++ le 1 p.regStep ++ le 1 p.regRef ++ le 2 p.ffSettle ++ zeros 10

/-- The parameter block that 48 bytes hold. -/
def calParamsOf (b : Bytes) : CalParams :=
  { winFrames := u16 b 0, lambda := byteAt b 2, commitEvents := bit (byteAt b 3) 0, maxStep := u16 b 4, gMin := u16 b 6
    gMax := u16 b 8, obsN := u16 b 10, obsVar := u32 b 12, obsCov := u16 b 16, patchAfter := u16 b 18, patchLines := u16 b 20
    tint := (List.range 4).map fun i => u16 b (22 + 2 * i), regSearch := u16 b 30, regMinCorr := u16 b 32
    regStep := byteAt b 34, regRef := byteAt b 35, ffSettle := u16 b 36 }

/-- Conditions on the parameter block by offset and length (R335). -/
def calParamChecks (b : Bytes) : List (Bool × Nat × Nat) :=
  [(2 ≤ u16 b 0 && u16 b 0 ≤ 256, 0, 2), (1 ≤ byteAt b 2, 2, 1), (byteAt b 3 ≤ 1, 3, 1),
    (2 ≤ u16 b 10 && u16 b 10 ≤ u16 b 0, 10, 2), (u16 b 10 ≤ u16 b 0, 0, 2), (u16 b 16 ≤ 4095, 16, 2), (8 ≤ u16 b 20 && u16 b 20 ≤ 1024, 20, 2),
    (16 ≤ u16 b 30 && u16 b 30 ≤ 1024, 30, 2), (u16 b 32 ≤ 4095, 32, 2), (1 ≤ byteAt b 34 && byteAt b 34 ≤ 16, 34, 1),
    (byteAt b 35 ≤ 7, 35, 1)] ++
    ((List.range 4).map fun i => (decide (u16 b (22 + 2 * i) ≤ 4095), 22 + 2 * i, 2)) ++
    [(leAt b 38 10 == 0, 38, 10)]

/-- A registration window as its 16 bytes, and the window that bytes hold (table 2). -/
def RegWindow.bytes (w : RegWindow) : Bytes :=
  le 4 w.dotFirst ++ le 4 w.dotCount ++ le 4 w.linePhase ++ le 2 w.lineCount ++ le 1 (flag w.enable) ++ zeros 1

def regWindowOf (b : Bytes) (o : Nat) : RegWindow :=
  ⟨u32 b o, u32 b (o + 4), u32 b (o + 8), u16 b (o + 12), bit (byteAt b (o + 14)) 0⟩

/-- The newest tables 0 to 2, as they stand from the next window start (R336). -/
def newestTables (q : CalSet) : CalParams × List Int × List RegWindow := q.newTables.getD (q.params, q.ink, q.regWindows)

/-- The span of a CALSET's channel; no bins while it is detached (R305). -/
def calSpan (s : State) (q : CalSet) : Nat × Nat := ((channelOf s q.channel).map binSpan).getD (0, 0)

/-- The nozzle count of a CALSET's bar. -/
def calNozzles (s : State) (q : CalSet) : Nat :=
  (((channelOf s q.channel).bind fun c => (barAt s c.bar).table).map nozzleCountOf).getD 0

/-- Entry of table 6 (R335). -/
def binEntry (k : BinStat) : Bytes :=
  le 2 k.e ++ le 1 (min k.c 255) ++ le 1 (flag k.observable + 2 * flag k.patched + 4 * flag k.atLimit) ++ le 2 k.n ++ zeros 2

/-- A table of a CALSET as bytes (R335). -/
def calTable (s : State) (q : CalSet) (t : Nat) : Bytes :=
  let n := (calSpan s q).2
  let (p, ink, w) := newestTables q
  match t with
  | 0 => p.bytes
  | 1 => (List.range 8).flatMap fun i => leS 2 (ink.getD i 0)
  | 2 => fit 64 (w.flatMap RegWindow.bytes)
  | 3 => (List.range n).flatMap fun i => le 2 (smGet (q.newRefs.getD q.ref) 0 i)
  | 4 => (List.range n).flatMap fun i => le 2 (gOf q i)
  | 5 => (List.range (calNozzles s q)).flatMap fun i => le 2 (baseOf q i)
  | 6 => (List.range n).flatMap fun i => binEntry (smGet q.bins ⟨0, 0, false, false, false, 0⟩ i)
  | _ =>
    let corr := ((channelOf s q.channel).map fun c => (barAt s c.bar).regCorr).getD 0
    leS 2 corr ++ leS 2 (wholeShift q.regFine) ++ (q.headOffsets.flatMap (leS 2)) ++ (q.bandFactors.flatMap (le 2)) ++ zeros 2

/-- Bytes of a table with a write applied. -/
def splice (b : Bytes) (off : Nat) (d : Bytes) : Bytes := b.take off ++ d ++ b.drop (off + d.length)

/-- 16-bit entries of a table touched by a write of `n` bytes at `off`, taken from its new bytes. -/
def writeEntries (t : SMap Nat) (b : Bytes) (off n : Nat) : SMap Nat :=
  (List.range ((off + n - 1) / 2 + 1 - off / 2)).foldl (fun t i => smSet t (off / 2 + i) (u16 b (2 * (off / 2 + i)))) t

/-- A CALSET with a table written (R336): tables 0 to 2 from the next window start, at once between windows. -/
def writeTable (s : State) (q : CalSet) (t off : Nat) (d : Bytes) : CalSet :=
  let b := splice (calTable s q t) off d
  let (p, ink, w) := newestTables q
  let soft := fun (n : CalParams × List Int × List RegWindow) =>
    let q1 := { q with newTables := some n }
    if q.frames = 0 then takeTables q1 else q1
  match t with
  | 0 => soft (calParamsOf b, ink, w)
  | 1 => soft (p, (List.range 8).map fun i => s16 b (2 * i), w)
  | 2 => soft (p, ink, (List.range 4).map fun i => regWindowOf b (16 * i))
  | 3 =>
    let new := writeEntries (q.newRefs.getD q.ref) b off d.length
    if q.mode = .correct ∧ q.frames ≠ 0 then { q with newRefs := some new } else { q with ref := new, newRefs := none }
  | 4 => { q with g := writeEntries q.g b off d.length }
  | _ => { q with base := writeEntries q.base b off d.length }

/-- The fields of a write of tables 0 to `top`: range at offset 16 (R338), and the entries it touches (R335). -/
def writeFields (top : Nat) (m : Msg) (s : State) : List FieldCheck :=
  let b := m.payload
  let t := byteAt b 0
  let lo := u32 b 4
  let hi := lo + (b.length - 8)
  match calsetOf s m.handle with
  | none => [within t 0 top 0]
  | some q =>
    let old := calTable s q t
    if top < t ∨ old.length < hi then [(false, 0)]
    else
      let new := splice old lo (b.drop 8)
      let checks : List (Bool × Nat × Nat) := match t with
        | 0 => calParamChecks new
        | 2 => (List.range 4).flatMap fun i =>
            [(decide (byteAt new (16 * i + 14) ≤ 1), 16 * i + 14, 1), (byteAt new (16 * i + 15) == 0, 16 * i + 15, 1)]
        | _ => []
      (checks.filter fun k => k.2.1 < hi && lo < k.2.1 + k.2.2).map fun k => (k.1, 8 + (k.2.1 - lo))

/-! ### Messages -/

/-- cal.create (0x0A01, R336, R337). -/
def opCalCreate : OpDef where
  code := 0x0A01
  trained := true
  len b := b.length == 16
  fields m _ :=
    let b := m.payload
    [within (byteAt b 0) 0 1 0, within (byteAt b 1) 0 3 1, below (byteAt b 2) 3 2, reserved b 3 1, reserved b 12 4]
  body m s := do
    let b := m.payload
    let (ext, s1) ← orErr (takeExtents 1 s) (plainErr stNoSpace)
    let q : CalSet :=
      { face := byteAt b 0, channelC := byteAt b 1, registration := bit (byteAt b 2) 0, patches := bit (byteAt b 2) 1
        mirrored := bit (byteAt b 2) 2, x0 := s32 b 4, colPitch := u32 b 8, extents := ext
        visionHold := visionFaulty s, thermalPause := s.thermal.step != 0 }
    let (i, t) ← orErr (s1.objs.calsets.create q) (plainErr stNoSpace)
    .ok { state := { s1 with objs := { s1.objs with calsets := t } }, handle := some (t.handle tyCalset i) }

/-- cal.destroy (0x0A02, R76). -/
def opCalDestroy : OpDef where
  code := 0x0A02
  trained := true
  types := [tyCalset]
  len b := b.length == 0
  body m s := do
    let q ← orErr (calsetOf s m.handle) (plainErr stNoHandle)
    require (q.mode == .detached) (plainErr stState)
    let s1 := giveExtents q.extents s
    okState { s1 with objs := { s1.objs with calsets := s1.objs.calsets.release (hIdx m.handle) } }

/-- cal.attach (0x0A03, R337). -/
def opCalAttach : OpDef where
  code := 0x0A03
  trained := true
  types := [tyCalset]
  len b := b.length == 4
  named m := [⟨[tyChannel], w32 m.payload 0, 16⟩]
  body m s := do
    let h := w32 m.payload 0
    let q ← orErr (calsetOf s m.handle) (plainErr stNoHandle)
    let c ← orErr (channelOf s h) (plainErr stNoHandle)
    require (q.mode == .detached && c.calset == 0) (plainErr stState)
    let s1 := setChannel s h fun c => { c with calset := m.handle }
    let s2 := setCalset s1 m.handle fun q => newWindow { q with
      mode := .observe, channel := h, camShape := none, windowsDone := 0, unseen := [], patching := [], bins := [], fromLine := 0 }
    okState (loopState (hIdx m.handle) 0 s2)

/-- cal.detach (0x0A04, R337). -/
def opCalDetach : OpDef where
  code := 0x0A04
  trained := true
  types := [tyCalset]
  len b := b.length == 0
  body m s := do
    let q ← orErr (calsetOf s m.handle) (plainErr stNoHandle)
    require (q.mode == .observe && q.recalc.isNone) (plainErr stState)
    let s1 := setChannel s q.channel fun c => { c with calset := 0 }
    okState (loopState (hIdx m.handle) 0 (setCalset s1 m.handle fun q => { q with mode := .detached, channel := 0 }))

/-- cal.param_write (0x0A05, R336, R338): tables 0 to 2. -/
def opCalParamWrite : OpDef where
  code := 0x0A05
  trained := true
  types := [tyCalset]
  len b := 9 ≤ b.length
  fields m s := [reserved m.payload 1 1, reserved m.payload 2 2] ++ writeFields 2 m s
  body m s := okState (setCalset s m.handle fun q => writeTable s q (byteAt m.payload 0) (u32 m.payload 4) (m.payload.drop 8))

/-- cal.read (0x0A06, R338). -/
def opCalRead : OpDef where
  code := 0x0A06
  trained := true
  types := [tyCalset]
  len b := b.length == 12
  fields m s :=
    let b := m.payload
    [within (byteAt b 0) 0 7 0, reserved b 1 3, within (u32 b 8) 0 4064 8,
      ((calsetOf s m.handle).all fun q => u32 b 4 + u32 b 8 ≤ (calTable s q (byteAt b 0)).length, 4)]
  body m s := do
    let q ← orErr (calsetOf s m.handle) (plainErr stNoHandle)
    okBytes s (slice (calTable s q (byteAt m.payload 0)) (u32 m.payload 4) (u32 m.payload 8))

/-- w[own] of a CALSET as written last. -/
def ownInk (s : State) (q : CalSet) : Int :=
  match channelOf s q.channel with
  | none => 0
  | some c => (newestTables q).2.1.getD c.bar 0

/-- Another CALSET that owns gains serves an overlapping span of the same bar (R307). -/
def spanTaken (s : State) (slot : Nat) (q : CalSet) : Bool :=
  match channelOf s q.channel with
  | none => false
  | some c => s.objs.calsets.live.any fun e => e.1 != slot && calOwns e.2 && (channelOf s e.2.channel).any fun d =>
      d.bar == c.bar && d.dotStart < c.dotStart + c.dotWidth && c.dotStart < d.dotStart + d.dotWidth

/-- What a recalculation needs (R327, R333, R334): BUSY while one runs, STATE in a pause. -/
def recalcReady (q : CalSet) : Except OpErr Unit := do
  require q.recalc.isNone (plainErr stBusy)
  require (!calPaused q) (plainErr stState)

/-- A recalculation started by a message, answered ACCEPTED (R339). -/
def acceptRecalc (m : Msg) (op : Nat) (reverting : Bool) (s : State) : OpResult :=
  let r := startRecalc (hIdx m.handle) reverting op m s
  .ok { state := r.1, status := stAccepted, final := if r.2 then some stOk else none }

/-- cal.write (0x0A07, R335, R336, R338). -/
def opCalWrite : OpDef where
  code := 0x0A07
  trained := true
  types := [tyCalset]
  len b := 9 ≤ b.length
  fields m s := [below (byteAt m.payload 1) 1 1, reserved m.payload 2 2] ++ writeFields 5 m s
  body m s := do
    let q ← orErr (calsetOf s m.handle) (plainErr stNoHandle)
    let b := m.payload
    let t := byteAt b 0
    let again := bit (byteAt b 1) 0
    require (t < 3 || q.mode != .holding) (plainErr stState)
    if again then
      require (q.mode == .correct) (plainErr stState)
      recalcReady q
    let q1 := writeTable s q t (u32 b 4) (b.drop 8)
    let s1 := setCalset s m.handle fun _ => if 3 ≤ t then countCal s q1 else q1
    if again then acceptRecalc m 0x0A07 false s1 else okState s1

/-- The base gains after loop.hold: the active gain of every nozzle of the span copied over them (R320). -/
def activeGains (s : State) (c : Channel) (base : SMap Nat) : SMap Nat :=
  let v := (barAt s c.bar).nozzles.at (barPos s c.bar).toNat
  (spanNozzles s c).foldl (fun t n => smSet t n.1 (nozGain (nozEntry v n.1))) base

/-- loop.hold (0x0A08, R307, R320, R336, R339). -/
def opLoopHold : OpDef where
  code := 0x0A08
  trained := true
  types := [tyCalset]
  len b := b.length == 0
  body m s := do
    let q ← orErr (calsetOf s m.handle) (plainErr stNoHandle)
    let c ← orErr (channelOf s q.channel) (plainErr stState)
    require (q.mode == .observe || q.mode == .correct) (plainErr stState)
    require (q.recalc.isNone && 0 < ownInk s q && !spanTaken s (hIdx m.handle) q) (plainErr stState)
    let s1 := setBar s c.bar fun b => { b with regCorr := 0 }
    let s2 := setCalset s1 m.handle fun q => newWindow { q with
      mode := .holding, base := activeGains s c q.base, g := [], ref := [], newRefs := none, changed := [], largestStep := 0, patching := [], unseen := [] }
    okState (loopState (hIdx m.handle) 0 s2)

/-- loop.release (0x0A09, R324, R339). -/
def opLoopRelease : OpDef where
  code := 0x0A09
  trained := true
  types := [tyCalset]
  len b := b.length == 4
  fields m _ := [below (byteAt m.payload 0) 1 0, reserved m.payload 1 3]
  body m s := do
    let q ← orErr (calsetOf s m.handle) (plainErr stNoHandle)
    require (calOwns q) (plainErr stState)
    if bit (byteAt m.payload 0) 0 then
      recalcReady q
      acceptRecalc m 0x0A09 true s
    else
      require q.recalc.isNone (plainErr stBusy)
      let bar := ((channelOf s q.channel).map fun c => c.bar).getD 8
      let s1 := setBar s bar fun b => { b with regCorr := 0 }
      okState (loopState (hIdx m.handle) 0 (setCalset s1 m.handle fun q => { q with mode := .observe, changed := [], patching := [] }))

/-- loop.resume (0x0A0A, R307, R326, R336, R339). -/
def opLoopResume : OpDef where
  code := 0x0A0A
  trained := true
  types := [tyCalset]
  len b := b.length == 0
  body m s := do
    let q ← orErr (calsetOf s m.handle) (plainErr stNoHandle)
    require (q.mode == .observe && q.ref.any (fun e => e.2 != 0)) (plainErr stState)
    recalcReady q
    require (0 < ownInk s q && !spanTaken s (hIdx m.handle) q) (plainErr stState)
    let s1 := setCalset s m.handle fun q => newWindow { q with mode := .correct, unseen := [] }
    acceptRecalc m 0x0A0A false (loopState (hIdx m.handle) 0 s1)

/-- cal.recalc (0x0A0B, R326, R327, R336, R339). -/
def opCalRecalc : OpDef where
  code := 0x0A0B
  trained := true
  types := [tyCalset]
  len b := b.length == 0
  body m s := do
    let q ← orErr (calsetOf s m.handle) (plainErr stNoHandle)
    require (q.mode == .correct) (plainErr stState)
    recalcReady q
    require (0 < ownInk s q) (plainErr stState)
    acceptRecalc m 0x0A0B false s

/-- cal.query (0x0A0C). -/
def opCalQuery : OpDef where
  code := 0x0A0C
  trained := true
  types := [tyCalset]
  len b := b.length == 0
  body m s := do
    let q ← orErr (calsetOf s m.handle) (plainErr stNoHandle)
    let corr := ((channelOf s q.channel).map fun c => (barAt s c.bar).regCorr).getD 0
    okBytes s (le 1 (calModeNumber q.mode) ++ le 1 (flag q.visionHold + 2 * flag q.thermalPause + 4 * flag q.recalc.isSome) ++
      zeros 2 ++ leB 4 q.channel ++ le 4 q.calCount ++ le 4 (q.calTime % 1000000000) ++ le 6 (q.calTime / 1000000000) ++ zeros 2 ++
      le 4 q.windowsDone ++ le 4 (calSpan s q).2 ++ le 4 (q.ref.filter fun e => e.2 != 0).length ++
      le 4 (q.bins.filter fun e => e.2.observable).length ++ le 4 (q.bins.filter fun e => e.2.atLimit).length ++ leS 2 corr ++ zeros 2)

/-- cal.chan_query (0x0A0D, R335). -/
def opCalChanQuery : OpDef where
  code := 0x0A0D
  trained := true
  types := [tyChannel]
  len b := b.length == 0
  body m s := do
    let c ← orErr (channelOf s m.handle) (plainErr stNoHandle)
    okBytes s (le 4 c.calCount ++ le 4 (c.calTime % 1000000000) ++ le 6 (c.calTime / 1000000000) ++ zeros 2 ++ leB 4 c.calset ++ zeros 4)

def execCalCreate (m : Msg) (s : State) : Out := .next (message opCalCreate m s)
def execCalDestroy (m : Msg) (s : State) : Out := .next (message opCalDestroy m s)
def execCalAttach (m : Msg) (s : State) : Out := .next (message opCalAttach m s)
def execCalDetach (m : Msg) (s : State) : Out := .next (message opCalDetach m s)
def execCalParamWrite (m : Msg) (s : State) : Out := .next (message opCalParamWrite m s)
def execCalRead (m : Msg) (s : State) : Out := .next (message opCalRead m s)
def execCalWrite (m : Msg) (s : State) : Out := .next (message opCalWrite m s)
def execLoopHold (m : Msg) (s : State) : Out := .next (message opLoopHold m s)
def execLoopRelease (m : Msg) (s : State) : Out := .next (message opLoopRelease m s)
def execLoopResume (m : Msg) (s : State) : Out := .next (message opLoopResume m s)
def execCalRecalc (m : Msg) (s : State) : Out := .next (message opCalRecalc m s)
def execCalQuery (m : Msg) (s : State) : Out := .next (message opCalQuery m s)
def execCalChanQuery (m : Msg) (s : State) : Out := .next (message opCalChanQuery m s)

end Sys2Proof.Machine
end

