-- ==== Sys2Proof/Machine/Gates.lean ====
section
/-! DEFINITION. Drop gates (R328 to R333, R340): samples, test drops judged, marks staged and committed as owner 2, the scan, and
the gate messages. -/

namespace Sys2Proof.Machine

/-- A bar's gate changed. -/
def setGate (s : State) (b : Nat) (f : Gate → Gate) : State := setBar s b fun bar => { bar with gate := f bar.gate }

/-! ### Samples (R328) -/

/-- The samples of a DROP_GATE packet: fire line [15:0], index from its fire instant, value. -/
def gateSamples (b : Bytes) : List (Nat × Int × Nat) :=
  (List.range (u16 b 4)).map fun i => (u16 b 0, ((u16 b 2 + i : Nat) : Int), u16 b (8 + 2 * i) % 4096)

/-- DROP_GATE (R328): samples taken in; the last 4,096 are kept. -/
def execDropGate (bar : Fin 8) (body : List Byte) (s : State) : Out :=
  .next (
    let b := bar.val
    let s1 := if (barAt s b).gate.source = 2 then takePacket b 0x23 s else s
    if (barAt s b).gate.source = 0 then s1
    else setGate s1 b fun g => { g with
      samples := ((gateSamples body).reverse ++ g.samples).take 4096, sampleAt := some s.time.clock })

/-- Device clock of a sample, in ns, of a line whose instant is known. -/
def sampleClock (g : Gate) (e : Nat × Int × Nat) : Option Int :=
  (g.instants.find? fun k => k.1 % 65536 == e.1).map fun k => (k.2 : Int) + 500 * e.2.1

/-- Delay of a head behind its bar's instant in ns (R182, R210): δ_h sixteenths of the bar's present line period. -/
def headDelay (s : State) (b slot : Nat) : Nat :=
  let off := match (barAt s b).table with
    | none => 0
    | some t => (t.slots.getD slot {}).downOffset
  let period := match (barAt s b).gate.instants with
    | a :: c :: _ => a.2 - c.2
    | _ => 0
  fireDelay off (barQ s b) * period / 16

/-- Sample s[i] of the drop in flight, i = 0 at the head's fire instant (R330). -/
def dropSample (g : Gate) (start : Int) (i : Int) : Option Nat :=
  (g.samples.find? fun e => match sampleClock g e with
    | some t => (t - start) / 500 == i
    | none => false).map fun e => e.2.2

/-- Area and arrival of a drop (R330): none where it is void. -/
def judgeDrop (g : Gate) (start : Int) : Option (Nat × Option Nat) :=
  let pre := ([-8, -7, -6, -5, -4, -3, -2, -1] : List Int).filterMap (dropSample g start)
  let rest := (List.range (g.tMax + 1 - g.tMin)).filterMap fun (k : Nat) =>
    (dropSample g start ((g.tMin + k : Nat) : Int)).map fun v => (g.tMin + k, v)
  if pre.length < 8 ∨ rest.length < g.tMax + 1 - g.tMin then none
  else
    let base := (sumOf pre + 4) / 8
    if g.noiseMax < maxOf (pre.map fun (v : Nat) => distInt v base) then none
    else
      let area := sumOf (rest.map fun e => base - e.2)
      let mom := sumOf (rest.map fun e => e.1 * (base - e.2))
      some (area, if area = 0 then none else some (mom * 16 / area))

/-- Noise of a drop above noise_max (GATE_FAULT cause 1). -/
def dropNoisy (g : Gate) (start : Int) : Bool :=
  let pre := ([-8, -7, -6, -5, -4, -3, -2, -1] : List Int).filterMap (dropSample g start)
  pre.length == 8 && g.noiseMax < maxOf (pre.map fun (v : Nat) => distInt v ((sumOf pre + 4) / 8 : Nat))

/-! ### Results (R331) -/

/-- The median of 64 values: the mean of the middle two, rounded down; of fewer, the same of what there is. -/
def median (l : List Nat) : Nat :=
  let r := sortBy (fun v : Nat => (v : Int)) l
  (r.getD ((r.length - 1) / 2) 0 + r.getD (r.length / 2) 0) / 2

/-- Whether a result fails: 1 missing, 2 deviated, 0 neither; no verdict before the head has 64 results (R331). -/
def failure (g : Gate) (slot : Nat) (area : Nat) (arrival : Option Nat) : Nat :=
  let refs := smGet g.refs [] slot
  if refs.length < 64 then 0
  else if arrival.isNone ∨ area * 256 < median (refs.map (·.1)) * g.repeats * g.missFrac then 1
  else if g.devTol < distInt (arrival.getD 0) (median (refs.filterMap (·.2))) then 2 else 0

/-- A MISSING or DEVIATED bit staged as owner 2 and committed (R331, R319). -/
def markNozzle (b idx kind : Nat) (s : State) : State :=
  let m := BitVec.ofNat 32 (2 ^ (27 + kind))
  let s1 := stageNozzles b 2 [(idx, ⟨m, m⟩)] s
  gateCommit b (setGate s1 b fun g => { g with mapDue := g.mapDue ++ [(kind - 1, 1)] })

/-- The scan moves on from a nozzle that has its result (R333). -/
def passNozzle (idx : Nat) (g : Gate) : Gate :=
  if g.first.contains idx then
    { g with testing := none, first := g.first.erase idx, early := if g.scan ≤ idx then idx :: g.early else g.early }
  else { g with testing := none, scan := idx + 1 }

/-- The end of a scan cycle (R333): GATE_SCAN; nozzles with a failure come first in the next. -/
def endCycle (b : Nat) (s : State) : State :=
  match (barAt s b).table with
  | none => s
  | some t =>
    if (nextTest s b t).isSome then s
    else
      let g := (barAt s b).gate
      fieldEvent 0x0A08 0 (le 1 b ++ zeros 3 ++ le 4 ((s.time.clock - g.cycleAt) / 1000000))
        (setGate s b fun g => { g with
          cycles := (g.cycles + 1) % 2 ^ 32, scan := 0, early := [], first := g.fails.map (·.1), cycleAt := s.time.clock })

/-- A nozzle's result (R331): reference, verdict, failures in a row, and the mark after miss_n of one kind. -/
def takeResult (b slot idx : Nat) (drops : List (Nat × Option Nat)) (s : State) : State :=
  let g := (barAt s b).gate
  let area := sumOf (drops.map (·.1))
  let times := drops.filterMap (·.2)
  let arrival := if times.isEmpty then none else some (sumOf times / times.length)
  let kind := failure g slot area arrival
  let old := smGet g.fails (0, 0) idx
  let n := if kind = 1 then old.1 + 1 else if kind = 2 then old.2 + 1 else 0
  let out := kind ≠ 0 && g.missN ≤ n
  let s1 := setGate s b fun g => passNozzle idx { g with
    tests := g.tests + 1
    refs := smSet g.refs slot (((area, arrival) :: smGet g.refs [] slot).take 64)
    fails := if kind = 0 ∨ out then smDel g.fails idx else smSet g.fails idx (if kind = 1 then (n, 0) else (0, n)) }
  endCycle b (if out then markNozzle b idx kind s1 else s1)

/-- A void drop is counted and tested again (R330). -/
def voidDrop (noisy : Bool) (g : Gate) : Gate :=
  { g with drop := none, dropAt := none, voids := (g.voids + 1) % 2 ^ 32, noisy := if noisy then g.noisy + 1 else g.noisy }

/-- DROP_TEST_RESULT (R329 to R333): the drop in flight is judged t_max + 16 samples after its instant. -/
def execDropTestResult (bar : Fin 8) (s : State) : Out :=
  .next (
    let b := bar.val
    let g := (barAt s b).gate
    match g.drop, g.dropAt, (barAt s b).table with
    | some (idx, _, fired), some at_, some t =>
      match nozzleAt t idx with
      | none => setGate s b fun g => { g with drop := none, dropAt := none, testing := none }
      | some (slot, _, _, _) =>
        let start := at_ + headDelay s b slot
        if !fired then setGate s b (voidDrop false)
        else if s.time.clock < start + (g.tMax + 16) * 500 then s
        else match judgeDrop g start with
          | none => setGate s b (voidDrop (dropNoisy g start))
          | some d =>
            let drops := (g.testing.map fun e => e.2).getD [] ++ [d]
            let s1 := setGate s b fun g => { g with drop := none, dropAt := none, noisy := 0, testing := some (idx, drops) }
            if drops.length < g.repeats then s1 else takeResult b slot idx drops s1
    | _, _, _ => s)

/-- Causes of GATE_FAULT that are present: noise, a weak head reference, no samples. -/
def gateCauses (s : State) (g : Gate) : List Nat :=
  (if 64 ≤ g.noisy then [1] else []) ++
  (if g.refs.any (fun e => e.2.length == 64 && median (e.2.map (·.1)) < 4 * g.noiseMax) then [2] else []) ++
  (match g.sampleAt with
    | some t => if g.source ≠ 0 ∧ t + 1000000 ≤ s.time.clock then [3] else []
    | none => [])

/-- GATE_FAULT (10, events): each cause is told once while it lasts. -/
def execGateFault (bar : Fin 8) (s : State) : Out :=
  .next (
    let b := bar.val
    let g := (barAt s b).gate
    let now := gateCauses s g
    (now.filter fun c => !g.told.contains c).foldl (fun s c => fieldEvent 0x0A09 0 (le 1 b ++ le 1 c) s)
      (setGate s b fun g => { g with told := now }))

/-! ### Pauses (R333, R334) -/

/-- Every CALSET enters or leaves the thermal pause (R333), with LOOP_STATE. -/
def pauseLoops (on : Bool) (s : State) : State :=
  let turn : CalSet → CalSet := fun q => { q with thermalPause := on }
  s.objs.calsets.live.foldl (fun s e => loopState e.1 (if on then 4 else 5) s)
    { s with objs := { s.objs with calsets := s.objs.calsets.mapLive turn } }

/-! ### Messages -/

/-- Lmax of a bar's channels: the least of them; 7 without any. -/
def barLmax (s : State) (b : Nat) : Nat :=
  if s.objs.channels.live.any fun e => e.2.bar == b && e.2.dropBits == 2 then 3 else 7

/-- Largest emitter current in mA (R450): 30 under energy class 1. -/
def emitterMax (s : State) : Nat := if s.power.energyClass = 1 then 30 else 50

/-- cal.gate_config (0x0A10, R328 to R332, R450). -/
def opCalGateConfig : OpDef where
  code := 0x0A10
  trained := true
  len b := b.length == 24
  fields m s :=
    let b := m.payload
    [within (byteAt b 0) 0 7 0, within (byteAt b 1) 0 2 1, within (byteAt b 2) 1 8 2, within (byteAt b 3) 1 (barLmax s (byteAt b 0)) 3,
      within (byteAt b 4) 0 (emitterMax s) 4, within (byteAt b 5) 1 255 5, within (byteAt b 6) 1 15 6, reserved b 7 1,
      within (u16 b 8) 0 1000 8, within (u16 b 10) 0 1000 10, (u16 b 8 < u16 b 10, 8), reserved b 16 8]
  body m s :=
    let b := m.payload
    okState (setGate s (byteAt b 0) fun g =>
      let same := g.source == byteAt b 1 && g.emitterMa == byteAt b 4
      { g with
        source := byteAt b 1, repeats := byteAt b 2, level := byteAt b 3, emitterMa := byteAt b 4, missFrac := byteAt b 5
        missN := byteAt b 6, tMin := u16 b 8, tMax := u16 b 10, devTol := u16 b 12, noiseMax := u16 b 14
        refs := if same then g.refs else [], testing := none
        sampleAt := if same then g.sampleAt else some s.time.clock })

/-- Length of a run's repeats: the present one, or its first plate's. -/
def windowRepeat (s : State) (r : Run) : Nat :=
  match r.segs.head? with
  | some g => g.len
  | none => match (runChannels s r).head? with
    | some c => ((plateOf s c.2.plate).map fun p => repeatLength p r.pitch).getD 0
    | none => 0

/-- The windows of a cal.gate_window payload. -/
def gateWindows (b : Bytes) : List GateWindow :=
  (List.range (byteAt b 0)).map fun k =>
    let o := 4 + 20 * k
    ⟨bit (byteAt b o) 0, bit (byteAt b o) 1, byteAt b (o + 1), u32 b (o + 4), u32 b (o + 8), u32 b (o + 12), u32 b (o + 16)⟩

/-- cal.gate_window (0x0A11, R329, R340). -/
def opCalGateWindow : OpDef where
  code := 0x0A11
  trained := true
  types := [tyRun]
  len b := 4 ≤ b.length && b.length == 4 + 20 * byteAt b 0
  fields m s :=
    let b := m.payload
    [within (byteAt b 0) 0 16 0, reserved b 1 3] ++ (List.range (byteAt b 0)).flatMap fun k =>
      let o := 4 + 20 * k
      [below (byteAt b o) 2 o, within (byteAt b (o + 1)) 1 255 (o + 1), reserved b (o + 2) 2,
        ((runOf s m.handle).all fun r => u32 b (o + 12) + u32 b (o + 16) ≤ windowRepeat s r, o + 12)]
  body m s := do
    let r ← orErr (runOf s m.handle) (plainErr stNoHandle)
    require (r.state != .ended) (plainErr stState)
    let l := gateWindows m.payload
    if !r.state.active then okState (setRun s m.handle fun r => { r with windows := l, newWindows := none })
    else
      let now := (repeatOf r (runPos s r.pitch)).1
      let n := maxOf ((runBars s r).map fun b => firstAhead s r b 0)
      let cur := match r.newWindows with
        | some (from_, w) => if from_ ≤ now then w else r.windows
        | none => r.windows
      okState (setRun s m.handle fun r => { r with windows := cur, newWindows := some (n, l) })

/-- cal.gate_clear (0x0A12, R332). -/
def opCalGateClear : OpDef where
  code := 0x0A12
  trained := true
  len b := b.length == 12
  fields m _ :=
    let b := m.payload
    [within (byteAt b 0) 0 7 0, below (byteAt b 1) 2 1, reserved b 2 2,
      (u32 b 4 < 131072 && u32 b 4 + u32 b 8 ≤ 131072, 4), within (u32 b 8) 1 131072 8]
  body m s :=
    let b := m.payload
    let bar := byteAt b 0
    let mask := BitVec.ofNat 32 (byteAt b 1 * 2 ^ 28)
    let hit := ((barAt s bar).nozzles.newest.filter fun e =>
      u32 b 4 ≤ e.1 && e.1 < u32 b 4 + u32 b 8 && e.2 &&& mask != 0).map (·.1)
    if hit.isEmpty then okState s else
    let s1 := stageNozzles bar 2 (hit.map fun i => (i, ⟨mask, 0⟩)) s
    okState (gateCommit bar (setGate s1 bar fun g => { g with
      mapDue := g.mapDue ++ [(2, hit.length)]
      first := hit ++ g.first.filter fun i => !hit.contains i
      fails := g.fails.filter fun e => !hit.contains e.1 }))

/-- State of a gate in cal.gate_query: 0 off, 1 gathering references, 2 testing, 3 paused. -/
def gateState (s : State) (b : Nat) : Nat :=
  let g := (barAt s b).gate
  if g.source = 0 then 0
  else if s.thermal.step ≠ 0 then 3
  else match (barAt s b).table with
    | none => 1
    | some t => if (presentSlots t).all fun e => (smGet g.refs [] e.1).length == 64 then 2 else 1

/-- cal.gate_query (0x0A13). -/
def opCalGateQuery : OpDef where
  code := 0x0A13
  trained := true
  len b := b.length == 4
  fields m _ := [within (byteAt m.payload 0) 0 7 0, reserved m.payload 1 3]
  body m s :=
    let b := byteAt m.payload 0
    let g := (barAt s b).gate
    let v := (barAt s b).nozzles.at (barPos s b).toNat
    okBytes s (le 1 g.source ++ le 1 (gateState s b) ++ zeros 2 ++ le 4 g.cycles ++ le 4 g.scan ++
      le 4 (v.filter fun e => e.2.getLsbD 28).length ++ le 4 (v.filter fun e => e.2.getLsbD 29).length ++ le 8 g.tests ++ le 4 g.voids)

def execCalGateConfig (m : Msg) (s : State) : Out := .next (message opCalGateConfig m s)
def execCalGateWindow (m : Msg) (s : State) : Out := .next (message opCalGateWindow m s)
def execCalGateClear (m : Msg) (s : State) : Out := .next (message opCalGateClear m s)
def execCalGateQuery (m : Msg) (s : State) : Out := .next (message opCalGateQuery m s)

end Sys2Proof.Machine
end

