-- ==== Sys2Proof/Machine/Voltage.lean ====
section
/-! DEFINITION. Slack telemetry and adaptive voltage (R409 to R411). -/

namespace Sys2Proof.Machine

/-- Some run holds the voltage: CREATED, QUEUED, ARMED, PRINTING or STOPPING (R410). -/
def voltageHeld (s : State) : Bool := s.objs.runs.live.any fun e => e.2.state.reserves

/-- The least VDD_F that may be commanded, in mV (R17, R410). -/
def vddLeast (s : State) : Nat := if voltageHeld s then 720 else 700

/-- VDD_F commanded, within R17 and R410. -/
def setVdd (mv : Nat) (s : State) : State := commandVdd (clampNat (vddLeast s) 900 mv) s

/-- Bars with an active run and a window behind them: bar and last minimum. -/
def activeSlacks (s : State) : List (Nat × Int) :=
  (List.range 8).filterMap fun b => if barActive s b then (barAt s b).slackLast.map fun v => (b, v) else none

/-- S_min with its bar (R410): none without an active bar. -/
def leastSlack (s : State) : Option (Nat × Int) := leastBy (fun e : Nat × Int => e.2) (activeSlacks s)

/-- A slack as its signed 16-bit field; none reads 0x7FFF. -/
def slackField : Option Int → Bytes
  | none => le 2 0x7FFF
  | some v => leS 2 (clampInt (-32768) 32766 v)

/-- SLACK_LOW for a bar whose last window minimum lies below FLOOR, at most once a second (R411). -/
def slackReport (b : Nat) (s : State) : State :=
  let bar := barAt s b
  match bar.slackLast with
  | none => s
  | some v =>
    if v < s.fabric.floor ∧ due bar.slackLowAt 1000000000 s.time.clock then
      fieldEventAt 0x0E21 0 (bar.handed.head?.map (·.1)) (le 1 b ++ zeros 1 ++ slackField (some v) ++ le 2 s.fabric.vddMv)
        (setBar s b fun bar => { bar with slackLowAt := some s.time.clock })
    else s

/-- AVS_LIMIT (R411): VDD_F at 0.90 V, S_min below FLOOR for 16 windows; at most once a second. -/
def limitReport (s : State) : State :=
  match leastSlack s with
  | none => s
  | some (b, v) =>
    if s.fabric.vddMv = 900 ∧ 16 ≤ s.fabric.lowRun ∧ due s.fabric.limitAt 1000000000 s.time.clock then
      fieldEvent 0x0E22 0 (le 2 s.fabric.vddMv ++ le 1 b ++ zeros 1 ++ slackField (some v))
        { s with fabric := { s.fabric with limitAt := some s.time.clock } }
    else s

/-- The FS's step of VDD_F at a window end (R410). -/
def avsStep (s : State) : State :=
  match leastSlack s with
  | none => s
  | some (_, v) =>
    if !s.fabric.avsOn then s
    else if 2 * v < s.fabric.floor then setVdd (s.fabric.vddMv + 20) s
    else if v < s.fabric.floor then setVdd (s.fabric.vddMv + 10) s
    else if (activeSlacks s).all fun e => 16 ≤ (barAt s e.1).slackHigh then
      setVdd (s.fabric.vddMv - 5)
        { s with bars := s.bars.map fun bar => { bar with slackHigh := 0 } }
    else s

/-- SLACK_WINDOW_END (R409 to R411): 1,024 output lines of a bar have been handed; the busy fraction is measured, a free
value (log 46). -/
def execSlackWindowEnd (bar : Fin 8) (s : State) : Out :=
  .next (
    let b := bar.val
    match (barAt s b).slackMin with
    | none => s
    | some k =>
      if (barAt s b).slackLines < 1024 then s else
      let (busy, s1) := takeFree 16 s
      let s2 := setBar s1 b fun bar => { bar with
        slackLast := some k
        slackWorst := some (match bar.slackWorst with | none => k | some w => min w k)
        slackMin := none, slackLines := 0, busy := busy, slackWindows := bar.slackWindows + 1 }
      let low : Bool := (leastSlack s2).any fun e => decide (e.2 < (s2.fabric.floor : Int))
      let high : Bool := (leastSlack s2).any fun e => decide ((s2.fabric.floor : Int) + s2.fabric.hyst ≤ e.2)
      let s3 := setBar s2 b fun bar => { bar with slackHigh := if high then bar.slackHigh + 1 else 0 }
      let s4 := { s3 with fabric := { s3.fabric with lowRun := if low then s3.fabric.lowRun + 1 else 0 } }
      limitReport (avsStep (slackReport b s4)))

/-- AVS_IDLE_STEP (R410): with no run that holds the voltage, VDD_F falls by 5 mV towards IDLE_MV. -/
def execAvsIdleStep (s : State) : Out :=
  .next (if voltageHeld s ∨ !s.fabric.avsOn ∨ s.fabric.vddMv ≤ s.fabric.idleMv then s
    else setVdd (max s.fabric.idleMv (s.fabric.vddMv - 5)) s)

/-- diag.avs_config (0x0E24, R410, R411): with AVS off the FS holds 0.90 V. -/
def opDiagAvsConfig : OpDef where
  code := 0x0E24
  len b := b.length == 8
  fields m _ :=
    let b := m.payload
    [within (u16 b 0) 16 768 0, within (u16 b 2) 0 512 2, within (u16 b 4) 700 900 4, below (byteAt b 6) 1 6, reserved b 7 1]
  body m s :=
    let b := m.payload
    let on := bit (byteAt b 6) 0
    let s1 := commandVdd (if on then s.fabric.vddMv else 900)
      { s with fabric := { s.fabric with floor := u16 b 0, hyst := u16 b 2, idleMv := u16 b 4, avsOn := on } }
    okState (limitReport ((activeSlacks s1).foldl (fun s e => slackReport e.1 s) s1))

/-- diag.slack_query (0x0E23). -/
def opDiagSlackQuery : OpDef where
  code := 0x0E23
  len b := b.length == 0
  body _ s :=
    okBytes s (le 2 s.fabric.vddMv ++ slackField ((leastSlack s).map (·.2)) ++ zeros 4 ++
      (List.range 8).flatMap fun b =>
        let bar := barAt s b
        slackField (if barActive s b then bar.slackLast else none) ++ le 2 bar.busy ++ slackField bar.slackWorst ++ zeros 2 ++
          le 8 bar.slackWindows)

def execDiagAvsConfig (m : Msg) (s : State) : Out := .next (message opDiagAvsConfig m s)
def execDiagSlackQuery (m : Msg) (s : State) : Out := .next (message opDiagSlackQuery m s)

end Sys2Proof.Machine
end

