-- ==== Sys2Proof/Machine/ThermalSensors.lean ====
section
/-! DEFINITION. Temperature (R459 to R467, R471, R472, R475): sensors, failures, throttle steps, zones, supply monitors, and the
`sys.temp_*` operations. Thermal-off itself is a reset (Machine/Resets.lean). -/

namespace Sys2Proof.Machine

def sensorAt (s : State) (i : Nat) : TempSensor := s.thermal.sensors.getD i {}
def setSensor (s : State) (i : Nat) (f : TempSensor → TempSensor) : State :=
  { s with thermal := { s.thermal with sensors := modAt s.thermal.sensors i f } }

/-- An on-die sensor, its zone 0 to 4 and its zone partner (R459). -/
def onDie (i : Nat) : Bool := 16 ≤ i && i < 26
def sensorZone (i : Nat) : Nat := (i - 16) / 2
def partnerOf (i : Nat) : Nat := if i % 2 = 0 then i + 1 else i - 1

/-- The reading that counts before failure: the higher of a zone's two after 3 disagreements, and for the host die what
the heartbeat brought last (R461, R462). -/
def countedReading (s : State) (i : Nat) : Int :=
  let own := fun k => if 24 ≤ k then s.thermal.hostReadings.getD (k - 24) 0 else (sensorAt s k).reading
  if onDie i ∧ 3 ≤ (sensorAt s i).apart ∧ !(sensorAt s i).failed ∧ !(sensorAt s (partnerOf i)).failed then
    max (own i) (own (partnerOf i))
  else own i

/-- The highest armed limit of a sensor. -/
def topLimit (q : TempSensor) : Option Int := (q.limits.filterMap id).foldl (fun m v => some (match m with
  | none => v
  | some w => max v w)) none

/-- The step that a sensor demands at a reading, from the step it demanded so far (throttle steps; R467). -/
def demandAt (q : TempSensor) (r : Int) : Nat :=
  maxOf ((List.range 4).map fun k => match q.limits.getD k none with
    | none => 0
    | some l => if l ≤ r ∨ (k + 1 ≤ q.demand ∧ l - q.hyst ≤ r) then k + 1 else 0)

/-- The reading of a sensor for throttling: a failed one reads as its highest armed limit; none where it demands nothing
(R467). -/
def throttleReading (s : State) (i : Nat) : Option Int :=
  let q := sensorAt s i
  if q.ignore ∨ (i < 16 ∧ q.kind = 0) then none
  else if q.failed then topLimit q
  else some (countedReading s i)

/-- Every sensor's demand renewed. -/
def renewDemands (s : State) : State :=
  (List.range 26).foldl (fun s i => setSensor s i fun q => { q with demand := match throttleReading s i with
    | none => 0
    | some r => demandAt q r }) s

/-- The device's step, with the sensor that sets it: the highest demand, T4 while a zone has no protection (R464, R472). -/
def wantedStep (s : State) : Nat × Nat :=
  let top := maxOf ((List.range 26).map fun i => (sensorAt s i).demand)
  let by_ := ((List.range 26).find? fun i => (sensorAt s i).demand == top).getD 0
  if s.thermal.bare.any id then
    (4, match (List.range 5).find? fun z => s.thermal.bare.getD z false with
      | some z => 16 + 2 * z
      | none => by_)
  else (top, by_)

/-- The step evaluated (R464): THROTTLE at a change; T1 pauses loops and gates, T4 raises SPEED_CEILING. -/
def evaluateStep (s : State) : State :=
  let s := renewDemands s
  let (n, i) := wantedStep s
  let old := s.thermal.step
  if n = old then s else
  let r := (throttleReading s i).getD (sensorAt s i).reading
  let s1 := { s with thermal := { s.thermal with step := n, ceiling := n == 4 } }
  let s2 := fieldEvent 0x0140 0 (le 1 n ++ le 1 old ++ le 1 i ++ zeros 1 ++ leS 2 r) s1
  let s3 := if n = 4 then auditRuns (fun _ => true) (fun a => { a with t4 := a.t4 + 1 }) s2 else s2
  if (n = 0) = (old = 0) then s3 else pauseLoops (n != 0) s3

/-- SENSOR_FAULT. -/
def sensorFault (i cause : Nat) (s : State) : State :=
  (if 24 ≤ i then hostEvent else fieldEvent) 0x0141 0 (le 1 i ++ le 1 cause) s

/-- ZONE_PROTECTION when both sensors of a zone have failed (R472). -/
def checkZone (z : Nat) (s : State) : State :=
  let both := (sensorAt s (16 + 2 * z)).failed && (sensorAt s (17 + 2 * z)).failed
  if both ∧ !(s.thermal.bare.getD z false) then
    (if z = 4 then hostEvent else fieldEvent) 0x0143 0 (le 1 z ++ le 1 0)
      { s with thermal := { s.thermal with bare := setAt s.thermal.bare z true } }
  else s

/-- What a reading says of a sensor (R460, R461): 0 and the temperature, or the cause of a failure, 1 a failed check, 2 out of
range; none where the sensor is not read that way. -/
def judgeSample (q : TempSensor) (i : Nat) : SensorSample → Option (Nat × Int)
  | .onDie ok v =>
    if !onDie i then none
    else some (if !ok then 1 else if decide (-550 ≤ v) && decide (v ≤ 1500) then 0 else 2, if ok then v else q.reading)
  | .diode mv d =>
    if i < 16 ∧ q.kind = 1 then
      some (if 200 ≤ mv ∧ mv ≤ 900 then (0, (Config.diodeTenths q.ideality d).toInt) else (2, q.reading))
    else none
  | .ntc r =>
    if i < 16 ∧ q.kind = 2 then
      some (if 100 ≤ r ∧ r ≤ 9900 then (0, (Config.ntcTenths q.beta q.r25 r).toInt) else (2, q.reading))
    else none

/-- One reading of a sensor (R461): what it says, and the temperature that it leaves. -/
def takeReading (i cause : Nat) (v : Int) (s : State) : State :=
  let q := sensorAt s i
  if cause = 0 then
    let back : Bool := q.failed && 8 ≤ q.goodRun + 1
    let s1 := setSensor s i fun q => { q with
      reading := v, readAt := some s.time.clock, goodRun := if back then 0 else q.goodRun + 1, failed := q.failed && !back }
    if back then sensorFault i 4 s1 else s1
  else
    let s1 := setSensor s i fun q => { q with failed := true, goodRun := 0, readAt := some s.time.clock, reading := v }
    let s2 := if q.failed then s1 else sensorFault i cause s1
    if onDie i then checkZone (sensorZone i) s2 else s2

/-- Housekeeping (R463): from the release of AO-F until MEM_TRAINED is written or training fails, and while a debug session
holds the field die in test, that is, one with the scope of the field engines (log 161). -/
def inHousekeeping (s : State) : Bool := s.thermal.housekeeping || s.cairn.dbg.any fun d => bit d.scope 3

/-- A sensor is read at the fast rate (R463): within 8.0 °C below an armed limit, or above one. -/
def fastRate (q : TempSensor) : Bool := q.limits.any fun l => match l with
  | none => false
  | some v => decide (v - 80 ≤ q.reading)

/-- The time between two readings of a sensor (R463). -/
def readPeriod (s : State) (q : TempSensor) : Nat :=
  if inHousekeeping s then 200000000 else if fastRate q then 2000000 else 20000000

/-- A sensor is due to be read (R463); in thermal-off, whose rate the manual does not give, always. -/
def sensorDue (s : State) (i : Nat) : Bool :=
  s.thermal.off || (sensorAt s i).readAt.all fun t => t + readPeriod s (sensorAt s i) ≤ s.time.clock

/-- The two sensors of a zone compared after a round that read both (R461). -/
def compareZone (z : Nat) (s : State) : State :=
  let a := sensorAt s (16 + 2 * z)
  let b := sensorAt s (17 + 2 * z)
  if a.failed ∨ b.failed then s else
  let n := if 100 < distInt a.reading b.reading then a.apart + 1 else 0
  let set : TempSensor → TempSensor := fun q => { q with apart := n }
  let s1 := setSensor (setSensor s (16 + 2 * z) set) (17 + 2 * z) set
  if n = 3 then sensorFault (16 + 2 * z) 3 s1 else s1

/-- Nominal values of the supplies in mV (R476); VDD_F's is what is commanded. -/
def nominal (s : State) (i : Nat) : Nat :=
  if i = 7 then s.fabric.vddMv else [800, 1800, 800, 900, 1800, 800, 1800, 900, 900, 1100, 1800, 5000].getD i 0

/-- One reading of a supply (SUPPLY_WARN): more than 5 % off nominal in 3 consecutive readings. -/
def readSupply (i : Nat) (s : State) : State :=
  let off : Bool := decide (nominal s i < 20 * distInt ((s.power.supply.getD i 0 : Nat) : Int) (nominal s i : Nat))
  let n := if off then s.power.offNominal.getD i 0 + 1 else 0
  let s1 := { s with power := { s.power with offNominal := setAt s.power.offNominal i n } }
  if n = 3 then
    (if i < 5 then hostEvent else fieldEvent) 0x0111 0 (le 1 i ++ zeros 1 ++ le 2 (s.power.supply.getD i 0)) s1
  else s1

/-- Every working sensor of every zone reads below 110.0 °C (R474). -/
def zonesCool (s : State) : Bool := (List.range 10).all fun k => (sensorAt s (16 + k)).failed || decide ((sensorAt s (16 + k)).reading < 1100)

/-- The sensors of a round that are due and read the way they are (R460, R463): sensor, what the reading says, temperature. -/
def roundReadings (readings : List (Fin 26 × SensorSample)) (s : State) : List (Nat × Nat × Int) :=
  readings.filterMap fun e =>
    if sensorDue s e.1.val then (judgeSample (sensorAt s e.1.val) e.1.val e.2).map fun r => (e.1.val, r.1, r.2) else none

/-- The supply monitors read, once per round of housekeeping (R463). -/
def readSupplies (s : State) : State :=
  if inHousekeeping s && s.power.supplyAt.all fun t => t + 200000000 ≤ s.time.clock then
    (List.range 12).foldl (fun s i => readSupply i s) { s with power := { s.power with supplyAt := some s.time.clock } }
  else s

/-- SENSOR_ROUND (R461 to R464): sensors are read, the zones compared, in housekeeping the supplies read too, and the throttle
step evaluated. In thermal-off only the time for which every zone is cool is kept (R474). -/
def execSensorRound (readings : List (Fin 26 × SensorSample)) (s : State) : Out :=
  let l := roundReadings readings s
  let both := fun (z : Nat) => l.any (fun e => e.1 == 16 + 2 * z) && l.any fun e => e.1 == 17 + 2 * z
  let s1 := l.foldl (fun s e => takeReading e.1 e.2.1 e.2.2 s) s
  if s.thermal.off then
    .next { s1 with thermal := { s1.thermal with
      coolSince := if zonesCool s1 then some (s.thermal.coolSince.getD s.time.clock) else none } }
  else
    let s2 := (List.range 5).foldl (fun s z => if both z then compareZone z s else s) s1
    done s (evaluateStep (readSupplies s2))

/-- The option store may be written: both host-die sensors work and read between 0.0 and 85.0 °C (R475). -/
def storeWindow (s : State) : Bool :=
  [24, 25].all fun i => !(sensorAt s i).failed && decide (0 ≤ (sensorAt s i).reading) && decide ((sensorAt s i).reading ≤ 850)

/-- The hotter host-die reading. -/
def hotterHost (s : State) : Int := max (sensorAt s 24).reading (sensorAt s 25).reading

/-- A limit field: none for 0x7FFF. -/
def limitOf (v : Int) : Option Int := if v = 0x7FFF then none else some v

/-- sys.temp_config (0x0140, R466, R467). -/
def opSysTempConfig : OpDef where
  code := 0x0140
  field := false
  len b := b.length == 24
  fields m _ :=
    let b := m.payload
    let i := byteAt b 0
    let l := (List.range 4).map fun k => s16 b (4 + 2 * k)
    let rising := (List.range 3).all fun k => decide (l.getD k 0 ≤ l.getD (k + 1) 0)
    let inRange := i < 16 || l.all fun v => v == 0x7FFF || (decide (600 ≤ v) && decide (v ≤ 1200))
    [within i 0 25 0, (if i < 16 then byteAt b 1 ≤ 2 else byteAt b 1 == 0, 1), below (byteAt b 2) 1 2,
     within (byteAt b 3) 5 100 3, (rising && inRange, 4), reserved b 20 4]
  body m s := do
    let b := m.payload
    let i := byteAt b 0
    let ignore := bit (byteAt b 2) 0
    require (!(ignore && onDie i && (sensorAt s (partnerOf i)).failed)) (plainErr stState)
    okState (evaluateStep (setSensor s i fun q => { q with
      kind := byteAt b 1, ignore := ignore, hyst := byteAt b 3
      limits := (List.range 4).map fun k => limitOf (s16 b (4 + 2 * k))
      ideality := u16 b 12, beta := u16 b 14, r25 := u32 b 16
      failed := q.failed && (onDie i || q.kind == byteAt b 1) }))

/-- sys.temp_query (0x0141). -/
def opSysTempQuery : OpDef where
  code := 0x0141
  field := false
  len b := b.length == 0
  body _ s :=
    let t := s.thermal
    let zones := bitsOf ((List.range 5).map fun z => !(sensorAt s (16 + 2 * z)).failed && !(sensorAt s (17 + 2 * z)).failed)
    okBytes s (le 1 t.step ++ le 1 (flag (!inHousekeeping s)) ++ le 1 (flag t.ceiling + 2 * flag (t.bare.any id)) ++ le 1 zones ++
      le 4 t.offCount ++
      ((List.range 26).flatMap fun i =>
        let q := sensorAt s i
        leS 2 q.reading ++ le 1 (flag q.failed + 2 * flag q.ignore + 4 * flag (!inHousekeeping s && fastRate q)) ++ le 1 q.demand) ++
      le 8 (t.offTime / 1000000000) ++ le 4 (t.offTime % 1000000000) ++ zeros 4)

def execSysTempConfig (m : Msg) (s : State) : Out := done s (message opSysTempConfig m s)
def execSysTempQuery (m : Msg) (s : State) : Out := .next (message opSysTempQuery m s)

end Sys2Proof.Machine
end

