-- ==== Sys2Proof/Machine/Barrier.lean ====
section
/-! DEFINITION. Saddle (R31 to R33, R440 to R444): frames, channels, heartbeats, the loss and the return of a side; and the
interlock matrix (R452 to R458). -/

namespace Sys2Proof.Machine

/-! ### Channels -/

/-- A data channel: forward 0 to 13, return 14 to 19; none for a number that does not exist. -/
def channelIndex (ret : Bool) (k : Nat) : Option Nat := if ret then (if k < 6 then some (14 + k) else none) else some k

def channelOn (s : State) (ret : Bool) (k : Nat) : Bool := (if ret then s.saddle.ret else s.saddle.forward).getD k false

/-- A channel put into or out of service, with SADDLE_STATE (R441). -/
def turnChannel (ret : Bool) (k : Nat) (on : Bool) (s : State) : State :=
  let sad := if ret then { s.saddle with ret := setAt s.saddle.ret k on }
    else { s.saddle with forward := setAt s.saddle.forward k on }
  let i := (channelIndex ret k).getD 0
  let sad := { sad with
    resendAt := setAt sad.resendAt i [], cleanSince := setAt sad.cleanSince i none
    removals := if on then sad.removals else (sad.removals + 1) % 2 ^ 32 }
  let s1 := { s with saddle := sad }
  hostEvent 0x0131 0 (le 1 (flag ret) ++ le 1 k ++ le 1 (flag on) ++ le 1 (flag (saddleDegraded s1)) ++
    le 1 (countTrue s1.saddle.forward) ++ le 1 (countTrue s1.saddle.ret)) s1

/-- Both ends of Saddle run. -/
def saddleUp (s : State) : Bool := !s.power.hostReset && !s.power.fieldReset

/-- Saddle trained: every data channel in service once both ends run (R499 step 4; log 49). -/
def bringUpSaddle (s : State) : State :=
  if saddleUp s then
    { s with saddle := { s.saddle with
      forward := List.replicate 14 true, ret := List.replicate 6 true
      resendAt := List.replicate 20 [], cleanSince := List.replicate 20 none } }
  else s

/-- The classes that the data channels of a direction carry (R11). -/
def carries (ret : Bool) (cls : SaddleClass) : Bool :=
  match cls with
  | .data | .mbx | .aud | .dbg => true
  | .evt => ret
  | .time | .hb => false

/-- SADDLE_FRAME (R11, R440, R441): a class that the channel does not carry is never on it and changes nothing; a good frame is counted; a bad one is sent again, and the 16th resend within 1 ms removes the
channel. -/
def execSaddleFrame (ret : Bool) (channel : Fin 14) (cls : SaddleClass) (bytes : Nat) (crcOk : Bool) (s : State) : Out :=
  match channelIndex ret channel.val with
  | none => .next s
  | some i =>
    if !saddleUp s ∨ !channelOn s ret channel.val ∨ !carries ret cls then .next s
    else if crcOk then
      .next { s with saddle :=
        if ret then { s.saddle with retBytes := (s.saddle.retBytes + bytes) % 2 ^ 64, frameRet := s.time.clock }
        else { s.saddle with fwdBytes := (s.saddle.fwdBytes + bytes) % 2 ^ 64, frameFwd := s.time.clock } }
    else
      let l := s.time.clock :: (s.saddle.resendAt.getD i []).filter fun t => s.time.clock < t + 1000000
      let s1 := { s with saddle := { s.saddle with
        resendAt := setAt s.saddle.resendAt i l, resends := (s.saddle.resends + 1) % 2 ^ 32 } }
      if 16 ≤ l.length then done s (turnChannel ret channel.val false s1) else .next s1

/-- IDLE_PATTERN_CHECK (R441, R516): a failure removes a channel in service; a removed one must pass for 1 s. -/
def execIdlePatternCheck (ret : Bool) (channel : Fin 14) (pass : Bool) (s : State) : Out :=
  match channelIndex ret channel.val with
  | none => .next s
  | some i =>
    if !saddleUp s then .next s
    else if channelOn s ret channel.val then
      if pass then .next s else done s (turnChannel ret channel.val false s)
    else
      let since := if pass then some ((s.saddle.cleanSince.getD i none).getD s.time.clock) else none
      .next { s with saddle := { s.saddle with cleanSince := setAt s.saddle.cleanSince i since } }

/-- CHANNEL_RETURN (R441): a removed channel has passed the check for 1 s. Held field events follow the first return channel
back (R443). -/
def execChannelReturn (ret : Bool) (channel : Fin 14) (s : State) : Out :=
  match channelIndex ret channel.val with
  | none => .next s
  | some i => match s.saddle.cleanSince.getD i none with
    | none => .next s
    | some t =>
      if saddleUp s ∧ !channelOn s ret channel.val ∧ t + 1000000000 ≤ s.time.clock then
        done s (deliverHeld (turnChannel ret channel.val true s))
      else .next s

/-! ### Heartbeats and the loss of a side -/

/-- SADDLE_HEARTBEAT (R31, R33, R462): a valid beat; the host's carries its two sensor readings. A beat missed breaks the run
of beats. -/
def execSaddleHeartbeat (ret : Bool) (t24 t25 : Int) (s : State) : Out :=
  if !saddleUp s then .next s
  else
    let now := s.time.clock
    let run := fun (last : Nat) (start : Option Nat) => if now < last + 200000 then some (start.getD now) else some now
    if ret then
      done s { s with saddle := { s.saddle with
        hbF2H := true, runF2H := run s.saddle.beatF2H s.saddle.runF2H, beatF2H := now } }
    else
      done s { s with
        saddle := { s.saddle with hbH2F := true, runH2F := run s.saddle.beatH2F s.saddle.runH2F, beatH2F := now }
        thermal := { s.thermal with hostReadings := [t24, t25] } }

/-- A beat has run without a break for 1 ms and still does. -/
def beatsFor1ms (now last : Nat) (start : Option Nat) : Bool :=
  now < last + 200000 && (match start with | none => false | some t => t + 1000000 ≤ now)

/-- An active run ends at the end of its current repeat (R31): the repeat of the last line handed to the lanes, for an ARMED run
its first; which repeat is current is left open (DESIGN CHOICE, log 138). -/
def runOut (s : State) (r : Run) : Run :=
  let stop := repeatStart r ((repeatOf r (max r.firstLine (firstUnhanded s r - 1))).1 + 1)
  let earlier : Bool := match runEnd r with
    | none => true
    | some e => decide (stop < e)
  { r with
    runningOut := true, audit := { r.audit with hostLost := true }
    stopAt := if earlier then some stop else r.stopAt, cause := if earlier then 2 else r.cause }

/-- HOST_SIDE_LOST (R31): for 10 ms no beat, no time word and no forward frame. -/
def execHostSideLost (s : State) : Out :=
  let quiet := fun (t : Nat) => t + 10000000 ≤ s.time.clock
  if s.saddle.hostLost ∨ s.power.fieldReset ∨ !(quiet s.saddle.beatH2F && quiet s.time.wordAt && quiet s.saddle.frameFwd) then
    .next s
  else
    let s1 := { s with saddle := { s.saddle with hostLost := true, hbH2F := false, runH2F := none } }
    let runs := s1.objs.runs.mapLive fun r => if r.state.active then runOut s1 r else r
    done s { s1 with objs := { s1.objs with runs := runs } }

/-- HOST_SIDE_BACK (R31, R32, R528): valid beats for 1 ms; what the field die kept is delivered. -/
def execHostSideBack (s : State) : Out :=
  if s.saddle.hostLost ∧ beatsFor1ms s.time.clock s.saddle.beatH2F s.saddle.runH2F then
    done s (flushWaiting (deliverHeld { s with saddle := { s.saddle with hostLost := false } }))
  else .next s

/-- FIELD_UNREACHABLE (R33): for 10 ms neither beat nor return frame; or no forward channel; or no approved image. -/
def execFieldUnreachable (s : State) : Out :=
  let silent : Bool := decide (s.saddle.beatF2H + 10000000 ≤ s.time.clock) && decide (s.saddle.frameRet + 10000000 ≤ s.time.clock)
  if s.saddle.fieldLost ∨ !(silent || !s.saddle.forward.any id || !s.saddle.approved) then .next s
  else done s { s with saddle := { s.saddle with
    fieldLost := true, hbF2H := s.saddle.hbF2H && !silent, runF2H := if silent then none else s.saddle.runF2H } }

/-- A stream's recovery list is told of (R361). -/
def tellRecovered (s : State) : State :=
  s.vd.recovery.foldl (fun s e => hostEvent 0x0B02 0 (le 4 e.1 ++ le 4 e.2.length) s) s

/-- What the active CP writes once Saddle is up again after a field-die reset (R75, R361, R490). -/
def reportFieldReset (s : State) : State :=
  match s.power.reportField with
  | none => s
  | some withHost =>
    let s1 := tellRecovered (hostEvent 0x0106 0 (le 2 0x02FE) { s with power := { s.power with reportField := none } })
    if withHost then s1
    else hostEvent 0x0110 0 (le 1 s.win.cause ++ le 1 s.win.reach ++ zeros 2 ++ leB 4 s.win.causes) s1

/-- FIELD_REACHABLE (R33, R75, R490): beats for 1 ms, a channel of each direction, an approved image. -/
def execFieldReachable (s : State) : Out :=
  if (s.saddle.fieldLost ∨ s.power.reportField.isSome) ∧ s.mbx.ready ∧ saddleUp s ∧
      beatsFor1ms s.time.clock s.saddle.beatF2H s.saddle.runF2H ∧
      s.saddle.forward.any id ∧ s.saddle.ret.any id ∧ s.saddle.approved then
    done s (reportFieldReset { s with saddle := { s.saddle with fieldLost := false } })
  else .next s

/-- sys.saddle_query (0x0134). -/
def opSysSaddleQuery : OpDef where
  code := 0x0134
  field := false
  len b := b.length == 0
  body _ s :=
    let q := s.saddle
    let flags := flag (saddleDegraded s) + 2 * flag s.time.locked + 4 * flag q.hbH2F + 8 * flag q.hbF2H
    okBytes s (le 2 (bitsOf q.forward) ++ le 1 (bitsOf q.ret) ++ le 1 flags ++ le 1 (minForward s) ++ le 1 (minReturn s) ++ zeros 2 ++
      le 8 q.fwdBytes ++ le 8 q.retBytes ++ le 4 q.resends ++ le 4 q.removals ++ zeros 16)

def execSysSaddleQuery (m : Msg) (s : State) : Out := .next (message opSysSaddleQuery m s)

end Sys2Proof.Machine
end

