-- ==== Sys2Proof/Machine/Interlocks.lean ====
section
/-! DEFINITION. The interlock matrix (R452 to R458): inputs, trips, returns to health, configuration, lock and rearm. -/

namespace Sys2Proof.Machine

def ilkAt (s : State) (i : Nat) : IlkInput := s.ilk.inputs.getD i {}
def setIlk (s : State) (i : Nat) (f : IlkInput → IlkInput) : State :=
  { s with ilk := { s.ilk with inputs := modAt s.ilk.inputs i f } }

/-- The loop is in its healthy range (R452), in ohms. -/
def loopHealthy (type ohms : Nat) : Bool :=
  match type with
  | 1 => 700 ≤ ohms && ohms ≤ 1500
  | 2 => ohms < 300
  | _ => true

/-- The loop is in the narrowed range from which an input returns to health (R452). -/
def loopSettled (type ohms : Nat) : Bool :=
  match type with
  | 1 => 735 ≤ ohms && ohms ≤ 1425
  | 2 => ohms < 285
  | _ => true

/-- The permits of the bars as a mask. -/
def permits (s : State) : Nat := bitsOf ((List.range 8).map (ilkPermit s))

/-- INTERLOCK, where the input's flag asks for it: `t` is its stamp. -/
def ilkEvent (i state : Nat) (rearmed : Bool) (t : Nat) (before after : State) : State :=
  if !(ilkAt after i).events then after else
  sendFieldRecord ⟨0x0130, 0, t, none, fit 8 (le 1 i ++ le 1 state ++ le 1 (permits before ^^^ permits after) ++
    le 1 (flag (ilkAt after i).latched + 2 * flag rearmed)), none, true⟩ after

/-- INTERLOCK (R453, R455): a change of a loop out of its healthy range, accepted once it has been stable for filter × 100 ns;
its stamp is the first change. -/
def execInterlock (input : Fin 16) (ohms held : Nat) (s : State) : Out :=
  .next (
    let i := input.val
    let q := ilkAt s i
    if q.type = 0 ∨ loopHealthy q.type ohms ∨ held < 100 * q.filter then s else
    let short : Bool := q.type == 1 && ohms < 700
    if !q.healthy then setIlk s i fun q => { q with goodSince := none }
    else
      let s1 := setIlk s i fun q => { q with healthy := false, goodSince := none, short := short, latched := q.latched || q.latch }
      let s2 := { s1 with ilk := { s1.ilk with trips := (s1.ilk.trips + 1) % 2 ^ 32, cairnTrips := s1.ilk.cairnTrips + 1 } }
      let s3 := auditRuns (fun _ => true) (fun a => { a with trips := a.trips + 1 }) s2
      noteFireEn 1 s (ilkEvent i (if short then 2 else 1) false (s.time.field - held) s s3))

/-- INTERLOCK_HEALTHY (R452, R455): the loop lies in its narrowed range; after 10 ms of that the input is healthy. -/
def execInterlockHealthy (input : Fin 16) (ohms : Nat) (s : State) : Out :=
  .next (
    let i := input.val
    let q := ilkAt s i
    if q.type = 0 ∨ q.healthy then s
    else if !loopSettled q.type ohms then setIlk s i fun q => { q with goodSince := none }
    else match q.goodSince with
      | none => setIlk s i fun q => { q with goodSince := some s.time.clock }
      | some t =>
        if s.time.clock < t + 10000000 then s else
        let s1 := setIlk s i fun q => { q with healthy := true }
        let s2 := { s1 with ilk := { s1.ilk with cairnHealths := s1.ilk.cairnHealths + 1 } }
        noteFireEn 1 s (ilkEvent i 0 false s.time.field s s2))

/-- Row b of a configuration names an input of type 0 (R456). -/
def rowBad (b : Bytes) (r : Nat) : Bool := (List.range 16).any fun i => bit (u16 b (64 + 2 * r)) i && byteAt b (4 * i) == 0

/-- One input under a new configuration (R452): a new type counts as tripped, not latched. -/
def configureInput (b : Bytes) (e : IlkInput × Nat) : IlkInput :=
  let q := e.1
  let o := 4 * e.2
  let fl := byteAt b (o + 2)
  let q := { q with filter := byteAt b (o + 1), latch := bit fl 0, events := bit fl 1 }
  if byteAt b o = q.type then { q with latched := q.latched && bit fl 0 }
  else { q with type := byteAt b o, healthy := false, latched := false, goodSince := none }

/-- sys.interlock_config (0x0130, R456). -/
def opSysInterlockConfig : OpDef where
  code := 0x0130
  len b := b.length == 80
  fields m _ :=
    let b := m.payload
    ((List.range 16).flatMap fun i => [within (byteAt b (4 * i)) 0 2 (4 * i), within (byteAt b (4 * i + 1)) 0 15 (4 * i + 1),
      below (byteAt b (4 * i + 2)) 2 (4 * i + 2), reserved b (4 * i + 3) 1]) ++
      (List.range 8).map fun r => (!rowBad b r, 64 + 2 * r)
  body m s := do
    let b := m.payload
    require (!s.ilk.locked) (plainErr stState)
    okState { s with ilk := { s.ilk with
      inputs := s.ilk.inputs.zipIdx.map (configureInput b)
      rows := (List.range 8).map fun r => BitVec.ofNat 16 (u16 b (64 + 2 * r))
      config := b } }

/-- sys.interlock_lock (0x0131, R456 to R458): the hash of the configuration; M2 and Cairn's record at the first only. -/
def opSysInterlockLock : OpDef where
  code := 0x0131
  len b := b.length == 0
  body _ s :=
    let h := Config.sha384 s.ilk.config
    if s.ilk.locked then okBytes s (leB 48 h)
    else
      let m2 := Config.sha384 (leB 48 (s.cairn.m.getD 2 0) ++ leB 48 h)
      let s1 := { s with
        ilk := { s.ilk with locked := true, lockHash := h }
        cairn := { s.cairn with m := setAt s.cairn.m 2 m2 } }
      okBytes (noteFireEn 1 s s1) (leB 48 h)

/-- sys.interlock_rearm (0x0133, R453, R457, R458). -/
def opSysInterlockRearm : OpDef where
  code := 0x0133
  len b := b.length == 4
  fields m _ := [reserved m.payload 2 2]
  body m s :=
    let clear := (List.range 16).filter fun i => bit (u16 m.payload 0) i && (ilkAt s i).latched && (ilkAt s i).healthy
    let s1 := clear.foldl (fun s i =>
      let s' := setIlk s i fun q => { q with latched := false }
      ilkEvent i 0 true s.time.field s s') s
    let s2 := { s1 with ilk := { s1.ilk with cairnRearms := s1.ilk.cairnRearms + clear.length } }
    let s3 := auditRuns (fun _ => true) (fun a => { a with rearms := a.rearms + clear.length }) s2
    okBytes (noteFireEn 1 s s3) (le 2 (sumOf (clear.map fun i => 2 ^ i)))

/-- sys.interlock_query (0x0132). -/
def opSysInterlockQuery : OpDef where
  code := 0x0132
  len b := b.length == 0
  body _ s :=
    let q := s.ilk
    okBytes s (le 1 (flag q.locked) ++ le 1 s.power.energyClass ++ zeros 2 ++
      le 2 (bitsOf (q.inputs.map fun i => i.type == 0 || i.healthy)) ++ le 2 (bitsOf (q.inputs.map (·.latched))) ++
      le 2 (bitsOf (q.inputs.map (·.short))) ++ le 1 (permits s) ++ le 1 (fireLevels s) ++ le 4 q.trips ++
      q.rows.flatMap (fun r => leB 2 r) ++ zeros 8)

def execSysInterlockConfig (m : Msg) (s : State) : Out := .next (message opSysInterlockConfig m s)
def execSysInterlockLock (m : Msg) (s : State) : Out := .next (message opSysInterlockLock m s)
def execSysInterlockRearm (m : Msg) (s : State) : Out := .next (message opSysInterlockRearm m s)
def execSysInterlockQuery (m : Msg) (s : State) : Out := .next (message opSysInterlockQuery m s)

end Sys2Proof.Machine
end

