-- ==== Sys2Proof/Machine/Resets.lean ====
section
/-! DEFINITION. Reset (R482 to R493, R502), thermal-off (R473, R474), the option store and its load (R494 to R498), the release
of a die, and the `sys.reset`, `sys.boot_query`, `sys.option_*` and `sys.power_query` operations. -/

namespace Sys2Proof.Machine

/-! ### The record of a reset -/

/-- The union of two reaches (R491): one of a CP or of PCIE widens no other. -/
def unionReach (a b : Nat) : Nat := if a = b then a else if 3 ≤ a then b else if 3 ≤ b then a else 0

/-- The reach of the reset that is asserted and not yet released, none when there is none. -/
def assertedReach (s : State) : Option Nat :=
  match s.power.hostReset, s.power.fieldReset with
  | true, true => some 0
  | true, false => some 1
  | false, true => some 2
  | false, false => none

/-- A reset source recorded (R486, R491, R537): a second source widens the reach of the reset under way. -/
def recordReset (code reach : Nat) (s : State) : State :=
  let w := s.win
  let one : BitVec 32 := BitVec.ofNat 32 (2 ^ code)
  let started : Nat × Nat := match assertedReach s with
    | none => (code, reach)
    | some r => if 3 ≤ reach then (code, reach) else (w.cause, unionReach r reach)
  { s with win := { w with
    cause := started.1, reach := started.2, seen := w.seen ||| one, causes := w.causes ||| one
    hostResets := if reach ≤ 1 then (w.hostResets + 1) % 2 ^ 32 else w.hostResets
    fieldResets := if reach = 0 ∨ reach = 2 then (w.fieldResets + 1) % 2 ^ 32 else w.fieldResets } }

/-! ### What a reset of the field die clears -/

/-- The runs of the field die freed: each that had not ended has its audit record, cause 4 (R527). -/
def recordFreedRuns (s : State) : State :=
  s.objs.runs.live.foldl (fun s e =>
    let r := e.2
    if r.state == .ended then s
    else recordRun (s.objs.runs.handle tyRun e.1) { r with lastLine := r.firstLine + r.linesFired - 1 } 4 s) s

/-- Items in RENDERED or FIRED become INDETERMINATE and stand in their stream's recovery list (R361). -/
def recoverItems (s : State) : State :=
  let entries := fun (i : Nat) => (s.vd.cairn.filter fun e => e.1 == i).map fun e => (e.2.1, e.2.2.1, e.2.2.2)
  let lists := ((s.vd.cairn.map fun e => e.1).eraseDups).map fun i => (i, entries i)
  { s with vd := {
    recovery := s.vd.recovery ++ lists, finals := modAt s.vd.finals 2 (· + s.vd.cairn.length) } }

/-- Messages of the field die that it had not completed (R33, R48): those in its queue are answered OFFLINE, those it had
accepted end OFFLINE. -/
def dropFieldMessages (s : State) : State :=
  let gone := s.mbx.inFlight.filter fun e => e.phase == .forwarded
  let s1 := gone.foldl (fun s e => answer e.opcode e.msg e.arrival stOffline none (le 4 0) none s) s
  { s1 with mbx := { s1.mbx with
    inFlight := s1.mbx.inFlight.map fun e =>
      if e.phase = .accepted ∧ e.opcode / 256 ≠ 0x0D then { e with phase := .finished stOffline } else e } }

/-- The objects of types 1 to 7 and 9 freed, each generation advanced (R75). -/
def freeFieldObjects (o : Objects) : Objects :=
  { o with
    plates := o.plates.reset, channels := o.channels.reset, runs := o.runs.reset, streams := o.streams.reset
    triggers := o.triggers.reset, camsets := o.camsets.reset, calsets := o.calsets.reset, timers := o.timers.reset }

/-- A sensor of the host die after a reset of the field die: what the FS held of its configuration is at its reset value (R466). -/
def defaultLimits (q : TempSensor) : TempSensor :=
  let z := ({} : Thermal).sensors.getD 24 {}
  { q with limits := z.limits, hyst := z.hyst, ignore := z.ignore, demand := 0 }

/-- The field die's part of the thermal state: its sensors, step, ceiling and zones (R466, R472, R501). -/
def fieldThermal (t : Thermal) : Thermal :=
  { t with
    sensors := ({} : Thermal).sensors.take 24 ++ (t.sensors.drop 24).map defaultLimits
    step := 0, bare := [false, false, false, false, t.bare.getD 4 false], housekeeping := true, ceiling := false
    hostReadings := [0, 0] }

/-- Every register, table and memory of the field die at its reset value (R487, R501). `whole`: the host die is reset with
it. -/
def clearField (whole : Bool) (s : State) : State :=
  let now := s.time.clock
  let stored := s.mem.stored
  { s with
    objs := freeFieldObjects s.objs
    store := {}
    mem := {
      stored := stored, inForce := stored.getD {}, idleSince := now, scrubAt := now, zqAt := now
      refreshNext := List.replicate 8 now }
    bars := List.replicate 8 { gate := { cycleAt := now } }
    bench := { periodEnd := now + 120000000000 }
    pos := { loopAt := now }
    sett := {}
    vision := {}
    fabric := {}
    ilk :=
      if whole then {}
      else { cairnTrips := s.ilk.cairnTrips, cairnHealths := s.ilk.cairnHealths, cairnRearms := s.ilk.cairnRearms
             lockHash := s.ilk.lockHash }
    thermal := fieldThermal s.thermal
    time := { s.time with
      captures := List.replicate 4 {} ++ s.time.captures.drop 4, echoes := [], echoRun := 0
      hostPulses := List.replicate 2 [] }
    saddle := { s.saddle with
      forward := List.replicate 14 false, ret := List.replicate 6 false
      resendAt := List.replicate 20 [], cleanSince := List.replicate 20 none
      hbH2F := false, hbF2H := false, runH2F := none, runF2H := none, hostLost := false
      fieldHeld := [], fieldDropped := 0, approved := false, fsQueue := [] }
    cps := { s.cps with halted := setAt s.cps.halted 2 false }
    power := { s.power with
      domainsOn := if s.thermal.off then s.power.domainsOn else s.power.domainsOn ||| 0xFFFFFC0
      domainsReset := s.power.domainsReset ||| 0xFFFFF80
      readyMs := 0xFFFFFFFF, reportField := some whole, copyArrived := s.power.copyArrived && !whole } }

/-- A reset of the field die asserted (R75, R361, R487, R490, R501). -/
def resetField (whole : Bool) (s : State) : State :=
  let s1 := { s with power := { s.power with fieldReset := true } }
  let s2 := noteFireEn 2 s s1
  let s3 :=
    if whole ∨ s.power.hostReset then { s2 with vd := if whole then {} else (recoverItems s2).vd }
    else recoverItems (dropFieldMessages (recordFreedRuns s2))
  floatVdd (clearField whole s3)

/-! ### What a reset of the host die clears -/

/-- Cairn's state held in CAIRN (R487, R523, R531, R532): what lies in OTP and NOR stays. -/
def clearCairn (whole : Bool) (c : Cairn) : Cairn :=
  { c with
    m := List.replicate 4 0, recovery := false, rejected := [], update := [], updateBank := none
    challenge := none, dbg := none, due := [], waiting := if whole then [] else c.waiting }

/-- TE, the host captures and the transfer restart (R421); the field side's own time runs on. -/
def clearTime (t : Time) : Time :=
  { clock := t.clock, field := t.field, fieldFrac := t.fieldFrac, fieldY := t.fieldY, fieldEpoch := t.fieldEpoch, steps := t.steps, wordAt := t.wordAt, echoAt := t.clock
    captures := t.captures.take 4 ++ List.replicate 2 {} }

/-- The CPs restart (R503): what AO-H counts since host power-on stays. -/
def clearCps (c : Failover) : Failover :=
  { switchovers := c.switchovers, lastGap := c.lastGap, lastDecl := c.lastDecl, tests := c.tests }

/-- The window after a reset of the host die (R536): what lies in AO-H stays. -/
def clearWindow (w : Window) : Window :=
  { cause := w.cause, reach := w.reach, seen := w.seen, causes := w.causes, hostResets := w.hostResets
    fieldResets := w.fieldResets }

/-- Every run under way, and every audit session, overlaps a debug session (R532). -/
def markDebug (s : State) : State :=
  let s1 := auditRuns (fun _ => true) (fun a => { a with debug := true }) s
  { s1 with objs := { s1.objs with sessions := s1.objs.sessions.mapLive fun q => { q with sums := { q.sums with debug := true } } } }

/-- A reset of the host die asserted (R487, R488); it closes a debug session (R532). The status block lies in host memory and stays; records of the field die
that are not yet visible go back to it (R508). `whole`: the field die is reset with it. -/
def resetHost (whole : Bool) (s : State) : State :=
  let closed := s.cairn.dbg
  let s := if closed.isSome then markDebug s else s
  let back := if whole then [] else (s.mbx.held ++ s.transit).filter fun e => e.fromField
  let m := s.mbx
  let s1 := { s with
    mbx := { sbCmdCi := m.sbCmdCi, sbRespPi := m.sbRespPi, sbEventPi := m.sbEventPi, sbActiveCp := m.sbActiveCp
             sbUpdates := m.sbUpdates }
    eth := { nextSession := s.eth.nextSession }
    win := clearWindow s.win
    objs := { s.objs with sessions := s.objs.sessions.reset }
    ports := List.replicate 2 {}
    ptp := {}
    time := clearTime s.time
    saddle := { s.saddle with
      forward := List.replicate 14 false, ret := List.replicate 6 false
      resendAt := List.replicate 20 [], cleanSince := List.replicate 20 none
      hbH2F := false, hbF2H := false, runH2F := none, runF2H := none, fieldLost := false, fsQueue := []
      fieldHeld := (back ++ s.saddle.fieldHeld).take 4096
      fieldDropped := s.saddle.fieldDropped + ((back ++ s.saddle.fieldHeld).length - 4096) }
    thermal := { s.thermal with
      sensors := s.thermal.sensors.take 24 ++ ({} : Thermal).sensors.drop 24, bare := setAt s.thermal.bare 4 false }
    power := { s.power with
      hostReset := true, domainsReset := s.power.domainsReset ||| 0x3F
      domainsOn := if s.thermal.off then s.power.domainsOn else s.power.domainsOn ||| 0x3F
      softReset := none, mbxReadyMs := 0 }
    cps := clearCps s.cps
    cairn := clearCairn whole s.cairn
    transit := [] }
  match closed with
  | some d => hostEvent 0x0D04 0 (le 1 0 ++ le 1 d.scope ++ le 2 d.duration) s1
  | none => s1

/-- A reset of both dies. -/
def resetBoth (s : State) : State := resetHost true (resetField true s)

/-- Host power-on: what AO-H keeps through other resets starts afresh (R486 code 1, R536). -/
def powerOnHost (s : State) : State :=
  let s1 := resetHost false { s with cairn := { s.cairn with dbg := none } }
  { s1 with
    win := {}
    time := { s1.time with steps := 0 }
    saddle := { s1.saddle with resends := 0, removals := 0 }
    thermal := { s1.thermal with offCount := 0, offZone := 0, offSensor := 0, offTime := 0, report := false }
    cps := {}
    power := { s1.power with symbolDue := some 1 } }

/-- A reset of the field die alone from a source of code `code`. -/
def fieldSource (code : Nat) (s : State) : State := resetField false (recordReset code 2 s)

/-! ### Sources -/

/-- The supplies of a die, by index (R476). -/
def suppliesOf (field : Bool) : List Nat := if field then [5, 6, 7, 8, 9, 10, 11] else [0, 1, 2, 3, 4]

/-- SUPPLY_GOOD (R477, R486 codes 1 and 2): every supply of the die has been good for 10 ms. -/
def execSupplyGood (field : Bool) (s : State) : Out :=
  let d := flag field
  if !(s.power.noSupply.getD d false) then .next s
  else
    let good := (suppliesOf field).foldl (fun l i => setAt l i (nominal s i)) s.power.supply
    let s1 := { s with power := { s.power with supply := good, noSupply := setAt s.power.noSupply d false } }
    let s2 := (suppliesOf field).foldl (fun s i => readSupply i s) s1
    if field then
      let s3 := fieldSource 2 s2
      done s { s3 with power := { s3.power with copyArrived := false, fieldPowerOn := true } }
    else done s (powerOnHost s2)

/-- Brown-out thresholds in mV (R476). -/
def brownOutBelow : List Nat := [720, 1620, 720, 810, 1620, 720, 1620, 660, 810, 1030, 1620, 4500]

/-- BROWN_OUT (R476, R486 codes 3 and 4): a supply has read this value for 2 µs. -/
def execBrownOut (supply : Fin 12) (mv : Nat) (s : State) : Out :=
  let i := supply.val
  let field : Bool := decide (5 ≤ i)
  let s1 := readSupply i { s with power := { s.power with supply := setAt s.power.supply i mv } }
  if brownOutBelow.getD i 0 ≤ mv then .next s1
  else
    let known : Bool := s.power.noSupply.getD (flag field) false
    let s2 := { s1 with power := { s1.power with noSupply := setAt s1.power.noSupply (flag field) true } }
    if known then .next s2
    else if field then done s (fieldSource 4 s2) else done s (resetHost false (recordReset 3 1 s2))

/-- RST_N (R485, R486 code 5): low, accepted after 4 reference edges, or high again. -/
def execRstN (low : Bool) (edges : Nat) (s : State) : Out :=
  if low ∧ edges < 4 then .next s else
  let s1 := { s with power := { s.power with rstLow := low } }
  if !low ∨ s.power.rstLow then .next s1
  else
    let s2 := resetBoth (recordReset 5 0 s1)
    done s { s2 with power := { s2.power with symbolDue := none } }

/-- FRST_N (R485, R486 code 6): low, accepted after 4 reference edges, or high again. -/
def execFrstN (low : Bool) (edges : Nat) (s : State) : Out :=
  if low ∧ edges < 4 then .next s else
  let s1 := { s with power := { s.power with frstLow := low } }
  if !low ∨ s.power.frstLow then .next s1 else done s (fieldSource 6 s1)

/-- The reference of a die is lost (R483): its outputs are safe at once, and its reset stays until the reference is back. -/
def loseReference (field : Bool) (s : State) : State :=
  let d := flag field
  if s.power.refLost.getD d false then s
  else
    let s1 := { s with power := { s.power with refLost := setAt s.power.refLost d true, refSince := setAt s.power.refSince d none } }
    if field then fieldSource 12 s1 else resetHost false (recordReset 11 0 s1)

def execReferenceLoss (field : Bool) (s : State) : Out := done s (loseReference field s)

/-- REFERENCE_RETURN (R483, R489): reset is asserted at the first edge, release waits for 10 ms of clean running; AO-H's
symbol for the field die is due. -/
def execReferenceReturn (field : Bool) (s : State) : Out :=
  let d := flag field
  if !(s.power.refLost.getD d false) then .next s
  else
    let s1 := { s with power := { s.power with
      refLost := setAt s.power.refLost d false, refSince := setAt s.power.refSince d (some s.time.clock) } }
    if field then done s (resetField false s1)
    else
      let s2 := resetHost false s1
      done s { s2 with power := { s2.power with symbolDue := some 11 } }

/-- CLOCK_FAILURE (R484, R486): by the clock domains of R14. H-PCIE and the edge and Saddle clocks of the field reset nothing. -/
def execClockFailure (domain : Fin 14) (s : State) : Out :=
  let d := domain.val
  if d = 0 then done s (loseReference false s)
  else if d = 7 then done s (loseReference true s)
  else if d = 3 ∨ d = 4 then .next (if s.power.hostReset then s else linkDown (d - 3) s)
  else if d = 1 ∨ d = 5 ∨ d = 6 then
    if s.power.hostReset then .next s
    else
      let s1 := resetHost false (recordReset 11 0 s)
      done s { s1 with power := { s1.power with symbolDue := some 11 } }
  else if 8 ≤ d ∧ d ≤ 12 then
    if s.power.fieldReset then .next s else done s (fieldSource 12 s)
  else .next s

/-- FS_WATCHDOG (R486 codes 8 and 14, R493): paused while a debug session holds the FS halted. -/
def execFsWatchdog (lockup : Bool) (s : State) : Out :=
  if s.power.fieldReset ∨ s.cps.halted.getD 2 false then .next s
  else done s (fieldSource (if lockup then 14 else 8) s)

/-! ### Thermal-off -/

/-- COMPARATOR_TRIP (R471, R473): the comparator of a sensor that has not failed; every domain but AO-H and AO-F goes off. -/
def execComparatorTrip (sensor : Fin 26) (s : State) : Out :=
  let i := sensor.val
  if !onDie i ∨ (sensorAt s i).failed ∨ s.thermal.off then .next s
  else
    let s1 := { s with thermal := { s.thermal with
      off := true, offCount := (s.thermal.offCount + 1) % 2 ^ 32, offZone := sensorZone i, offSensor := i
      offTime := s.time.te, coolSince := none } }
    let s2 := resetBoth (noteFireEn 2 s (auditRuns (fun _ => true) (fun a => { a with thermalOffs := a.thermalOffs + 1 }) s1))
    done s { s2 with power := { s2.power with domainsOn := 0x41, domainsReset := 0xFFFFFFF, symbolDue := none } }

/-- THERMAL_OFF_RESTART (R474, R486 code 15): every zone has been cool for 1 s. -/
def execThermalOffRestart (s : State) : Out :=
  match s.thermal.coolSince with
  | none => .next s
  | some t =>
    if s.thermal.off ∧ t + 1000000000 ≤ s.time.clock then
      let s1 := resetBoth (recordReset 15 0 s)
      let w := { s1.win with cause := 15, reach := 0 }
      done s { s1 with
        win := w
        thermal := { s1.thermal with off := false, coolSince := none, report := true }
        power := { s1.power with domainsOn := 0xFFFFFFF, symbolDue := some 15 } }
    else .next s

/-! ### Software resets -/

/-- CP_STANDBY. -/
def standbyEvent (cp cause : Nat) (st : StandbyState) (s : State) : State :=
  hostEvent 0x0151 0 (le 1 cp ++ le 1 st.number ++ le 1 cause) { s with cps := { s.cps with standby := st } }

/-- A reset of a scope: 0 whole device, 1 host die, 2 field die, 3 standby CP (R486 codes 9 and 10, R502). -/
def resetScope (code scope : Nat) (s : State) : State :=
  match scope with
  | 0 => resetBoth (recordReset code 0 s)
  | 1 => resetHost false (recordReset code 1 s)
  | 2 => fieldSource code s
  | _ =>
    let cp := 1 - s.cps.active
    if s.cps.standby = .removed then s else standbyEvent cp 0 .reset (recordReset code (3 + cp) s)

/-- SOFTWARE_RESET (R502): 1 ms after the response. -/
def execSoftwareReset (s : State) : Out :=
  match s.power.softReset with
  | none => .next s
  | some (scope, t) =>
    if t ≤ s.time.clock then done s (resetScope 9 scope { s with power := { s.power with softReset := none } }) else .next s

/-- sys.reset (0x0103, R502): Cairn records it with its caller. -/
def opSysReset : OpDef where
  code := 0x0103
  urgent := true
  field := false
  len b := b.length == 4
  fields m _ := [within (byteAt m.payload 0) 0 3 0, reserved m.payload 1 3]
  body m s := do
    let scope := byteAt m.payload 0
    require (!(scope == 3 && s.cps.standby != .ready)) (plainErr stState)
    let asked := match s.power.softReset with
      | none => (scope, s.time.clock + 1000000)
      | some (old, t) => (unionReach old scope, t)
    okState { s with
      power := { s.power with softReset := some asked }
      cairn := { s.cairn with resetCalls := (scope, some m.inst) :: s.cairn.resetCalls } }

/-! ### Options -/

/-- The default of an option byte (R495). -/
def optionDefault (i : Nat) : Byte := ({} : Power).options.getD i 0

/-- A value that R495's table defines for an option byte. -/
def optionDefined (i v : Nat) : Bool :=
  match i with
  | 0 | 2 => v ≤ 2
  | 1 => v == 0 || v == 0xA5
  | 4 => v < 128
  | 5 => 1 ≤ v && v ≤ 60
  | 6 => v ≤ 3
  | 7 => field v 3 2 ≤ 2 && v < 16
  | 3 | 8 | 9 | 10 => true
  | _ => v == 0

/-- The option bytes in force for the stored bytes: defaults for undefined values, the audit fuse, and debug level 2 read as 1
under the audit lock (R495, R530, R538). -/
def optionsInForce (fused : Bool) (raw : Bytes) : Bytes :=
  let at_ := fun (i : Nat) => let v := raw.getD i 0; if optionDefined i v.toNat then v else optionDefault i
  let opt1 : Byte := if fused then 0xA5 else at_ 1
  (List.range 56).map fun i =>
    if i = 1 then opt1 else if i = 2 ∧ opt1 = 0xA5 ∧ at_ 2 = 2 then 1 else at_ i

/-- A stored copy is valid (R494). -/
def copyValid (c : OptionCopy) : Bool := BitVec.ofNat 32 (u32 c.bytes 60) == crc32c (c.bytes.take 60)

/-- The copy that the option reader uses: 0 A, 1 B, 3 none (R494). -/
def chooseCopy (p : Power) : Nat :=
  let a := p.copies.getD 0 ⟨[], 0⟩
  let b := p.copies.getD 1 ⟨[], 0⟩
  let later : Bool := decide (((w32 b.bytes 56) - (w32 a.bytes 56)).toNat < 2 ^ 31) && w32 b.bytes 56 != w32 a.bytes 56
  match copyValid a, copyValid b with
  | true, true => if later then 1 else 0
  | true, false => 0
  | false, true => 1
  | false, false => 3

/-- The class of field-I/O energy that an OPT3 value asks for (R447, R495). -/
def energyOf (opt3 : Nat) : Nat := if opt3 = 1 then 1 else 0

/-- An extension of a measurement register by the hash of data (R523). -/
def extend (k : Nat) (digest : BitVec 384) (s : State) : State :=
  { s with cairn := { s.cairn with m := modAt s.cairn.m k fun v => Config.sha384 (leB 48 v ++ leB 48 digest) } }

/-- The option reader at a release of AO-H (R494 to R496, R523, R530). -/
def loadOptions (s : State) : State :=
  let k := chooseCopy s.power
  let stored := (s.power.copies.getD k ⟨[], 0⟩).bytes
  let raw := if k = 3 then ({} : Power).options else stored.take 56
  let opts := optionsInForce s.ident.auditFused raw
  let waits : Bool := !s.power.fieldPowerOn && energyOf (byteAt opts 3) != s.power.energyClass
  let s1 := { s with power := { s.power with
    options := opts, optCopy := k, optSeq := if k = 3 then 0 else w32 stored 56, writePending := false, opt3Pending := waits } }
  if k = 3 then s1 else extend 2 (Config.sha384 stored) s1

/-- sys.option_read (0x0110). -/
def opSysOptionRead : OpDef where
  code := 0x0110
  field := false
  len b := b.length == 4
  fields m _ := [within (byteAt m.payload 0) 0 1 0, reserved m.payload 1 3]
  body m s :=
    let c := s.power.copies.getD (byteAt m.payload 0) ⟨[], 0⟩
    okBytes s (fit 64 c.bytes ++ le 4 c.writes)

/-- A list with consecutive entries replaced from an index on. -/
def patchBytes (l : Bytes) (i : Nat) : Bytes → Bytes
  | [] => l
  | a :: r => patchBytes (setAt l i a) (i + 1) r

/-- sys.option_write (0x0111, R475, R498, R530). -/
def opSysOptionWrite : OpDef where
  code := 0x0111
  field := false
  len b := 4 ≤ b.length && b.length == 4 + byteAt b 1
  fields m _ :=
    let b := m.payload
    [within (byteAt b 0) 0 55 0, within (byteAt b 1) 1 56 1, (byteAt b 0 + byteAt b 1 ≤ 56, 0), reserved b 2 2]
  allowed m s :=
    let b := m.payload
    let locked := [1, 2].any fun i => byteAt b 0 ≤ i && i < byteAt b 0 + byteAt b 1
    !(auditLock s && locked) || (!s.ident.auditFused && s.cairn.dbg.isSome)
  body m s := do
    require (storeWindow s) ⟨stState, leS 4 (hotterHost s)⟩
    let b := m.payload
    let k := s.power.optCopy
    let used := if k = 3 then ({} : Power).options else (s.power.copies.getD k ⟨[], 0⟩).bytes.take 56
    let seq := s.power.optSeq + 1
    let body := patchBytes used (byteAt b 0) (b.drop 4) ++ leB 4 seq
    let target := if k = 0 then 1 else 0
    let copy := body ++ leB 4 (crc32c body)
    let s1 := { s with power := { s.power with
      copies := modAt s.power.copies target fun c => ⟨copy, c.writes + 1⟩
      writePending := true, opt3Pending := energyOf (byteAt body 3) != s.power.energyClass } }
    okState (hostEvent 0x0112 0 (le 1 target ++ zeros 3 ++ leB 4 seq) s1)

/-! ### Release -/

/-- A die's reference has run without a break for 10 ms (R483). -/
def referenceGood (s : State) (d : Nat) : Bool :=
  !(s.power.refLost.getD d false) && (match s.power.refSince.getD d none with
    | none => true
    | some t => decide (t + 10000000 ≤ s.time.clock))

/-- AO-H sends the field reset symbol (R489): an unpowered field die starts through its own power-on. -/
def sendSymbol (s : State) : State :=
  if s.power.symbolDue.isNone then s
  else
    let s1 := { s with power := { s.power with symbolDue := none } }
    if s.power.noSupply.getD 1 false then s1 else resetField true s1

/-- The host die may be released. -/
def hostReleasable (s : State) : Bool :=
  s.power.hostReset && !(s.power.noSupply.getD 0 false) && !s.power.rstLow && referenceGood s 0 && !s.thermal.off

/-- The host die released, domain by domain (R482, R496, R497, R499 steps 2 to 4). -/
def releaseHost (s : State) : State :=
  let s1 := sendSymbol (loadOptions s)
  bringUpSaddle { s1 with power := { s1.power with
    hostReset := false, hostReleaseAt := s.time.clock, domainsReset := s1.power.domainsReset &&& 0xFFFFFC0
    refSince := setAt s1.power.refSince 0 none } }

/-- The field die may be released (R497): AO-F holds a copy. -/
def fieldReleasable (s : State) : Bool :=
  s.power.fieldReset && !(s.power.noSupply.getD 1 false) && !s.power.frstLow && referenceGood s 1 && !s.thermal.off &&
    s.power.symbolDue.isNone && s.power.copyArrived

/-- The field die released in domain order (R479, R482, R499 steps 4 to 6). -/
def releaseField (s : State) : State :=
  if !fieldReleasable s then s
  else bringUpSaddle { s with power := { s.power with
    fieldReset := false, fieldReleaseAt := s.time.clock, domainsReset := s.power.domainsReset &&& 0x3F
    refSince := setAt s.power.refSince 1 none } }

/-- RESET_RELEASE (R482). -/
def execResetRelease (field : Bool) (s : State) : Out :=
  if field then done s (releaseField s) else if hostReleasable s then done s (releaseHost s) else .next s

/-- FIELD_RESET_SYMBOL (R489): sent once the host reference and supplies are good. -/
def execFieldResetSymbol (s : State) : Out :=
  if s.power.hostReset ∧ !(s.power.noSupply.getD 0 false) ∧ !(s.power.refLost.getD 0 false) ∧ !s.thermal.off then
    done s (sendSymbol s)
  else .next s

/-- OPTION_COPY (R497): the copy in use arrives in AO-F, which takes OPT3 at the first release after its power-on only. -/
def execOptionCopy (s : State) : Out :=
  if s.power.hostReset ∨ s.power.symbolDue.isSome ∨ s.power.copyArrived ∨ s.power.noSupply.getD 1 false then .next s
  else
    let p := s.power
    let p1 := if p.fieldPowerOn then { p with
      energyClass := energyOf (byteAt p.options 3), fieldPowerOn := false, opt3Pending := false } else p
    done s (releaseField { s with power := { p1 with copyArrived := true } })

/-! ### Queries -/

/-- sys.boot_query (0x0104). -/
def opSysBootQuery : OpDef where
  code := 0x0104
  field := false
  len b := b.length == 0
  body _ s :=
    let p := s.power
    okBytes s (le 1 s.win.cause ++ le 1 s.win.reach ++ zeros 2 ++ leB 4 s.win.causes ++
      le 1 (if p.optCopy = 3 then 0xFF else p.optCopy) ++ le 1 (flag p.writePending + 2 * flag p.opt3Pending) ++ zeros 2 ++
      leB 4 p.optSeq ++ fit 56 p.options ++ le 4 p.mbxReadyMs ++ le 4 p.readyMs ++ le 4 s.win.hostResets ++
      le 4 s.win.fieldResets ++ zeros 8)

/-- Domain 25 is off while no camera or cascade link is enabled (R481). -/
def domainsOnNow (s : State) : Nat :=
  let aux := [8, 9, 10, 11].any fun l => (s.sett.links.getD l {}).state != .disabled
  (if aux then s.power.domainsOn else s.power.domainsOn &&& ~~~(BitVec.ofNat 28 (2 ^ 25))).toNat

/-- Domains in reset; one that is off is held in reset (R481). -/
def domainsResetNow (s : State) : Nat := s.power.domainsReset.toNat ||| (0xFFFFFFF - domainsOnNow s)

/-- sys.power_query (0x0112). -/
def opSysPowerQuery : OpDef where
  code := 0x0112
  field := false
  len b := b.length == 0
  body _ s :=
    okBytes s (((List.range 12).flatMap fun i => le 2 (s.power.supply.getD i 0)) ++ le 4 (domainsOnNow s) ++
      le 4 (domainsResetNow s) ++ le 2 s.fabric.vddMv ++ zeros 6)

def execSysReset (m : Msg) (s : State) : Out := .next (message opSysReset m s)
def execSysBootQuery (m : Msg) (s : State) : Out := .next (message opSysBootQuery m s)
def execSysOptionRead (m : Msg) (s : State) : Out := .next (message opSysOptionRead m s)
def execSysOptionWrite (m : Msg) (s : State) : Out := .next (message opSysOptionWrite m s)
def execSysPowerQuery (m : Msg) (s : State) : Out := .next (message opSysPowerQuery m s)

end Sys2Proof.Machine
end

