-- ==== Sys2Proof/Machine/Boot.lean ====
section
/-! DEFINITION. Boot (R499, R520 to R524): measured boot and the choice of the bank, the field image, the boot timeout, mailbox
ready with its boot record, and the rejection of a bank. -/

namespace Sys2Proof.Machine

/-- An image in a NOR: die 0 host, 1 field; bank 0 A, 1 B. -/
def bankAt (s : State) (die bank : Nat) : Bank := s.cairn.banks.getD (2 * die + bank) {}
def setBank (s : State) (die bank : Nat) (f : Bank → Bank) : State :=
  { s with cairn := { s.cairn with banks := modAt s.cairn.banks (2 * die + bank) f } }

/-- A seal record (R519): mark, seal_seq, fw_version, hash of the header, CRC. -/
def sealRecord (seq : BitVec 32) (fw : Nat) (header : BitVec 384) : Bytes :=
  let b := le 4 0x5EA10001 ++ leB 4 seq ++ le 4 fw ++ leB 48 header
  b ++ leB 4 (crc32c b)

/-- The seal_seq of a seal record with a correct mark and CRC (R519). -/
def Bank.sealSeq (b : Bank) : Option (BitVec 32) :=
  if b.sealRec.length = 64 ∧ u32 b.sealRec 0 = 0x5EA10001 ∧ w32 b.sealRec 60 = crc32c (b.sealRec.take 60) then some (w32 b.sealRec 4)
  else none

/-- The seal_seq of a sealed bank: both NORs hold a correct seal with the same number (R519). -/
def sealOf (s : State) (bank : Nat) : Option (BitVec 32) :=
  match (bankAt s 0 bank).sealSeq, (bankAt s 1 bank).sealSeq with
  | some a, some b => if a = b then some a else none
  | _, _ => none

/-- The bank with the later seal (R494's comparison, R520). -/
def laterBank (s : State) : Option Nat :=
  match sealOf s 0, sealOf s 1 with
  | some a, some b => some (if a ≠ b ∧ (b - a).toNat < 2 ^ 31 then 1 else 0)
  | some _, none => some 0
  | none, some _ => some 1
  | none, none => none

/-- The bank that Cairn boots (R520): OPT0's choice; after a rejection, the bank that remains (R522). -/
def chooseBank (s : State) : Option Nat :=
  let only := fun (k : Nat) => if (sealOf s k).isSome then some k else none
  if s.cairn.rejected ≠ [] then laterBank s
  else match byteAt s.power.options 0 with
    | 1 => only 0
    | 2 => only 1
    | _ => laterBank s

/-- A byte of a bank at a bank offset, as programmed last; what is not programmed reads 0xFF, the erased state of a NOR
(PRESUMED, log 23). -/
def Bank.raw (b : Bank) (i : Nat) : Byte :=
  match b.image.find? fun e => e.1 ≤ i && i < e.1 + e.2.length with
  | none => 0xFF
  | some e => e.2.getD (i - e.1) 0

/-- The 256 header bytes and the image bytes behind them (R518). -/
def Bank.header (b : Bank) : Bytes := (List.range 256).map b.raw
def Bank.bytes (b : Bank) (n : Nat) : Bytes := (List.range n).map fun i => b.raw (256 + i)

/-- A rejected bank (R522): its seals erased, the host die restarted with the other bank, FW_BANK written. -/
def rejectBank (bank die : Nat) (s : State) : State :=
  let gone := s.cairn.rejected ++ [bank]
  let s1 := setBank (setBank s 0 bank fun b => { b with sealRec := [] }) 1 bank fun b => { b with sealRec := [] }
  let s2 := resetHost false s1
  hostEvent 0x0D03 0 (le 1 bank ++ le 1 die ++ le 1 1) { s2 with cairn := { s2.cairn with rejected := gone } }

/-- Cairn accepts an image (R520): its header's key and signature, its security version, its hash. -/
def imageGood (check : ImageCheck) (b : Bank) (counter : Nat) : Bool := check.headerOk && counter ≤ b.security && check.hashOk

/-- MEASURED_BOOT (R520, R522, R523): CP0 is released, or the bank rejected; with no bank left CP0 runs the recovery code. -/
def execMeasuredBoot (check : ImageCheck) (s : State) : Out :=
  if s.power.hostReset ∨ s.cps.released then .next s
  else match chooseBank s with
    | none => done s { s with cairn := { s.cairn with recovery := true }, cps := { s.cps with released := true } }
    | some k =>
      let b := bankAt s 0 k
      if imageGood check b (s.cairn.counters.getD 0 0) then
        let s1 := { s with cairn := { s.cairn with bank := k }, cps := { s.cps with released := true } }
        done s (extend 0 (Config.sha384 (b.bytes b.imageBytes)) (extend 0 b.headerHash s1))
      else done s (rejectBank k 0 s)

/-- FIELD_IMAGE_APPROVAL (R479, R480, R521 to R523): an image of the running bank only, sent and answered as AUD messages on data
channels of both directions. The FS it lets run commands VDD_F and starts the training, whose step 1 raises DDR_RESET_N (log
146). -/
def execFieldImageApproval (check : ImageCheck) (s : State) : Out :=
  if !saddleUp s ∨ !s.saddle.forward.any id ∨ !s.saddle.ret.any id ∨ !s.cps.released ∨ s.cairn.recovery ∨ s.saddle.approved then .next s
  else
    let b := bankAt s 1 s.cairn.bank
    if imageGood check b (s.cairn.counters.getD 1 0) then
      let s0 := commandVdd 900 s
      let s1 := { s0 with
        saddle := { s.saddle with approved := true }
        mem := { s.mem with resetN := true }
        win := if s.mbx.ready then { s.win with fieldFw := BitVec.ofNat 32 b.fwVersion } else s.win }
      done s (extend 1 (Config.sha384 (b.bytes b.imageBytes)) (extend 1 b.headerHash s1))
    else done s (rejectBank s.cairn.bank 1 s)

/-- BOOT_TIMEOUT (R522): OPT5 seconds from the release of AO-H. -/
def execBootTimeout (s : State) : Out :=
  if s.power.hostReset ∨ s.mbx.ready ∨ s.cairn.recovery ∨
      s.time.clock < s.power.hostReleaseAt + 1000000000 * byteAt s.power.options 5 then .next s
  else match if s.cps.released then some s.cairn.bank else chooseBank s with
    | none => .next s
    | some k => done s (rejectBank k 0 s)

/-- The security counter of a die fused up to its image's version, at the first good boot of the bank, in the window of
temperature (R524). -/
def advanceCounter (die : Nat) (s : State) : State :=
  let k := s.cairn.bank
  let b := bankAt s die k
  if b.booted ∨ s.cairn.recovery then s
  else if !b.advance then setBank s die k fun b => { b with booted := true }
  else if !storeWindow s then s
  else
    let s1 := setBank s die k fun b => { b with booted := true }
    if b.security ≤ s.cairn.counters.getD die 0 then s1
    else hostEvent 0x0D03 0 (le 1 k ++ le 1 die ++ le 1 2)
      { s1 with cairn := { s1.cairn with counters := setAt s1.cairn.counters die b.security } }

/-- The boot record (R527, type 3). -/
def bootRecord (s : State) : State :=
  let c := s.cairn
  let flags := flag (c.rejected != []) + 2 * flag c.sealRejected
  let body := le 1 s.win.cause ++ le 1 s.win.reach ++ le 1 c.bank ++ le 1 flags ++ leB 4 s.win.hostFw ++ leB 4 s.win.fieldFw ++ zeros 4
  let s1 := writeRecord 3 0 (2 * flag c.dbg.isSome) 0 body s
  { s1 with cairn := { s1.cairn with sealRejected := false } }

/-- THERMAL_OFF after the restart, with the latched data (R474). -/
def reportThermalOff (s : State) : State :=
  if !s.thermal.report then s
  else
    let t := s.thermal
    let r : EventRec := ⟨0x0142, 0, t.offTime, none, le 1 t.offZone ++ le 1 t.offSensor ++ zeros 2 ++ le 4 t.offCount, none, false⟩
    { s with thermal := { t with report := false }, transit := s.transit ++ [r] }

/-- MAILBOX_READY (R499 step 8, R524, R527): the active CP has booted. -/
def execMailboxReady (s : State) : Out :=
  if s.power.hostReset ∨ !s.cps.released ∨ s.mbx.ready then .next s
  else
    let s1 := { s with
      mbx := { s.mbx with ready := true }
      power := { s.power with mbxReadyMs := (s.time.clock - s.power.hostReleaseAt) / 1000000 }
      win := { s.win with
        hostFw := if s.cairn.recovery then 0 else BitVec.ofNat 32 (bankAt s 0 s.cairn.bank).fwVersion
        fieldFw := if s.saddle.approved then BitVec.ofNat 32 (bankAt s 1 s.cairn.bank).fwVersion else 0 } }
    done s (reportThermalOff (bootRecord (advanceCounter 1 (advanceCounter 0 s1))))

end Sys2Proof.Machine
end

