-- ==== Sys2Proof/Machine/Cairn.lean ====
section
/-! DEFINITION. Cairn (R517 to R519, R525 to R532): audit sessions and records, quotes, the firmware update, host keys and
authenticated debug. -/

namespace Sys2Proof.Machine

/-! ### Audit sessions and records -/

/-- audit.open (0x0D01). -/
def opAuditOpen : OpDef where
  code := 0x0D01
  field := false
  len b := b.length == 4
  fields m _ := [within (byteAt m.payload 0) 0 15 0, reserved m.payload 1 3]
  body m s := do
    let q : AuditSession := { lanes := byteAt m.payload 0, sums := {}, firstLine := 0, lastLine := 0, repeats := 0 }
    let (i, t) ← orErr (s.objs.sessions.create q) (plainErr stNoSpace)
    .ok { state := { s with objs := { s.objs with sessions := t } }, handle := some (t.handle tyAudit i) }

/-- audit.close (0x0D02, R527 type 2): the record is summed over the session's runs. -/
def opAuditClose : OpDef where
  code := 0x0D02
  field := false
  types := [8]
  len b := b.length == 0
  body m s := do
    let q ← orErr (auditOf s m.handle) (plainErr stNoHandle)
    let flags := 2 * flag (q.sums.debug || s.cairn.dbg.isSome) + 4 * flag (q.sums.hostLost || s.saddle.hostLost)
    let n := s.cairn.nextRec + s.cairn.due.length
    let s1 := writeRecord 2 m.handle flags 0 (runBody 0 0 0 q.firstLine q.lastLine q.repeats q.sums [] true s) s
    okBytes { s1 with objs := { s1.objs with sessions := s1.objs.sessions.release (hIdx m.handle) } } (le 8 n)

/-- audit.read (0x0D03): a record of the ring, or the certificate of the identity key. -/
def opAuditRead : OpDef where
  code := 0x0D03
  field := false
  len b := b.length == 8
  body m s := do
    let n := u64 m.payload 0
    if n = 2 ^ 64 - 1 then okBytes s Config.certificate
    else
      require (n < s.cairn.nextRec) (plainErr stNoHandle)
      let e ← orErr (s.cairn.ring.find? fun e => e.1 == n) (plainErr stStale)
      okBytes s e.2

/-- audit.ack (0x0D04, R529): every slot up to the record is free; held records follow. -/
def opAuditAck : OpDef where
  code := 0x0D04
  field := false
  len b := b.length == 8
  body m s :=
    let n := min (u64 m.payload 0 + 1) s.cairn.nextRec
    okState (enterDue 64 { s with cairn := { s.cairn with acked := max s.cairn.acked n } })

/-- audit.quote (0x0D05): M0 to M3 and the time, signed by the identity key with the nonce. -/
def opAuditQuote : OpDef where
  code := 0x0D05
  field := false
  len b := b.length == 32
  body m s :=
    let what := ((List.range 4).flatMap fun k => leB 48 (s.cairn.m.getD k 0)) ++
      le 8 (s.time.te / 1000000000) ++ le 4 (s.time.te % 1000000000)
    okBytes s (what ++ leB 96 (Config.ecdsaSign (Config.sha384 (m.payload ++ what))))

/-! ### Firmware update -/

/-- The bank that is not running (R525). -/
def targetBank (s : State) : Nat := 1 - s.cairn.bank

/-- audit.fw_begin (0x0D10, R518, R525): erases the target bank of the die, its seal first. -/
def opAuditFwBegin : OpDef where
  code := 0x0D10
  field := false
  len b := b.length == 8
  fields m _ := [within (byteAt m.payload 0) 0 1 0, reserved m.payload 1 3, within (u32 m.payload 4) 1 16772864 4]
  body m s := do
    let die := byteAt m.payload 0
    require (!(s.cairn.update.any fun e => e.1 == die)) (plainErr stState)
    let s1 := setBank s die (targetBank s) fun _ => {}
    .ok { state := { s1 with cairn := { s1.cairn with
            update := s1.cairn.update ++ [(die, u32 m.payload 4)], updateBank := some (targetBank s) } }
          status := stAccepted, final := some 0 }

/-- audit.fw_data (0x0D11, R525): programs a block of header or image at its bank offset. -/
def opAuditFwData : OpDef where
  code := 0x0D11
  field := false
  len b := 8 ≤ b.length && b.length ≤ 8 + 4064
  fields m s :=
    let b := m.payload
    let size := match s.cairn.update.find? fun e => e.1 == byteAt b 0 with
      | some e => 256 + e.2
      | none => 256 + 16772864
    [within (byteAt b 0) 0 1 0, reserved b 1 3, (u32 b 4 + (b.length - 8) ≤ size, 4)]
  body m s := do
    let b := m.payload
    let die := byteAt b 0
    require (s.cairn.update.any fun e => e.1 == die) (plainErr stState)
    okState (setBank s die (targetBank s) fun k => { k with image := (u32 b 4, b.drop 8) :: k.image })

/-- A programmed image keeps R518, R520 and, with the audit lock engaged, R526. -/
def imageVerified (s : State) (die : Nat) : Bool :=
  let b := bankAt s die (targetBank s)
  let h := b.header
  let n := u32 h 4
  let slot := byteAt h 2
  let run := bankAt s die s.cairn.bank
  byteAt h 0 == die + 1 && byteAt h 1 == 1 && slot < 4 && !(s.cairn.revoked.getD slot true) && byteAt h 3 < 2 &&
    1 ≤ n && n ≤ 16772864 && u32 h 12 ≤ 63 && s.cairn.counters.getD die 0 ≤ u32 h 12 &&
    Config.ecdsaVerify (leB 97 (Config.rootKey slot)) (Config.sha384 (h.take 80)) (slice h 80 96) &&
    leB 48 (Config.sha384 (b.bytes n)) == slice h 32 48 &&
    (!auditLock s || (run.fwVersion < u32 h 8 && run.security ≤ u32 h 12))

/-- A bank image sealed with a seal number (R519, R525): what its header says of it stands. -/
def sealImage (seq : BitVec 32) (b : Bank) : Bank :=
  let h := b.header
  { b with
    fwVersion := u32 h 8, security := u32 h 12, headerHash := Config.sha384 h, imageBytes := u32 h 4
    advance := bit (byteAt h 3) 0, sealRec := sealRecord seq (u32 h 8) (Config.sha384 h), booted := false }

/-- The number of the next seal: the latest plus 1 (R525). -/
def nextSeal (s : State) : BitVec 32 :=
  match laterBank s with
  | none => 1
  | some k => ((sealOf s k).getD 0) + 1

/-- audit.fw_seal (0x0D12, R525, R526): verifies both images and seals the field image, then the host image. The update is over
either way (log 55). -/
def opAuditFwSeal : OpDef where
  code := 0x0D12
  field := false
  len b := b.length == 0
  body _ s := do
    let k ← orErr s.cairn.updateBank (plainErr stState)
    let idle := { s with cairn := { s.cairn with update := [], updateBank := none } }
    if imageVerified s 0 && imageVerified s 1 then
      let seq := nextSeal s
      let s1 := setBank (setBank idle 1 k (sealImage seq)) 0 k (sealImage seq)
      let s2 := hostEvent 0x0D03 0 (le 1 k ++ le 1 0 ++ le 1 0) (hostEvent 0x0D03 0 (le 1 k ++ le 1 1 ++ le 1 0) s1)
      .ok { state := s2, status := stAccepted, final := some stOk }
    else
      .ok { state := { idle with cairn := { idle.cairn with sealRejected := true } }, status := stAccepted, final := some stSignature }

/-- audit.fw_query (0x0D13). -/
def opAuditFwQuery : OpDef where
  code := 0x0D13
  field := false
  len b := b.length == 0
  body _ s :=
    let one := fun (k die : Nat) =>
      le 4 (bankAt s die k).fwVersion ++ le 4 (bankAt s die k).security ++ le 1 (flag (sealOf s k).isSome) ++ zeros 3
    okBytes s (one 0 0 ++ one 0 1 ++ one 1 0 ++ one 1 1 ++ le 1 s.cairn.bank)

/-! ### Host keys -/

/-- audit.key_enrol (0x0D20, R517): the first key while none is enrolled; later ones signed by a key with the enrol right. -/
def opAuditKeyEnrol : OpDef where
  code := 0x0D20
  field := false
  len b := b.length == 201
  fields m _ :=
    let b := m.payload
    [within (byteAt b 0) 0 7 0, reserved b 2 2, within (byteAt b 101) 0 7 101, reserved b 102 3]
  allowed m s :=
    s.cairn.keys.all (·.isNone) || (s.cairn.keys.getD (byteAt m.payload 101) none).any fun k => Config.enrolRight (BitVec.ofNat 8 k.rights)
  body m s := do
    let b := m.payload
    let signed := match s.cairn.keys.getD (byteAt b 101) none with
      | none => s.cairn.keys.all (·.isNone)
      | some k => Config.ecdsaVerify k.key (Config.sha384 (b.take 105)) (slice b 105 96)
    require signed (plainErr stSignature)
    okState { s with cairn := { s.cairn with
      keys := setAt s.cairn.keys (byteAt b 0) (some ⟨slice b 4 97, byteAt b 1⟩) } }

/-! ### Debug -/

/-- The debug level in force (R495, R530, R531). -/
def debugLevel (s : State) : Nat := byteAt s.power.options 2

/-- DEBUG_SESSION. -/
def debugEvent (opened : Bool) (d : DebugSession) (s : State) : State :=
  hostEvent 0x0D04 0 (le 1 (flag opened) ++ le 1 d.scope ++ le 2 d.duration) s

/-- A debug session closes (R493, R532): what it held halted goes on. -/
def closeDebug (s : State) : State :=
  match s.cairn.dbg with
  | none => s
  | some d =>
    let s1 := markDebug s
    debugEvent false d { s1 with cairn := { s1.cairn with dbg := none }, cps := { s1.cps with halted := [false, false, false] } }

/-- audit.debug_challenge (0x0D30, R531). -/
def opAuditDebugChallenge : OpDef where
  code := 0x0D30
  field := false
  len b := b.length == 0
  allowed _ s := debugLevel s != 0
  body _ s :=
    let c := Config.random s.fresh
    okBytes { s with fresh := s.fresh + 1, cairn := { s.cairn with challenge := some (c, s.time.clock) } } (leB 48 c)

/-- audit.debug_open (0x0D31, R523, R531, R532). -/
def opAuditDebugOpen : OpDef where
  code := 0x0D31
  field := false
  len b := b.length == 104
  fields m _ :=
    let b := m.payload
    [below (byteAt b 0) 5 0, reserved b 1 1, within (u16 b 2) 1 3600 2, within (byteAt b 4) 0 1 4, reserved b 5 3]
  allowed _ s := debugLevel s != 0
  body m s := do
    let b := m.payload
    let (c, at_) ← orErr s.cairn.challenge (plainErr stSignature)
    require (s.time.clock < at_ + 60000000000) (plainErr stSignature)
    let h := Config.sha384 (leB 48 c ++ slice b 0 1 ++ slice b 2 2)
    require (Config.ecdsaVerify (leB 97 (Config.debugKey (byteAt b 4))) h (slice b 8 96)) (plainErr stSignature)
    let d : DebugSession := ⟨byteAt b 0, u16 b 2, s.time.clock + 1000000000 * u16 b 2⟩
    let s1 := extend 3 h (closeDebug s)
    okState (debugEvent true d (markDebug { s1 with cairn := { s1.cairn with challenge := none, dbg := some d } }))

/-- audit.debug_close (0x0D32, R532). -/
def opAuditDebugClose : OpDef where
  code := 0x0D32
  field := false
  len b := b.length == 0
  allowed _ s := debugLevel s != 0
  body _ s := okState (closeDebug s)

/-- DEBUG_SESSION_EXPIRY (R532). -/
def execDebugSessionExpiry (s : State) : Out :=
  .next (match s.cairn.dbg with
    | none => s
    | some d => if d.until_ ≤ s.time.clock then closeDebug s else s)

/-- DEBUG_CHALLENGE_EXPIRY (R531): 60 s. -/
def execDebugChallengeExpiry (s : State) : Out :=
  .next (match s.cairn.challenge with
    | none => s
    | some (_, t) => if t + 60000000000 ≤ s.time.clock then { s with cairn := { s.cairn with challenge := none } } else s)

/-- A request of the debugger lies within what is open (R531, R532): level 2, or a session with this scope bit. -/
def debugMay (k : Nat) (s : State) : Bool :=
  debugLevel s == 2 || (debugLevel s == 1 && s.cairn.dbg.any fun d => bit d.scope k)

/-- A DBG message reaches the FS (R10, R25): both dies run and a forward data channel of Saddle is in service. -/
def dbgCarried (s : State) : Bool := !s.power.hostReset && !s.power.fieldReset && s.saddle.forward.contains true

/-- An access of the debug port to a segment, by the FS (R25, R399, R400): a request at its port. -/
def debugAccess (write : Bool) (segment : Nat) (s : State) : State :=
  let address := 64 * segment
  let p := subchannel s.mem.inForce address
  if !s.mem.trained ∨ s.store.installed ≤ address ∨ 4 ≤ slotsUsed (portAt s p) 20 then s
  else enterPort p ⟨20, .arrival, 64, write, BitVec.ofNat 38 address, .none, false⟩ false s

/-- DEBUG_REQUEST (R400, R493, R531, R532; R486 code 10): a request outside what is open is discarded; one for
the field die goes to the FS in a DBG message (R10, R25). -/
def execDebugRequest (req : DebugReq) (s : State) : Out :=
  match req with
  | .attach =>
    .next (if debugLevel s = 2 then { extend 3 (Config.random s.fresh) s with fresh := s.fresh + 1 } else s)
  | .halt e =>
    .next (if debugMay e.val s && (e.val != 2 || dbgCarried s) then { s with cps := { s.cps with halted := setAt s.cps.halted e.val true } } else s)
  | .resume e =>
    .next (if debugMay e.val s && (e.val != 2 || dbgCarried s) then { s with cps := { s.cps with halted := setAt s.cps.halted e.val false } } else s)
  | .portAccess write segment => .next (if debugMay 3 s && dbgCarried s && fsRuns s then debugAccess write segment s else s)
  | .resetScope scope =>
    if debugMay 4 s then
      done s (resetScope 10 scope.val { s with cairn := { s.cairn with resetCalls := (scope.val, none) :: s.cairn.resetCalls } })
    else .next s

def execAuditOpen (m : Msg) (s : State) : Out := .next (message opAuditOpen m s)
def execAuditClose (m : Msg) (s : State) : Out := .next (message opAuditClose m s)
def execAuditRead (m : Msg) (s : State) : Out := .next (message opAuditRead m s)
def execAuditAck (m : Msg) (s : State) : Out := .next (message opAuditAck m s)
def execAuditQuote (m : Msg) (s : State) : Out := .next (message opAuditQuote m s)
def execAuditFwBegin (m : Msg) (s : State) : Out := .next (message opAuditFwBegin m s)
def execAuditFwData (m : Msg) (s : State) : Out := .next (message opAuditFwData m s)
def execAuditFwSeal (m : Msg) (s : State) : Out := .next (message opAuditFwSeal m s)
def execAuditFwQuery (m : Msg) (s : State) : Out := .next (message opAuditFwQuery m s)
def execAuditKeyEnrol (m : Msg) (s : State) : Out := .next (message opAuditKeyEnrol m s)
def execAuditDebugChallenge (m : Msg) (s : State) : Out := .next (message opAuditDebugChallenge m s)
def execAuditDebugOpen (m : Msg) (s : State) : Out := .next (message opAuditDebugOpen m s)
def execAuditDebugClose (m : Msg) (s : State) : Out := .next (message opAuditDebugClose m s)

end Sys2Proof.Machine
end

