-- ==== Sys2Proof/Machine/Failover.lean ====
section
/-! DEFINITION. Fail-over of the control processors (R503 to R511): heartbeats, declarations, the switch-over, the way of the
standby back to READY, and `sys.failover_*`. The return at a quiet point stands with the fetch engine (Machine/Fetch.lean). -/

namespace Sys2Proof.Machine

/-- A CP is out of core reset: the active one once released, the standby once past RESET. -/
def cpRuns (s : State) (cp : Nat) : Bool :=
  !s.power.hostReset && s.cps.released &&
    (cp == s.cps.active || !(s.cps.standby == .reset || s.cps.standby == .removed))

/-- HB_PATH: a path of a CP lost or restored; the path status of FAILOVER_STATUS follows. -/
def pathEvent (cp : Nat) (wire lost : Bool) (s : State) : State :=
  let c := s.cps
  let c1 :=
    if wire then
      let l := setAt c.lostWire cp lost
      { c with lostWire := l, pathWire := !l.any id }
    else
      let l := setAt c.lostMbx cp lost
      { c with lostMbx := l, pathMbx := !l.any id }
  hostEvent 0x0152 0 (le 1 cp ++ le 1 (flag wire) ++ le 1 (flag (!lost))) { s with cps := c1 }

/-- HEARTBEAT (R504, R505). -/
def execHeartbeat (cp : Fin 2) (wire : Bool) (seq : BitVec 4) (fault : Bool) (s : State) : Out :=
  let k := cp.val
  if !cpRuns s k then .next s
  else
    let c := s.cps
    let now := some s.time.clock
    let s1 : State := { s with cps :=
      if wire then { c with
        beatWire := setAt c.beatWire k now, faultWire := setAt c.faultWire k fault, seqWire := setAt c.seqWire k seq
        pathWire := !c.lostWire.any id }
      else { c with
        beatMbx := setAt c.beatMbx k now, faultMbx := setAt c.faultMbx k fault, seqMbx := setAt c.seqMbx k seq
        pathMbx := !c.lostMbx.any id } }
    let wasLost := (if wire then c.lostWire else c.lostMbx).getD k false
    done s (if wasLost then pathEvent k wire false s1 else s1)

/-- Beats missing on a path in a row: one every 100 µs since the last (R504); none are expected before the first. -/
def missing (s : State) (last : Option Nat) : Nat :=
  match last with
  | none => 0
  | some t => (s.time.clock - t) / 100000

/-- What is known of a CP that is reset: its beats, faults and lost paths. -/
def forgetBeats (cp : Nat) (c : Failover) : Failover :=
  { c with
    beatMbx := setAt c.beatMbx cp none, beatWire := setAt c.beatWire cp none
    faultMbx := setAt c.faultMbx cp false, faultWire := setAt c.faultWire cp false
    lostMbx := setAt c.lostMbx cp false, lostWire := setAt c.lostWire cp false
    halted := setAt c.halted cp false }

/-- The switch-over (R506 to R508, R540): `who` becomes the active CP, the other one's state is `left`; the gap, at most 2,048
H-REF periods, is a free value (log 54). -/
def switchTo (who cause : Nat) (left : StandbyState) (s : State) : State :=
  let (g, s) := takeFree 32 s
  let gap := g % 81921
  let s1 : State := { s with
    cps := { s.cps with
      active := who, standby := left, switchovers := (s.cps.switchovers + 1) % 2 ^ 32, lastGap := gap }
    mbx := { s.mbx with activeCp := who } }
  let s2 := if s1.mbx.running then writeStatusBlock s1 else s1
  hostEvent 0x0150 0 (le 1 who ++ le 1 cause ++ zeros 2 ++ le 4 gap) 
    (if cause = 5 then s2 else auditRuns (fun _ => true) (fun a => { a with tkCp := a.tkCp + 1 }) s2)

/-- The declarations of a CP within the last 24 h (R511). -/
def recentDecl (s : State) (cp : Nat) : List Nat :=
  (s.cps.declared.getD cp []).filter fun t => s.time.clock < t + 86400000000000

/-- AO-H declares a CP failed (R492, R505, R506, R511). -/
def declareCp (cp cause code : Nat) (s : State) : State :=
  let again : Bool := !(recentDecl s cp).isEmpty
  let left : StandbyState := if again then .removed else .reset
  let s1 : State := { s with cps := { forgetBeats cp s.cps with
    declared := setAt s.cps.declared cp (s.time.clock :: recentDecl s cp), lastDecl := s.time.te } }
  if cp ≠ s.cps.active then
    standbyEvent cp (if again then 3 else 1) left (recordReset code (3 + cp) s1)
  else if s.cps.standby = .ready then
    let s2 := switchTo (1 - cp) cause left (recordReset code (3 + cp) s1)
    if again then standbyEvent cp 3 left s2 else s2
  else resetHost false (recordReset code 1 s1)

/-- CP_DECLARATION (R505): AO-H judges a CP by its beats. -/
def execCpDeclaration (cp : Fin 2) (s : State) : Out :=
  let k := cp.val
  if !cpRuns s k then .next s
  else
    let c := s.cps
    let mbx := missing s (c.beatMbx.getD k none)
    let wire := missing s (c.beatWire.getD k none)
    let faultMbx := c.faultMbx.getD k false
    let faultWire := c.faultWire.getD k false
    if 3 ≤ mbx ∧ 3 ≤ wire then done s (declareCp k 1 7 s)
    else if (8 ≤ mbx ∧ faultWire) ∨ (8 ≤ wire ∧ faultMbx) then done s (declareCp k 2 7 s)
    else if 3 ≤ mbx ∧ !faultWire ∧ !c.lostMbx.getD k false then done s (pathEvent k false true s)
    else if 3 ≤ wire ∧ !faultMbx ∧ !c.lostWire.getD k false then done s (pathEvent k true true s)
    else .next s

/-- CP_WATCHDOG (R486 codes 7 and 13, R492, R493, R505 cases 3 and 4): paused while a debug session holds the CP halted. -/
def execCpWatchdog (cp : Fin 2) (lockup : Bool) (s : State) : Out :=
  if !cpRuns s cp.val ∨ s.cps.halted.getD cp.val false then .next s
  else done s (declareCp cp.val (if lockup then 4 else 3) (if lockup then 13 else 7) s)

/-- CP_STANDBY (R503): the CP held in RESET is released into its self-test. The recovery code runs on CP0 alone. -/
def execCpStandby (s : State) : Out :=
  if s.power.hostReset ∨ !s.cps.released ∨ s.cairn.recovery ∨ s.cps.standby ≠ .reset then .next s
  else done s (standbyEvent (1 - s.cps.active) 0 .selftest s)

/-- STANDBY_SELFTEST_DONE (R503, R511, R516): the self-test on the way to READY, or a pass of the test in service, which pauses
from throttle step T1 on and while a debug session holds the CP. -/
def execStandbySelftestDone (pass : Bool) (s : State) : Out :=
  let cp := 1 - s.cps.active
  let tests := if pass then (s.cps.tests + 1) % 2 ^ 32 else s.cps.tests
  let s1 : State := { s with cps := { s.cps with tests := tests } }
  match s.cps.standby with
  | .selftest => done s (if pass then standbyEvent cp 0 .syncing s1 else standbyEvent cp 2 .removed s1)
  | .ready =>
    if s.thermal.step ≠ 0 ∨ s.cps.halted.getD cp false then .next s
    else done s (if pass then s1 else standbyEvent cp 2 .removed { s1 with cps := forgetBeats cp s1.cps })
  | _ => .next s

/-- SNAPSHOT_COMPLETE (R503). -/
def execSnapshotComplete (s : State) : Out :=
  if s.cps.standby = .syncing then done s (standbyEvent (1 - s.cps.active) 0 .ready s) else .next s

/-- sys.failover_config (0x0151). -/
def opSysFailoverConfig : OpDef where
  code := 0x0151
  field := false
  len b := b.length == 4
  fields m _ := [below (byteAt m.payload 0) 1 0, reserved m.payload 1 3]
  body m s := okState { s with cps := { s.cps with autoReturn := bit (byteAt m.payload 0) 0 } }

/-- sys.failover_query (0x0150). -/
def opSysFailoverQuery : OpDef where
  code := 0x0150
  field := false
  len b := b.length == 0
  body _ s :=
    let c := s.cps
    okBytes s (le 1 c.active ++ le 1 c.standby.number ++ le 1 (flag c.pathMbx + 2 * flag c.pathWire) ++
      le 1 (flag s.bench.lsbActive + 128 * flag s.bench.lsRemoved) ++ le 4 c.switchovers ++ le 4 c.lastGap ++
      le 8 (c.lastDecl / 1000000000) ++ le 4 (c.lastDecl % 1000000000) ++ le 4 c.tests ++ zeros 4)

def execSysFailoverConfig (m : Msg) (s : State) : Out := done s (message opSysFailoverConfig m s)
def execSysFailoverQuery (m : Msg) (s : State) : Out := .next (message opSysFailoverQuery m s)

end Sys2Proof.Machine
end

