-- ==== Sys2Proof/Machine/Links.lean ====
section
/-! DEFINITION. SETT links (08) once ACTIVE: the link layer (R254 to R262), TIME blocks (R266), lane health, spare lanes and
cores (R267 to R270), link loss and return (R271), and the `sett` messages (R276 to R278). -/

namespace Sys2Proof.Machine

/-! ### The link layer -/

/-- Packet types that a link's far end may send (R254). -/
def typeOk (k type : Nat) : Bool :=
  if k < 8 ∨ k = 12 ∨ k = 13 then 0x21 ≤ type && type ≤ 0x24 else if k = 8 ∨ k = 9 then 0x30 ≤ type && type ≤ 0x33 else false

/-- A good packet (R254, R262): handed on to the step of its type (log 39), or discarded and counted; its units are granted
again either way. -/
def takeGood (k : Nat) (packet : Bytes) (s : State) : State :=
  let len := u16 packet 2
  let type := byteAt packet 0
  setLink s k fun n =>
    let n := { n with granted := (n.granted + ceilDiv (8 + len) 64) % 65536 }
    if byteAt packet 1 = 0 ∧ typeOk k type then
      { n with inbox := (n.inbox ++ [(type, slice packet 4 len)]).drop (n.inbox.length - 255) }
    else { n with badPackets := n.badPackets + 1 }

/-- The first packet of a stream that begins with a header: whether it is whole or cannot be, and its bytes (R254). -/
def firstPacket (b : Bytes) : Option (Bool × Bytes) :=
  if b.length < 4 then none
  else
    let n := 8 + u16 b 2
    if !lengthOk (u16 b 2) then some (false, b)
    else if b.length < n then none
    else some (crc32c (slice b 0 (n - 4)) == w32 b (n - 4), b.take n)

/-- PACKET_RECEIVE (R254, R257 to R260): the next packet of a lane's byte stream is checked: handed on where its CRC is good,
else discarded with all that follows and NAKed. -/
def execPacketReceive (lane : Fin 24) (s : State) : Out :=
  .next (
    let l := lane.val
    let k := servedLink s l
    let x := laneAt s l
    if (linkAt s k).state ≠ .active then s
    else match firstPacket x.rxBytes with
      | none => s
      | some (true, p) =>
        takeGood k p (setLane s l fun x => { x with rxBytes := skipPadding 512 (x.rxBytes.drop p.length) })
      | some (false, _) =>
        setLane s l fun x => { x.damaged 0 with
          crcFail := count32 x.crcFail, crcAt := (s.time.clock :: x.crcAt).take 2048 })

/-- RESUME, and every kept block from a number onward sent again (R259). -/
def replay (l : Nat) (from_ : BitVec 16) (s : State) : State :=
  let s1 := putControl (servedLink s l) l (le 1 0x5A ++ leB 2 from_) s
  setLane s1 l fun x =>
    let again := x.kept.dropWhile fun e => e.1 != from_
    let y := again.foldl (fun (x : Lane) e => Lane.send false e.2 x) x
    { y with
      replays := count32 x.replays
      replayAt := (s.time.clock :: x.replayAt).take 256
      advanceAt := s.time.clock }

/-- Kept blocks before an ack_seq freed, and further ones sent (R259); a SYNC is asked for or no longer (R260). -/
def freeKept (now : Nat) (seq : BitVec 16) (sync : Bool) (x : Lane) : Lane :=
  let known := x.kept.any (fun e => e.1 == seq) || seq == x.txSeq
  let kept := if known then x.kept.dropWhile fun e => e.1 != seq else x.kept
  pumpLane 64 { x with
    kept := kept
    advanceAt := if kept.length < x.kept.length then now else x.advanceAt
    syncAsked := sync }

/-- The partner's report of its receive lanes' lock (R268). -/
def noteFarLock (k flags : Nat) (s : State) : State :=
  (logicalLanes k).foldl (fun s i => setLane s (laneFor s k i) fun y => { y with
    farLostAt := if bit flags (2 + i) then none else some (y.farLostAt.getD s.time.clock) })
    (setLink s k fun n => { n with farLock0 := bit flags 2, farLock1 := bit flags 3 })

/-- An ACK taken (R259, R260, R262, R263): kept blocks freed, a replay on NAK, credit, locks and fire_limit taken; a NAK that
names a block no longer kept brings the link down. -/
def takeAck (l : Nat) (block : Bytes) (s : State) : State :=
  let k := servedLink s l
  let x := laneAt s l
  let seq := BitVec.ofNat 16 (u16 block 1)
  let flags := byteAt block 3
  if (linkAt s k).state ≠ .active then s
  else if bit flags 0 ∧ !(x.kept.any (fun e => e.1 == seq) || seq == x.txSeq) then linkEvent k 2 (startPass k none s)
  else
    let s1 := setLane s l (freeKept s.time.clock seq (bit flags 1))
    let s2 := setLink (noteFarLock k flags s1) k fun n => { n with
      credit := u16 block 6, fireLimit := if k < 8 then u16 block 4 else n.fireLimit }
    flushGeneral k 1024 (if bit flags 0 then replay l seq s2 else s2)

/-- ACK (R259). -/
def execAck (lane : Fin 24) (s : State) : Out := .next (onBlock lane.val 0x55 (takeAck lane.val) s)

/-- The lanes on which a link sends: each logical lane's, a wired spare in its place. -/
def sendLanes (s : State) (k : Nat) : List Nat := (logicalLanes k).map (laneFor s k)

/-- The ACK of one lane of a link (R258): its next block expected, NAK and SYNC for its own receiver. -/
def ownAck (s : State) (k l : Nat) : Bytes :=
  let x := laneAt s l
  let lock := fun (i : Nat) => (logicalLanes k).contains i && (laneAt s (laneFor s k i)).isLocked
  le 1 0x55 ++ le 2 x.expected ++
    le 1 (flag x.nakDue + 2 * flag (!x.isLocked) + 4 * flag (lock 0) + 8 * flag (lock 1)) ++ le 2 0 ++
    le 2 (linkAt s k).granted ++ zeros 8

/-- An ACK sent on one lane. -/
def sendAck (k l : Nat) (s : State) : State :=
  setLane (putControl k l (ownAck s k l) s) l fun x => { x with
    sinceAck := 0, ackAt := s.time.clock, nakDue := false, lockDue := false }

/-- ACK_SEND (R258): after 16 data blocks on a lane, every 1 µs, or at once on a NAK or a change of lock, an ACK goes out on
every lane of the link. -/
def execAckSend (lane : Fin 24) (s : State) : Out :=
  .next (
    let k := servedLink s lane.val
    let x := laneAt s lane.val
    if (linkAt s k).state ≠ .active ∨ !(16 ≤ x.sinceAck ∨ x.ackAt + 1000 ≤ s.time.clock ∨ x.nakDue ∨ x.lockDue) then s
    else (sendLanes s k).foldl (fun s l => sendAck k l s) s)

/-- REPLAY_TIMEOUT (R259): no ack_seq advance for 2 µs while blocks are kept. -/
def execReplayTimeout (lane : Fin 24) (s : State) : Out :=
  .next (
    let x := laneAt s lane.val
    match x.kept with
    | [] => s
    | b :: _ => if x.advanceAt + 2000 ≤ s.time.clock then replay lane.val b.1 s else s)

/-- RESUME (R260): the number expected ends the discarding. -/
def execResume (lane : Fin 24) (s : State) : Out :=
  .next (onBlock lane.val 0x5A (fun b s =>
    if u16 b 1 = (laneAt s lane.val).rxEnd / 16 then setLane s lane.val fun x => { x with discarding := false } else s) s)

/-- SYNC (R240, R241, R260): a received SYNC reloads the descrambler; with none received, the device sends one on request,
every 10 µs. -/
def execSync (lane : Fin 24) (s : State) : Out :=
  .next (
    let l := lane.val
    let x := laneAt s l
    if x.next?.any fun b => b.h0 && !b.h1 && byteAt b.payload 0 == 0x33 then
      onBlock l 0x33 (fun b s => setLane s l fun x => { x with rxScr := BitVec.ofNat 31 (u32 b 4), seedOk := true }) s
    else if x.syncAsked ∧ due x.syncAt 10000 s.time.clock then
      setLane (putControl (servedLink s l) l (le 1 0x33 ++ zeros 3 ++ leB 4 x.txScr) s) l fun x =>
        { x with syncAt := some s.time.clock }
    else s)

/-- TIME_BLOCK (R266): every 1 ms on lane 0 of a camera link, the tick at which it reaches the hub. -/
def execTimeBlock (face : Fin 2) (s : State) : Out :=
  .next (
    let k := 8 + face.val
    let n := linkAt s k
    if n.state = .active ∧ n.timeAt + 1000000 ≤ s.time.clock then
      -- ticks of 10 ns with the latency of the link in 1/16 tick: in 1/256 tick
      let t := s.time.field * 256 / 10 + n.latency * 16
      putControl k (laneFor s k 0) (le 1 0x78 ++ le 4 (t / 256) ++ le 1 (t % 256) ++ zeros 10) (setLink s k fun n => { n with timeAt := s.time.clock })
    else s)

/-! ### Lane health and spares -/

/-- The device's own eye report of a lane (R267): the eye is measured anew, free values. -/
def sendEye (l : Nat) (s : State) : State :=
  let x := laneAt s l
  let (h, s) := takeFree 16 s
  let (w, s) := takeFree 8 s
  let (c, s) := takeFree 8 s
  let errors := min 65535 (x.headerErr + x.stuffViol - x.eyeErrors)
  let s := setLane s l fun x => { x with
    eyeHeight := h, eyeWidth := w, eyeKnown := true, eyeAt := s.time.clock, eyeErrors := x.headerErr + x.stuffViol }
  putControl (servedLink s l) l
    (le 1 0x71 ++ le 1 (logicalOf s l) ++ le 2 h ++ le 1 w ++ le 1 c ++ le 2 errors ++ zeros 8) s

/-- EYE (R267): a partner's report is kept for the lane it names; with none received, the device sends its own, every 100 ms.
-/
def execEye (lane : Fin 24) (s : State) : Out :=
  .next (
    let l := lane.val
    let k := servedLink s l
    let x := laneAt s l
    if x.next?.any fun b => b.h0 && !b.h1 && byteAt b.payload 0 == 0x71 then
      onBlock l 0x71 (fun b s =>
        if (logicalLanes k).contains (byteAt b 1) then
          setLane s (laneFor s k (byteAt b 1)) fun x => { x with partnerEye := slice b 1 8, partnerEyeKnown := true }
        else s) s
    else if (linkAt s k).state = .active ∧ x.eyeAt + 100000000 ≤ s.time.clock then sendEye l s
    else s)

/-- Events of the last second in a list of clocks. -/
def lastSecond (s : State) (l : List Nat) : Nat := (l.filter fun t => s.time.clock < t + 1000000000).length

/-- The condition of a lane with its cause (R268): 0 good, 1 degraded, 2 failed. -/
def laneCondition (s : State) (x : Lane) : Nat × Nat :=
  let longLost := fun (o : Option Nat) => o.any fun t => t + 100000 ≤ s.time.clock
  let smallOwn := x.eyeKnown && (decide (x.eyeHeight < 20) || decide (x.eyeWidth < 16))
  let smallFar := x.partnerEyeKnown && (decide (u16 x.partnerEye 1 < 20) || decide (byteAt x.partnerEye 3 < 16))
  if longLost x.lostAt || longLost x.farLostAt then (2, 3)
  else if 1024 < lastSecond s x.crcAt then (2, 4)
  else if 64 < lastSecond s x.replayAt then (1, 1)
  else if smallOwn || smallFar then (1, 2)
  else (0, x.healthCause)

/-- The lane's link goes on without its failed lane, or with it again (R268): a wired spare that fails leaves its place. -/
def judgeLane (l cond : Nat) (s : State) : State :=
  let k := servedLink s l
  let x := logicalOf s l
  let n := linkAt s k
  if (linkLanes k).length ≠ 2 ∨ laneFor s k x ≠ l then s
  else if cond = 2 then
    if n.down.contains x then s
    else setLink s k fun n => { n with
      down := n.down ++ [x], remaps := n.remaps.filter fun r => !(r.2.2 == x && r.2.1 == 0) }
  else if n.remaps.any fun r => r.2.2 == x then s
  else setLink s k fun n => { n with down := n.down.filter (· != x), alone := n.alone.filter (· != x) }

/-- LANE_HEALTH (R268): a lane enters or leaves a condition; a failed lane of a two-lane link carries no packets. -/
def execLaneHealth (lane : Fin 24) (s : State) : Out :=
  .next (
    let l := lane.val
    let c := laneCondition s (laneAt s l)
    if (linkAt s (linkOf l)).state ≠ .active ∨ c.1 = (laneAt s l).health then s
    else judgeLane l c.1 (fieldEvent 0x0803 0 (le 1 l ++ le 1 c.1 ++ le 1 c.2)
      (setLane s l fun x => { x with health := c.1, healthCause := c.2 })))

/-- A spare lane or its core is in use (R269). -/
def spareTaken (s : State) (i : Nat) : Bool := s.sett.links.any fun k => k.remaps.any fun r => r.1 == 16 + i

/-- The spare lane wired to a bar's driver, ACTIVE and free (R269 order 1). -/
def wiredSpare (s : State) (b : Nat) : Option Nat :=
  ([0, 1].find? fun i =>
    (linkAt s (12 + i)).spareBar == some b && (linkAt s (12 + i)).state == .active && !spareTaken s i).map (16 + ·)

/-- A spare core that is free (R269 order 2). -/
def freeCore (s : State) : Option Nat := [0, 1].find? fun i => !(s.sett.cores.any fun c => c.1 == i) && !spareTaken s i

/-- A lane replaced by a spare, and no longer by another. -/
def Link.replaced (n : Link) (spare kind lane : Nat) : Link :=
  { n with
    remaps := (n.remaps.filter fun r => r.2.2 != lane) ++ [(spare, kind, lane)]
    down := if kind = 0 then n.down.filter (· != lane) else if n.down.contains lane then n.down else n.down ++ [lane]
    alone := n.alone.filter (· != lane)
    lanePass := if n.lanePass.any fun p => p.1 == lane then none else n.lanePass }

/-- The first possible remap of a bar lane (R269): REMAP goes out on the surviving lane. -/
def remapLane (b lane : Nat) (s : State) : State :=
  match wiredSpare s b with
  | some sp =>
    let s1 := putControl b (laneFor s b (1 - lane)) (le 1 0x69 ++ le 1 0 ++ le 1 lane) (setLink s b fun n => n.replaced sp 0 lane)
    remapEvent b lane 0 sp (auditRuns (runOn s b) (fun a => { a with tkLane := a.tkLane + 1 }) s1)
  | none => match freeCore s with
    | some i =>
      let s1 := setLink s b fun n => n.replaced (16 + i) 1 lane
      let cores := (s.sett.cores.filter fun c => !(c.2.1 == b && c.2.2.1 == lane)) ++ [(i, b, lane, s.time.clock)]
      let s2 := { s1 with sett := { s1.sett with cores := cores } }
      let s3 := setLane s2 (ownLane s b lane) fun x => { x with align := .hunt, rxBits := [], lostAt := some s.time.clock }
      remapEvent b lane 1 (16 + i) (auditRuns (runOn s b) (fun a => { a with tkLane := a.tkLane + 1 }) s3)
    | none => remapEvent b lane 3 0xFF (setLink s b fun n => { n with
        down := if n.down.contains lane then n.down else n.down ++ [lane], alone := n.alone ++ [lane] })

/-- LANE_REMAPPED (R269): a failed bar lane is remapped, or the link goes on without it. -/
def execLaneRemapped (bar : Fin 8) (lane : Fin 2) (s : State) : Out :=
  .next (
    let n := linkAt s bar.val
    if n.state = .active ∧ n.down.contains lane.val ∧ !n.alone.contains lane.val ∧
        !(n.remaps.any fun r => r.2.2 == lane.val) ∧ !(n.lanePass.any fun p => p.1 == lane.val) then
      remapLane bar.val lane.val s
    else s)

/-- SPARE_CORE_TIMEOUT (R269 order 2): a spare core whose lane is not LOCKED after 1 ms is released; order 3 applies. -/
def execSpareCoreTimeout (spare : Fin 2) (s : State) : Out :=
  .next (match s.sett.cores.find? (fun c => c.1 == spare.val) with
    | none => s
    | some (i, b, lane, since) =>
      if (laneAt s (ownLane s b lane)).isLocked ∨ s.time.clock < since + 1000000 then s else
      let s1 := { s with sett := { s.sett with cores := s.sett.cores.filter fun c => c.1 != i } }
      remapEvent b lane 3 0xFF (setLink s1 b fun n => { n with
        remaps := n.remaps.filter fun r => r.2.2 != lane
        down := if n.down.contains lane then n.down else n.down ++ [lane], alone := n.alone ++ [lane] }))

/-! ### Loss and return -/

/-- LINK_LOST (R271): no lane of a bar link has been LOCKED for 1 µs. -/
def execLinkLost (bar : Fin 8) (s : State) : Out :=
  .next (
    let b := bar.val
    let lanes := (List.range 2).map fun l => laneAt s (laneFor s b l)
    if (linkAt s b).state = .active ∧ lanes.all fun l => !l.isLocked && l.lostAt.any fun t => t + 1000 ≤ s.time.clock then
      let s1 := setLink (leaveActive b s) b fun n => { n with state := .offline, offlineTold := true }
      startPass b none (linkEvent b 2 s1)
    else s)

/-- The first line that lies at least `fa` lines ahead of the bar's fire position. -/
def lineAhead (s : State) (b fa : Nat) : Nat :=
  let units := 4 * (barQ s b : Int)
  -- fire position in lines, rounded up
  let up := -((-(s.pos.phi32 - (barAt s b).trim4 * 2 ^ 26)) / (units * 2 ^ 26))
  (up + (fa : Int)).toNat

/-- LINK_RETURN (R271): a bar link that is ACTIVE again gets its serve data and fires from a later line. -/
def execLinkReturn (bar : Fin 8) (s : State) : Out :=
  .next (
    let b := bar.val
    if (linkAt s b).state ≠ .active ∨ (barAt s b).driver ≠ 2 then s else
    let s1 := sendServe b (setBar s b fun x => { x with driver := 1 })
    if !barLive s b then setBar s1 b fun x => { x with resumeLine := none }
    else
      let r := lineAhead s b (barFa s b)
      setBar s1 b fun x => { x with resumeLine := some r, handed := [], nextPack := x.nextPack.map fun n => max n r })

/-! ### The `sett` messages -/

/-- A bar link with a channel in a run that holds reservations (R276). -/
def linkInUse (s : State) (k : Nat) : Bool :=
  k < 8 && s.objs.runs.live.any fun e => e.2.state.reserves && runOn s k e.2

/-- A spare lane in use (R276). -/
def spareInUse (s : State) (k : Nat) : Bool := 12 ≤ k && spareTaken s (k - 12)

/-- sett.config (0x0801, R276, R249). -/
def opSettConfig : OpDef where
  code := 0x0801
  len b := b.length == 8
  fields m _ :=
    let b := m.payload
    let k := byteAt b 0
    [within k 0 13 0, (12 ≤ k || byteAt b 1 ≤ 2, 1), below (byteAt b 2) 1 2,
     (byteAt b 3 == 0xFF || (12 ≤ k && byteAt b 3 ≤ 7), 3), reserved b 4 4]
  body m s := do
    let b := m.payload
    let k := byteAt b 0
    let n := linkAt s k
    let on := bit (byteAt b 2) 0
    let spare := if byteAt b 3 = 0xFF then none else some (byteAt b 3)
    let wasOn := n.state != .disabled
    let rate := if k < 12 then byteAt b 1 else n.rateCfg
    let newRate := wasOn && on && rate != n.rateCfg
    require (!(linkInUse s k && ((wasOn && !on) || newRate))) (plainErr stState)
    require (!(spareInUse s k && (!on || spare != n.spareBar))) (plainErr stState)
    let s1 := setLink s k fun n => { n with rateCfg := rate, spareBar := if k < 12 then none else spare, configured := n.configured || on }
    let rewired := wasOn && on && 12 ≤ k && spare != n.spareBar
    if !on then
      if wasOn then
        okState (linkEvent k 0 (setLink (leaveActive k s1) k fun n => { n with state := .disabled, pass := false, deferred := false, lanePass := none }))
      else okState s1
    else if !wasOn then okState (startPass k none (setLink s1 k fun n => { n with offlineTold := false }))
    else if newRate || rewired then okState (requestPass k s1)
    else okState s1

/-- sett.query (0x0802, R276). -/
def opSettQuery : OpDef where
  code := 0x0802
  len b := b.length == 4
  fields m _ := [within (byteAt m.payload 0) 0 13 0, reserved m.payload 1 3]
  body m s :=
    let k := byteAt m.payload 0
    let n := linkAt s k
    let code : Nat := match n.state with
      | .disabled => 0 | .training => 1 | .active => 2 | .offline => 3 | .refused => 4
    let lanes := linkLanes k
    let inv := (List.range 2).map fun i => (lanes[i]?).any fun l => (laneAt s l).inverted
    let laneBytes := fun (i : Nat) => match lanes[i]? with
      | none => zeros 32
      | some l =>
        let x := laneAt s l
        le 4 x.headerErr ++ le 4 x.stuffViol ++ le 4 x.crcFail ++ le 4 x.replays ++ le 2 x.lockLoss ++ le 2 x.eyeHeight ++
          x.partnerEye ++ zeros 4
    let remap := match n.remaps with
      | [] => [0xFF, 0]
      | (sp, kind, _) :: _ => le 1 sp ++ le 1 kind
    okBytes s (le 1 code ++ le 1 n.rate ++ le 1 n.phase ++ le 1 (flag n.swapped + 4 * flag n.swapped + 8 * bitsOf inv) ++
      le 4 n.latency ++ n.partner ++ remap ++ zeros 2 ++ laneBytes 0 ++ laneBytes 1 ++ zeros 4)

/-- sett.retrain (0x0803, R277, R249). -/
def opSettRetrain : OpDef where
  code := 0x0803
  len b := b.length == 4
  fields m _ := [within (byteAt m.payload 0) 0 13 0, reserved m.payload 1 3]
  body m s := do
    let k := byteAt m.payload 0
    require ((linkAt s k).state != .disabled && !linkInUse s k) (plainErr stState)
    okState (requestPass k s)

/-- The return of a remapped lane asked for (R270): REMAP with byte 1 set goes out, and the original lane begins a training
pass of its own. On a link that is not ACTIVE the spare is let go at once. -/
def returnLane (k lane : Nat) (s : State) : State :=
  let n := linkAt s k
  if n.lanePass.any fun p => p.1 == lane then s
  else if n.state ≠ .active then laneReturned k lane s
  else startLanePass k lane (putControl k (laneFor s k (1 - lane)) (le 1 0x69 ++ le 1 1 ++ le 1 lane) s)

/-- sett.remap (0x0804, R269, R270, R278). -/
def opSettRemap : OpDef where
  code := 0x0804
  len b := b.length == 4
  fields m _ :=
    let b := m.payload
    [within (byteAt b 0) 0 7 0, within (byteAt b 1) 0 1 1, within (byteAt b 2) 0 1 2, reserved b 3 1]
  body m s := do
    let k := byteAt m.payload 0
    let lane := byteAt m.payload 1
    let n := linkAt s k
    if byteAt m.payload 2 = 0 then
      require ((wiredSpare s k).isSome || (freeCore s).isSome) (plainErr stState)
      okState (remapLane k lane s)
    else
      require (n.remaps.any fun r => r.2.2 == lane) (plainErr stState)
      okState (returnLane k lane s)

def execSettConfig (m : Msg) (s : State) : Out := .next (message opSettConfig m s)
def execSettQuery (m : Msg) (s : State) : Out := .next (message opSettQuery m s)
def execSettRetrain (m : Msg) (s : State) : Out := .next (message opSettRetrain m s)
def execSettRemap (m : Msg) (s : State) : Out := .next (message opSettRemap m s)

end Sys2Proof.Machine
end

