-- ==== Sys2Proof/Machine/Sync.lean ====
section
/-! DEFINITION. The `sync` family (R55): sync.fence and sync.echo. The ordering that sync.fence keeps is the fetch
engine's (Machine/Fetch.lean); once it starts, every earlier message of its rings is complete. -/

namespace Sys2Proof.Machine

/-- sync.fence (0x0F01, R55). -/
def opSyncFence : OpDef where
  code := 0x0F01
  field := false
  len b := b.length == 4
  fields m _ := [below (byteAt m.payload 0) 4 0, reserved m.payload 1 3]
  body _ s := okState s

/-- sync.echo (0x0F02): the data bytes come back unchanged. -/
def opSyncEcho : OpDef where
  code := 0x0F02
  field := false
  len b := b.length ≤ 64
  body m s := okBytes s m.payload

def execSyncFence (m : Msg) (s : State) : Out := .next (message opSyncFence m s)
def execSyncEcho (m : Msg) (s : State) : Out := .next (message opSyncEcho m s)

end Sys2Proof.Machine
end

