-- ==== Sys2Proof/Machine/TimeTriggers.lean ====
section
/-! DEFINITION. Time triggers, timers and captures (R430 to R436, R438, R439). -/

namespace Sys2Proof.Machine

/-! ### Time triggers -/

/-- The device time that a trigger's output keeps (R430). -/
def outputTime (s : State) (out : Nat) : Nat := if out < 4 then s.time.field else s.time.te

/-- The trigger named is a time trigger (WRONGTYPE otherwise). -/
def isTimeTrigger (m : Msg) (s : State) : Bool := (triggerOf s m.handle).all fun t => match t.kind with
  | .time .. => true
  | .compare .. => false

/-- A pulse of a trigger on its output (R221, R430). -/
def outputPulse (out slot stop : Nat) (s : State) : State :=
  if out < 4 then fieldPulse out slot stop s
  else { s with time := { s.time with hostPulses := modAt s.time.hostPulses (out - 4) (addPulse slot stop) } }

/-- Every pulse of a trigger ends at once. -/
def endPulses (slot : Nat) (s : State) : State :=
  let s1 := endFieldPulse slot s
  { s1 with time := { s1.time with hostPulses := s1.time.hostPulses.map fun l => l.filter fun e => e.1 != slot } }

/-- Next time of a periodic trigger or timer after `now`, and the periods that lie at or before it. -/
def catchUp (next16 period16 now : Nat) : Nat := (now * 65536 + 65535 - next16) / period16

/-- One pulse of an armed time trigger at its time (R430, R432): counts, next time, the pulse and its event. -/
def givePulse (slot : Nat) (s : State) : State :=
  match s.objs.triggers.at? slot with
  | none => s
  | some t => match t.kind with
    | .compare .. => s
    | .time out event width period16 count =>
      let now := outputTime s out
      -- R432: what a step forward passed over beyond one pulse is skipped
      let k := if t.late ∧ period16 ≠ 0 then catchUp t.next16 period16 now else 0
      let given := t.hits + 1
      let skipped := t.skipped + k
      let more := period16 ≠ 0 && (count == 0 || given + skipped < count)
      let t' := { t with
        armed := more, hits := given, skipped := skipped, next16 := t.next16 + (k + 1) * period16, late := false }
      let s1 := outputPulse out slot (s.time.clock + width)
        { s with objs := { s.objs with triggers := s.objs.triggers.put slot t' } }
      let recent := t.eventAts.filter fun e => s.time.clock < e + 1000000000
      if event ∧ recent.length < 100 then
        let args := le 4 given ++ le 3 skipped ++ le 1 (flag t.late + 2 * flag (!more))
        let src := s.objs.triggers.handle tyTrigger slot
        let t'' := { t' with eventAts := s.time.clock :: recent }
        let s2 := { s1 with objs := { s1.objs with triggers := s1.objs.triggers.put slot t'' } }
        if out < 4 then fieldEvent 0x0C05 src args s2 else hostEvent 0x0C05 src args s2
      else s1

/-- TRIGGER_PULSE (R430). -/
def execTriggerPulse (trigger : Fin 128) (s : State) : Out :=
  .next (match s.objs.triggers.at? trigger.val with
    | none => s
    | some t => match t.kind with
      | .compare .. => s
      | .time out .. => if t.armed ∧ t.next16 / 65536 ≤ outputTime s out then givePulse trigger.val s else s)

/-- TRIGGER_PULSE_END (R430): pulses of the trigger that have had their width end. -/
def execTriggerPulseEnd (trigger : Fin 128) (s : State) : Out :=
  let s1 := expirePulse trigger.val s
  let keep : Nat × Nat → Bool := fun e => e.1 != trigger.val || s.time.clock < e.2
  .next { s1 with time := { s1.time with hostPulses := s1.time.hostPulses.map fun l => l.filter keep } }

/-- time.trigger_create (0x0C10, R430). -/
def opTimeTriggerCreate : OpDef where
  code := 0x0C10
  len b := b.length == 24
  fields m _ :=
    let b := m.payload
    let period := u64 b 8
    [within (byteAt b 0) 0 5 0, below (byteAt b 1) 1 1, reserved b 2 2,
     (10 ≤ u32 b 4 && (period == 0 || (u32 b 4 + 10) * 65536 ≤ period), 4), (period == 0 || 65536000 ≤ period, 8),
     reserved b 20 4]
  body m s := do
    let b := m.payload
    let t : Trigger :=
      { kind := .time (byteAt b 0) (bit (byteAt b 1) 0) (u32 b 4) (u64 b 8) (u32 b 16), armed := false, value := 0, hits := 0
        armHits := 0, skipped := 0, lastHit := 0, next16 := 0, eventAts := [] }
    let (i, tab) ← orErr (s.objs.triggers.create t) (plainErr stNoSpace)
    .ok { state := { s with objs := { s.objs with triggers := tab } }, handle := some (tab.handle tyTrigger i) }

/-- time.trigger_arm (0x0C11, R431, R438). -/
def opTimeTriggerArm : OpDef where
  code := 0x0C11
  types := [tyTrigger]
  kind := isTimeTrigger
  len b := b.length == 16
  fields m _ := [(u32 m.payload 8 < 1000000000, 8), reserved m.payload 12 4]
  body m s := do
    let t ← orErr (triggerOf s m.handle) (plainErr stNoHandle)
    match t.kind with
    | .compare .. => .error (offsetErr stWrongType 8)
    | .time out _ _ period16 count =>
      let start := timeAt m.payload 0
      let now := outputTime s out
      let t0 := { t with armed := true, hits := 0, skipped := 0, next16 := start * 65536, late := false }
      if now + 1000 ≤ start then okState (setTrigger s m.handle fun _ => t0)
      else if period16 = 0 then
        let s1 := setTrigger s m.handle fun _ => { t0 with late := true }
        okLate (givePulse (hIdx m.handle) s1) (le 4 0)
      else
        -- the first start + k × period at least 1 µs ahead
        let k := ceilDiv ((now + 1000 - start) * 65536) period16
        let t1 := { t0 with skipped := k, next16 := (start * 65536) + k * period16, armed := count == 0 || k < count }
        okLate (setTrigger s m.handle fun _ => t1) (le 4 (min k 0xFFFFFFFF))

/-- time.trigger_disarm (0x0C12, R438). -/
def opTimeTriggerDisarm : OpDef where
  code := 0x0C12
  urgent := true
  types := [tyTrigger]
  kind := isTimeTrigger
  len b := b.length == 0
  body m s := okState (endPulses (hIdx m.handle) (setTrigger s m.handle fun t => { t with armed := false, late := false }))

/-- time.trigger_destroy (0x0C13, R438, R433). -/
def opTimeTriggerDestroy : OpDef where
  code := 0x0C13
  types := [tyTrigger]
  kind := isTimeTrigger
  len b := b.length == 0
  body m s := do
    let t ← orErr (triggerOf s m.handle) (plainErr stNoHandle)
    require (!t.armed) (plainErr stState)
    let s1 := endPulses (hIdx m.handle) s
    okState { s1 with objs := { s1.objs with triggers := s1.objs.triggers.release (hIdx m.handle) } }

/-- time.trigger_query (0x0C14, R438). The next pulse time of a trigger that is not armed is a free value (log 48). -/
def opTimeTriggerQuery : OpDef where
  code := 0x0C14
  types := [tyTrigger]
  kind := isTimeTrigger
  len b := b.length == 0
  body m s := do
    let t ← orErr (triggerOf s m.handle) (plainErr stNoHandle)
    let (v, s1) := if t.armed then (t.next16 / 65536, s) else takeFree 64 s
    okBytes s1 (le 1 (flag t.armed) ++ zeros 3 ++ le 4 t.hits ++ le 4 t.skipped ++ le 8 (v / 1000000000) ++ le 4 (v % 1000000000))

/-! ### Timers -/

/-- One expiry of a running timer (R432, R434). -/
def expireTimer (slot : Nat) (t : Timer) (s : State) : State :=
  let k := if t.late then catchUp t.next16 t.period16 s.time.field else 0
  let n := t.expired + 1
  let skipped := t.skipped + k
  let t' := { t with
    running := t.count == 0 || n + skipped < t.count, expired := n, skipped := skipped
    next16 := t.next16 + (k + 1) * t.period16, late := false }
  fieldEvent 0x0C06 (s.objs.timers.handle tyTimer slot) (le 4 n ++ le 4 skipped)
    { s with objs := { s.objs with timers := s.objs.timers.put slot t' } }

/-- TIMER_EXPIRED (R434). -/
def execTimerExpired (timer : Fin 32) (s : State) : Out :=
  .next (match s.objs.timers.at? timer.val with
    | none => s
    | some t => if t.running ∧ t.next16 / 65536 ≤ s.time.field then expireTimer timer.val t s else s)

/-- time.timer_create (0x0C18, R439): created and started, a late start as in R431. -/
def opTimeTimerCreate : OpDef where
  code := 0x0C18
  len b := b.length == 24
  fields m _ := [(u32 m.payload 8 < 1000000000, 8), (65536000000 ≤ u64 m.payload 16, 16)]
  body m s := do
    let b := m.payload
    let start := timeAt b 0
    let period := u64 b 16
    let count := u32 b 12
    let now := s.time.field
    let late := start < now + 1000
    let k := if late then ceilDiv ((now + 1000 - start) * 65536) period else 0
    let t : Timer :=
      { running := count == 0 || k < count, next16 := start * 65536 + k * period, period16 := period, count := count
        expired := 0, skipped := k }
    let (i, tab) ← orErr (s.objs.timers.create t) (plainErr stNoSpace)
    let s1 := { s with objs := { s.objs with timers := tab } }
    if late then .ok { state := s1, status := stLate, handle := some (tab.handle tyTimer i), payload := le 4 (min k 0xFFFFFFFF) }
    else .ok { state := s1, handle := some (tab.handle tyTimer i) }

/-- time.timer_stop (0x0C1A, R434). -/
def opTimeTimerStop : OpDef where
  code := 0x0C1A
  urgent := true
  types := [tyTimer]
  len b := b.length == 0
  body m s := okState (setTimer s m.handle fun t => { t with running := false, late := false })

/-- time.timer_destroy (0x0C19, R76): STATE while the timer runs. -/
def opTimeTimerDestroy : OpDef where
  code := 0x0C19
  types := [tyTimer]
  len b := b.length == 0
  body m s := do
    let t ← orErr (timerOf s m.handle) (plainErr stNoHandle)
    require (!t.running) (plainErr stState)
    okState { s with objs := { s.objs with timers := s.objs.timers.release (hIdx m.handle) } }

/-! ### Captures -/

def captureAt (s : State) (i : Nat) : CaptureIn := s.time.captures.getD i {}
def setCapture (s : State) (i : Nat) (f : CaptureIn → CaptureIn) : State :=
  { s with time := { s.time with captures := modAt s.time.captures i f } }

/-- CAPTURE_LOST, at most once a second, while there are drops to report (R436). -/
def reportLost (i : Nat) (s : State) : State :=
  let c := captureAt s i
  if c.dropped ≠ 0 ∧ due c.lostAt 1000000000 s.time.clock then
    let s1 := setCapture s i fun c => { c with dropped := 0, lostAt := some s.time.clock }
    let args := le 1 i ++ zeros 3 ++ le 4 (min c.dropped 0xFFFFFFFF)
    if i < 4 then fieldEvent 0x0C08 0 args s1 else hostEvent 0x0C08 0 args s1
  else s

/-- The edges selected by a code include one of this polarity. -/
def edgeSelected (edges : Nat) (falling : Bool) : Bool := edges == 3 || (edges == 1 && !falling) || (edges == 2 && falling)

/-- CAPTURE (R435, R436): an edge is accepted once it has been stable for `filter` × 5 ns; its stamp is the time of its first
change. -/
def execCapture (input : Fin 6) (falling : Bool) (held : Nat) (s : State) : Out :=
  .next (
    let i := input.val
    let c := captureAt s i
    let at_ := s.time.clock - held
    let near : Bool := match c.edgeAt with
      | some t => decide (at_ < t + 100)
      | none => false
    if !edgeSelected c.edges falling ∨ held < 5 * c.filter ∨ near then s else
    let t := (if i < 4 then s.time.field else s.time.te) - held
    let epoch := if i < 4 then s.time.fieldEpoch else s.time.epoch
    let keep := c.records.length < 64
    let recent := c.eventAts.filter fun e => s.time.clock < e + 1000000000
    let tell : Bool := c.events && recent.length < 1000
    let s1 := setCapture s i fun c => { c with
      records := if keep then c.records ++ [⟨t, c.seq, falling, epoch⟩] else c.records
      seq := (c.seq + 1) % 65536, dropped := if keep then c.dropped else c.dropped + 1
      eventAts := if tell then s.time.clock :: recent else recent, edgeAt := some at_ }
    let r : EventRec := ⟨0x0C07, 0, t, none, fit 8 (le 1 i ++ le 1 (flag falling) ++ le 2 c.seq ++ le 1 epoch), none, decide (i < 4)⟩
    let s2 := if !tell then s1 else if i < 4 then sendFieldRecord r s1 else { s1 with transit := s1.transit ++ [r] }
    reportLost i s2)

/-- time.capture_config (0x0C20). -/
def opTimeCaptureConfig : OpDef where
  code := 0x0C20
  len b := b.length == 4
  fields m _ := [within (byteAt m.payload 0) 0 5 0, within (byteAt m.payload 1) 0 3 1, below (byteAt m.payload 3) 1 3]
  body m s :=
    let b := m.payload
    okState (setCapture s (byteAt b 0) fun c => { c with
      edges := byteAt b 1, filter := byteAt b 2, events := bit (byteAt b 3) 0 })

/-- The 16 bytes of a capture record. -/
def CaptureRec.bytes (r : CaptureRec) : Bytes :=
  le 6 (r.time / 1000000000) ++ le 2 r.seq ++ le 4 (r.time % 1000000000) ++ le 1 (flag r.falling) ++ le 1 r.epoch ++ zeros 2

/-- time.capture_read (0x0C21, R436). -/
def opTimeCaptureRead : OpDef where
  code := 0x0C21
  len b := b.length == 4
  fields m _ := [within (byteAt m.payload 0) 0 5 0, reserved m.payload 1 3]
  body m s :=
    let i := byteAt m.payload 0
    let l := (captureAt s i).records
    okBytes (reportLost i (setCapture s i fun c => { c with records := [] })) (le 4 l.length ++ l.flatMap CaptureRec.bytes)

def execTimeTriggerCreate (m : Msg) (s : State) : Out := .next (message opTimeTriggerCreate m s)
def execTimeTriggerArm (m : Msg) (s : State) : Out := .next (message opTimeTriggerArm m s)
def execTimeTriggerDisarm (m : Msg) (s : State) : Out := .next (message opTimeTriggerDisarm m s)
def execTimeTriggerDestroy (m : Msg) (s : State) : Out := .next (message opTimeTriggerDestroy m s)
def execTimeTriggerQuery (m : Msg) (s : State) : Out := .next (message opTimeTriggerQuery m s)
def execTimeTimerCreate (m : Msg) (s : State) : Out := .next (message opTimeTimerCreate m s)
def execTimeTimerStop (m : Msg) (s : State) : Out := .next (message opTimeTimerStop m s)
def execTimeTimerDestroy (m : Msg) (s : State) : Out := .next (message opTimeTimerDestroy m s)
def execTimeCaptureConfig (m : Msg) (s : State) : Out := .next (message opTimeCaptureConfig m s)
def execTimeCaptureRead (m : Msg) (s : State) : Out := .next (message opTimeCaptureRead m s)

end Sys2Proof.Machine
end

