-- ==== Sys2Proof/Machine/Window.lean ====
section
/-! DEFINITION. Writes of the host register window (R35 to R40, R533 to R541) and PERST_N. While the host die is in reset the
link is down and no write arrives. -/

namespace Sys2Proof.Machine

/-- An error bit of MBX_STATUS with its ring (R36, R39), and INT_STATUS.ERROR. -/
def setupError (ring : Nat) (s : State) : State :=
  interrupt 3 { s with mbx := { s.mbx with setupErr := true, errRing := ring } }

/-- A refused index write (R36): RING_ERR, ERR_RING and RING_ERROR. -/
def ringError (ring cause : Nat) (s : State) : State :=
  hostEvent 0x0104 0 (le 1 ring ++ le 1 cause)
    (interrupt 3 { s with mbx := { s.mbx with ringErr := true, errRing := ring } })

/-! ### MBX_CTRL -/

/-- Two stretches of host memory overlap. -/
def overlapping (a n b k : Nat) : Bool := a < b + k && b < a + n

/-- The rings of an invalid set (R34): those that overlap another ring or the status block. -/
def badRings (s : State) : List Nat :=
  let base := fun (n : Nat) => (s.mbx.base.getD n 0).toNat
  (List.range 6).filter fun n =>
    overlapping (base n) 1048576 s.mbx.statusBlk.toNat 64 ||
      (List.range 6).any fun k => k != n && overlapping (base n) 1048576 (base k) 1048576

/-- A write of ENABLE = 1 that takes effect (R39): the rings are checked, then the indices are 0 and the mailbox runs. Which
ring of an invalid set ERR_RING names is a free value among those concerned (log 51). -/
def enableMailbox (s : State) : State :=
  match badRings s with
  | [] =>
    writeStatusBlock { s with mbx := { s.mbx with
      enable := true, running := true, draining := false
      pi := List.replicate 6 0, ci := List.replicate 6 0, bells := List.replicate 4 []
      responses := [], talus := [], credits := [1, 2, 4, 8] } }
  | l =>
    let (n, s) := takeFree 8 s
    setupError (l.getD (n % l.length) 0) s

/-- ENABLE written 0 (R40): fetching stops at once; what has been fetched completes, then RUNNING clears. -/
def stopMailbox (s : State) : State :=
  if !s.mbx.enable then s
  else settleDrain { s with mbx := { s.mbx with enable := false, draining := s.mbx.running, bells := List.replicate 4 [] } }

/-- A write of MBX_CTRL. -/
def writeMbxCtrl (v : BitVec 32) (s : State) : State :=
  let s1 := { s with mbx := { s.mbx with ethEnable := v.getLsbD 1, ethPort := (v >>> 16).setWidth 16 } }
  if v.getLsbD 0 then
    if s.mbx.ready ∧ !s.mbx.enable ∧ !s.mbx.running then enableMailbox s1 else s1
  else stopMailbox s1

/-! ### Indices -/

/-- A write of RINGn_PI of a command ring (R36, R52). -/
def writePi (n : Nat) (v : BitVec 32) (s : State) : State :=
  let adv := (v - s.mbx.pi.getD n 0).toNat
  if 256 < ringHeld s n + adv then ringError n 1 s
  else if adv = 0 then s
  else
    let s1 := { s with mbx := { s.mbx with pi := setAt s.mbx.pi n v } }
    if s.mbx.running ∧ !s.mbx.draining then
      let places := s.mbx.arrivals + adv
      { s1 with mbx := { s1.mbx with
        arrivals := places, bells := modAt s1.mbx.bells n (· ++ [(v, places)]) } }
    else s1

/-- A write of RING4_CI or RING5_CI (R36): what lies before the new CI is consumed. -/
def writeCi (talus : Bool) (v : BitVec 32) (s : State) : State :=
  let n := if talus then 5 else 4
  let adv := (v - s.mbx.ci.getD n 0).toNat
  if ringHeld s n < adv then ringError n 2 s
  else
    let m := { s.mbx with ci := setAt s.mbx.ci n v }
    { s with mbx := if talus then { m with talus := m.talus.drop adv } else { m with responses := m.responses.drop adv } }

/-! ### Other registers -/

/-- The low or high half of a 64-bit register written. -/
def setHalf (old : BitVec 64) (high : Bool) (v : BitVec 32) : BitVec 64 :=
  if high then v ++ old.setWidth 32 else (old >>> 32).setWidth 32 ++ v

/-- A write of a base or status block register (R38): only while RUNNING is 0; reserved bits stay 0 (R7). -/
def writeSetup (reg : SetupReg) (v : BitVec 32) (s : State) : State :=
  if s.mbx.running then s
  else match reg with
    | .statusBlkLo => { s with mbx := { s.mbx with statusBlk := setHalf s.mbx.statusBlk false (v &&& 0xFFFFFFC0) } }
    | .statusBlkHi => { s with mbx := { s.mbx with statusBlk := setHalf s.mbx.statusBlk true v } }
    | .baseLo n => { s with mbx := { s.mbx with base := modAt s.mbx.base n.val fun b => setHalf b false (v &&& 0xFFFFF000) } }
    | .baseHi n => { s with mbx := { s.mbx with base := modAt s.mbx.base n.val fun b => setHalf b true v } }

/-- MBX_STATUS written: SETUP_ERR and RING_ERR are W1C. -/
def clearMbxStatus (v : BitVec 32) (s : State) : State :=
  { s with mbx := { s.mbx with
    setupErr := s.mbx.setupErr && !v.getLsbD 2, ringErr := s.mbx.ringErr && !v.getLsbD 3 } }

/-- WIN_ERR written: PARTIAL and UNDEFINED are W1C. -/
def clearWinErr (v : BitVec 32) (s : State) : State :=
  { s with win := { s.win with
    partialErr := s.win.partialErr && !v.getLsbD 0, undefinedErr := s.win.undefinedErr && !v.getLsbD 1 } }

/-- RESET_SEEN written (R537): a code that resets again at the same moment stays set. -/
def clearResetSeen (v newer : BitVec 32) (s : State) : State :=
  { s with win := { s.win with seen := (s.win.seen &&& ~~~(v &&& 0x1FFFE)) ||| (newer &&& 0x1FFFE) } }

/-- Vectors 0 to 3 that meet a test send their messages where they may (R539). -/
def sendVectors (p : Nat → Bool) (s : State) : State :=
  (List.range 4).foldl (fun s k => if p k && vectorOpen s k then sendVector k s else s) s

/-- INT_STATUS written (R539): a cause that coincides keeps its bit set and its message follows. -/
def clearIntStatus (v newer : BitVec 32) (s : State) : State :=
  let n : BitVec 4 := newer.setWidth 4
  sendVectors (fun k => n.getLsbD k)
    { s with win := { s.win with intStatus := (s.win.intStatus &&& ~~~(v.setWidth 4)) ||| n } }

/-- INT_MASK written (R539): a set bit that becomes unmasked sends its message. -/
def writeIntMask (v : BitVec 32) (s : State) : State :=
  let old := s.win.intMask
  sendVectors (fun k => old.getLsbD k && s.win.intStatus.getLsbD k) { s with win := { s.win with intMask := v.setWidth 4 } }

/-- A word of the MSI-X table written: an entry unmasked sends what is pending for it (PRESUMED: PCI Express, log 4). -/
def writeMsix (i : Nat) (v : BitVec 32) (s : State) : State :=
  let k := i / 4
  let s1 := { s with win := { s.win with msixTable := setAt s.win.msixTable i v } }
  if i % 4 = 3 ∧ !v.getLsbD 0 ∧ s.win.pba.getLsbD k then
    sendVector k { s1 with win := { s1.win with pba := s1.win.pba &&& ~~~(BitVec.ofNat 4 (2 ^ k)) } }
  else s1

/-- The read-only registers of the map outside the mailbox: a write of them has no effect. -/
def readOnlyReg (o : Nat) : Bool :=
  o == 0 || o == 4 || o == 8 || o == 12 || o == 0x100 || o == 0x108 || o == 0x10C || o == 0x110 || o == 0x200 || o == 0x204 ||
    (0x210 ≤ o && o ≤ 0x244) || (0x2000 ≤ o && o ≤ 0x200C) || (0x3000 ≤ o && o ≤ 0x3014) || o == 0xF800 || o == 0xF804

/-- A write of a ring register at 0x1100 + 0x10 × n (mailbox register map). -/
def writeRingReg (n k : Nat) (v : BitVec 32) (s : State) : State :=
  let r : Fin 6 := Fin.ofNat 6 n
  match k with
  | 0 => writeSetup (.baseLo r) v s
  | 1 => writeSetup (.baseHi r) v s
  | 2 => if n < 4 then writePi n v s else s
  | _ => if n < 4 then s else writeCi (n == 5) v s

/-- A whole aligned register written at an offset of BAR0 (R533, R534, BAR0 map). -/
def writeWord (o : Nat) (v : BitVec 32) (s : State) : State :=
  if o = 0x10 then { s with win := { s.win with scratch := v } }
  else if o = 0x14 then clearWinErr v s
  else if o = 0x104 then clearResetSeen v 0 s
  else if o = 0x1000 then writeMbxCtrl v s
  else if o = 0x1004 then clearMbxStatus v s
  else if o = 0x1008 then writeSetup .statusBlkLo v s
  else if o = 0x100C then writeSetup .statusBlkHi v s
  else if 0x1100 ≤ o ∧ o ≤ 0x115C then writeRingReg ((o - 0x1100) / 16) (o / 4 % 4) v s
  else if o = 0x1200 then clearIntStatus v 0 s
  else if o = 0x1204 then writeIntMask v s
  else if o = 0x1208 then { s with win := { s.win with holdoff := v.setWidth 16 } }
  else if 0xF000 ≤ o ∧ o < 0xF040 then writeMsix ((o - 0xF000) / 4) v s
  else if readOnlyReg o then s
  else discardWrite true o s

/-! ### Reads -/

/-- OPT_STATUS (20). -/
def optStatus (s : State) : Nat :=
  s.power.optCopy + 4 * flag s.power.writePending + 8 * flag s.power.opt3Pending + 16 * flag (auditLock s)

/-- ID (20). -/
def idWord (s : State) : Nat := 0x18022 + 2 ^ 20 * flag s.ident.auditFused

/-- A ring register as it reads (mailbox register map). -/
def readRingReg (n k : Nat) (s : State) : Nat :=
  match k with
  | 0 => (s.mbx.base.getD n 0).toNat % 2 ^ 32
  | 1 => (s.mbx.base.getD n 0).toNat / 2 ^ 32
  | 2 => (s.mbx.pi.getD n 0).toNat
  | _ => (s.mbx.ci.getD n 0).toNat

/-- The register at an offset of BAR0 as the host reads it (R533 to R535, R538, BAR0 map); an offset that the map does not list
reads as 0. A read has no side effect. -/
def readWord (o : Nat) (s : State) : Nat :=
  if o = 0 then idWord s
  else if o = 4 then deviceStatus s
  else if o = 8 then s.win.hostFw.toNat
  else if o = 12 then s.win.fieldFw.toNat
  else if o = 0x10 then s.win.scratch.toNat
  else if o = 0x14 then winErr s
  else if o = 0x100 then s.win.cause + 256 * s.win.reach
  else if o = 0x104 then s.win.seen.toNat
  else if o = 0x108 then s.win.hostResets
  else if o = 0x10C then s.win.fieldResets
  else if o = 0x110 then s.thermal.offCount
  else if o = 0x200 then optStatus s
  else if o = 0x204 then s.power.optSeq.toNat
  else if 0x210 ≤ o ∧ o ≤ 0x244 then u32 s.power.options (o - 0x210)
  else if o = 0x1000 then mbxCtrl s
  else if o = 0x1004 then mbxStatus s
  else if o = 0x1008 then s.mbx.statusBlk.toNat % 2 ^ 32
  else if o = 0x100C then s.mbx.statusBlk.toNat / 2 ^ 32
  else if 0x1100 ≤ o ∧ o ≤ 0x115C then readRingReg ((o - 0x1100) / 16) (o / 4 % 4) s
  else if o = 0x1200 then s.win.intStatus.toNat
  else if o = 0x1204 then s.win.intMask.toNat
  else if o = 0x1208 then s.win.holdoff.toNat
  else if o = 0x2000 then saddleStatus s
  else if o = 0x2004 then saddleChannels s
  else if o = 0x2008 then s.saddle.resends
  else if o = 0x200C then s.saddle.removals
  else if o = 0x3000 then failoverStatus s
  else if o = 0x3004 then s.cps.switchovers
  else if o = 0x3008 then s.cps.lastGap
  else if o = 0x300C then s.cps.lastDecl % 1000000000
  else if o = 0x3010 then s.cps.lastDecl / 1000000000 % 2 ^ 32
  else if o = 0x3014 then s.cps.lastDecl / 1000000000 / 2 ^ 32
  else if 0xF000 ≤ o ∧ o < 0xF040 then (s.win.msixTable.getD ((o - 0xF000) / 4) 0).toNat
  else if o = 0xF800 then s.win.pba.toNat
  else 0

/-- A read of 1, 2 or 4 bytes within one register of BAR0 (R533). -/
def readBytes (o n : Nat) (s : State) : Option Bytes :=
  if (n = 1 ∨ n = 2 ∨ n = 4) ∧ o % 4 + n ≤ 4 then some (slice (le 4 (readWord (o / 4 * 4) s)) (o % 4) n) else none

/-! ### The rows -/

/-- A write arrives only while the host die is out of reset. -/
def windowWrite (f : State → State) (s : State) : Out := if s.power.hostReset then .next s else .next (f s)

/-- MBX_ENABLE (R39). -/
def execMbxEnable (value : BitVec 32) (s : State) : Out := windowWrite (writeMbxCtrl value) s

/-- MBX_DISABLE (R40). -/
def execMbxDisable (value : BitVec 32) (s : State) : Out := windowWrite (writeMbxCtrl value) s

/-- MBX_ETH_ENABLE (R62): open sessions stay open (log 52). -/
def execMbxEthEnable (value : BitVec 32) (s : State) : Out := windowWrite (writeMbxCtrl value) s

/-- DOORBELL (R36). -/
def execDoorbell (ring : Fin 4) (value : BitVec 32) (s : State) : Out := windowWrite (writePi ring.val value) s

/-- CONSUMER_INDEX_WRITE (R36, R41, R60). -/
def execConsumerIndexWrite (talus : Bool) (value : BitVec 32) (s : State) : Out := windowWrite (writeCi talus value) s

/-- RING_SETUP_WRITE (R38). -/
def execRingSetupWrite (reg : SetupReg) (value : BitVec 32) (s : State) : Out := windowWrite (writeSetup reg value) s

/-- MBX_STATUS_CLEAR (R37's register table). -/
def execMbxStatusClear (value : BitVec 32) (s : State) : Out := windowWrite (clearMbxStatus value) s

/-- WIN_ERR_CLEAR (R534). -/
def execWinErrClear (value : BitVec 32) (s : State) : Out := windowWrite (clearWinErr value) s

/-- RESET_SEEN_CLEAR (R537). -/
def execResetSeenClear (value newer : BitVec 32) (s : State) : Out := windowWrite (clearResetSeen value newer) s

/-- INT_STATUS_CLEAR (R539). -/
def execIntStatusClear (value newer : BitVec 32) (s : State) : Out := windowWrite (clearIntStatus value newer) s

/-- INT_MASK_WRITE (R539). -/
def execIntMaskWrite (value : BitVec 32) (s : State) : Out := windowWrite (writeIntMask value) s

/-- REGISTER_WRITE (R533, R534): a whole aligned register; 8 bytes are two registers in rising order; anything else is
discarded. -/
def execRegisterWrite (offset : BitVec 16) (size : Nat) (value : BitVec 64) (s : State) : Out :=
  let o := offset.toNat
  windowWrite (fun s =>
    if size = 4 ∧ o % 4 = 0 then writeWord o (value.setWidth 32) s
    else if size = 8 ∧ o % 4 = 0 then writeWord (o + 4) ((value >>> 32).setWidth 32) (writeWord o (value.setWidth 32) s)
    else discardWrite false o s) s

/-- HOLDOFF_EXPIRY (R539): a holdoff of vector 0 or 1 ends with its bit set. -/
def execHoldoffExpiry (vector : Fin 2) (s : State) : Out :=
  .next (
    let k := vector.val
    let t := s.win.holdUntil.getD k 0
    if t = 0 ∨ s.time.clock < t then s
    else
      let s1 := { s with win := { s.win with holdUntil := setAt s.win.holdUntil k 0 } }
      if s.win.intStatus.getLsbD k ∧ vectorOpen s1 k then sendVector k s1 else s1)

/-- PERST_N (R486 code 16, R487, R536): the mailbox stops as under R40 and the registers of BAR0 are reset, those of the rings
once it has drained; those that show a state show it still (log 53). -/
def execPerstN (s : State) : Out :=
  let s1 := writeMbxCtrl 0xC67C0000 (recordReset 16 5 s)
  let m := { s1.mbx with setupErr := false, ringErr := false, errRing := 0 }
  done s { s1 with
    mbx := if m.running then { m with clearAtStop := true } else clearRings m
    win := { clearWindow s1.win with hostFw := s1.win.hostFw, fieldFw := s1.win.fieldFw } }

end Sys2Proof.Machine
end

