-- ==== Sys2Proof/Machine/Fetch.lean ====
section
/-! DEFINITION. The mailbox engine of the active CP: fetching (R41, R42), the checks that come before an operation's own (R46,
R574), ordering and fences (R52 to R57), completion (R49, R50), the Talus queue (R58 to R60), the messages of Ethernet
sessions (R66, R67), the command queue of the FS (R25, R48) and the return at a quiet point (R510). -/

namespace Sys2Proof.Machine

/-- Every operation of the opcode families (01). -/
def opTable : List OpDef :=
    [opSyncFence, opSyncEcho, opChanCreate, opChanDestroy, opChanQuery, opChanNextPlate, opRunCreate, opRunStart,
     opRunStop, opRunAbort, opRunDestroy, opRunQuery] ++
    [opPlateCreate, opPlateData, opPlateRead, opPlateSeal, opPlateDestroy, opPlateQuery, opPlateStoreQuery,
     opBenchToneWrite, opBenchNozzleWrite, opBenchScreenDefine, opBenchScreenWrite, opBenchSubstWrite] ++
    [opBenchStitchWrite, opBenchDropmapWrite, opBenchCommit, opBenchDiscard, opBenchRead, opBenchStatus, opBenchRotation,
     opBarGeomWrite, opBarGeomCommit, opBarQuery, opHeadQuery, opHeadBlank] ++
    [opHeadUnblank, opHeadBandMap, opBarFireEnable, opPosEncoderConfig, opPosTrackConfig, opPosQuery, opPosSet,
     opPosTrim, opPosMarkConfig, opPosEmuConfig, opPosFaultClear, opCmpCreate] ++
    [opCmpArm, opCmpDisarm, opCmpDestroy, opCmpQuery, opSettConfig, opSettQuery, opSettRetrain, opSettRemap, opCamCreate,
     opCamDestroy, opCamSensorWrite, opCamExposureWrite] ++
    [opCamParamWrite, opCamCommit, opCamActivate, opCamStatsRead, opCamCapture, opCamFrameRead, opCamQuery, opCalCreate,
     opCalDestroy, opCalAttach, opCalDetach, opCalParamWrite] ++
    [opCalRead, opCalWrite, opLoopHold, opLoopRelease, opLoopResume, opCalRecalc, opCalQuery, opCalChanQuery,
     opCalGateConfig, opCalGateWindow, opCalGateClear, opCalGateQuery] ++
    [opVdCreate, opVdDestroy, opVdAttach, opVdDetach, opVdPush, opVdVerifyConfig, opVdRejectConfig, opVdCancel,
     opVdResults, opVdQuery, opVdRecovery, opVdFontWrite] ++
    [opDiagMemConfig, opDiagMemQuery, opDiagMemTraining, opDiagArbPrio, opDiagArbCommit, opDiagArbQuery, opDiagAvsConfig,
     opDiagSlackQuery, opSysEthConfig, opSysEthQuery, opTimePtpConfig, opTimeServoConfig] ++
    [opTimeSet, opTimeQuery, opTimeTriggerCreate, opTimeTriggerArm, opTimeTriggerDisarm, opTimeTriggerDestroy,
     opTimeTriggerQuery, opTimeTimerCreate, opTimeTimerStop, opTimeTimerDestroy, opTimeCaptureConfig,
     opTimeCaptureRead] ++
    [opSysInterlockConfig, opSysInterlockLock, opSysInterlockRearm, opSysInterlockQuery, opSysSaddleQuery,
     opSysTempConfig, opSysTempQuery, opSysThermalHead, opSysThermalResume, opSysReset, opSysBootQuery,
     opSysOptionRead] ++
    [opSysOptionWrite, opSysPowerQuery, opSysFailoverConfig, opSysFailoverQuery, opAuditOpen, opAuditClose, opAuditRead,
     opAuditAck, opAuditQuote, opAuditFwBegin, opAuditFwData, opAuditFwSeal] ++
    [opAuditFwQuery, opAuditKeyEnrol, opAuditDebugChallenge, opAuditDebugOpen, opAuditDebugClose]

/-- The operation of an opcode (check 3 of R46). -/
def opOf (code : Nat) : Option OpDef := opTable.find? fun d => d.code == code

/-! ### Frames -/

/-- A command frame as it is read from its slot or datagram (R43). -/
structure Frame where
  opcode  : Nat
  version : Nat
  length  : Nat
  msg     : Msg
  crcOk   : Bool
  deriving DecidableEq, Repr

/-- A frame taken apart (R43, R44). -/
def readFrame (inst : Nat) (ring : Fin 4) (b : Bytes) : Frame :=
  let n := u32 b 12
  let m : Msg := ⟨inst, ring, w32 b 4, BitVec.ofNat 8 (byteAt b 3), w32 b 8, slice b 16 (min n 4072)⟩
  ⟨u16 b 0, byteAt b 2, n, m, n ≤ 4072 && w32 b (16 + n) == crc32c (slice b 0 (16 + n))⟩

/-- A command frame as the host writes it (R43, R44): opcode, version, flags, seq, handle, length, payload and crc, from offset
0 of the slot on. -/
def frameBytes (op version : Nat) (m : Msg) : Bytes :=
  let b := le 2 op ++ le 1 version ++ leB 1 m.flags ++ leB 4 m.seq ++ leB 4 m.handle ++ le 4 m.payload.length ++ m.payload
  b ++ leB 4 (crc32c b)

/-- Checks 1 to 4 of R46: the operation, or the error. -/
def earlyChecks (f : Frame) : Except OpErr OpDef := do
  require (f.length ≤ 4072) badLen
  require f.crcOk (offsetErr stBadLen 0xFFFFFFFF)
  require (f.version == 1) (plainErr stBadOp)
  let d ← orErr (opOf f.opcode) (plainErr stBadOp)
  require (flagsOk d f.msg) (offsetErr stBadArg 3)
  return d

/-- A message whose CRC or length is bad: none of its flags is obeyed (R51). -/
def untrusted (f : Frame) : Msg :=
  if f.length ≤ 4072 ∧ f.crcOk then f.msg else { f.msg with flags := 0 }

/-! ### Starting a message -/

/-- The operation of a waiting message started when nothing holds it any more. -/
def tryStart (e : InFlight) (s : State) : State :=
  if (heldBy s e).isEmpty then
    match opOf e.opcode with
    | some d => startMessage d e.msg e.arrival s
    | none => s
  else s

/-- A frame that has been fetched (R46, R574): answered at once where a check from 1 to 4 fails; else it waits for its turn, and
starts if nothing holds it. -/
def takeFrame (f : Frame) (place : Nat) (behind : List Ahead) (s : State) : State :=
  match earlyChecks f with
  | .error e => answer f.opcode (untrusted f) place e.status none e.payload none s
  | .ok _ =>
    let e : InFlight := ⟨f.opcode, f.msg, place, .waiting, s.time.clock, 0, behind⟩
    tryStart e { s with mbx := { s.mbx with inFlight := s.mbx.inFlight ++ [e] } }

/-! ### Fetching from the PCIe rings -/

/-- The place of a visible message in the order of R52. -/
def placeOf (s : State) (ring : Nat) (index : BitVec 32) : Nat :=
  let ci := s.mbx.ci.getD ring 0
  match (s.mbx.bells.getD ring []).find? fun e => (index - ci).toNat < (e.1 - ci).toNat with
  | some e => e.2 - (e.1 - index).toNat
  | none => s.mbx.arrivals

/-- What DMA finds in the slot of an index of a command ring (R35), `slots` the 256 slots of each ring; none: the read fails. -/
def slotAt (slots : List (List Bytes)) (ring : Nat) (index : BitVec 32) : Option Bytes :=
  (slots.getD ring [])[ringSlot ring index]?

/-- The slots of a ring that hold visible messages, with index and place. -/
def visible (s : State) (slots : List (List Bytes)) (ring : Fin 4) : List (BitVec 32 × Nat × Frame) :=
  let ci := s.mbx.ci.getD ring.val 0
  (List.range (ringHeld s ring.val)).map fun k =>
    let index := ci + BitVec.ofNat 32 k
    (index, placeOf s ring.val index, readFrame 0 ring ((slotAt slots ring.val index).getD []))

/-- The unfetched messages that are earlier than a message and hold it. -/
def aheadOf (s : State) (slots : List (List Bytes)) (f : Frame) (place : Nat) : List Ahead :=
  ([0, 1, 2, 3] : List (Fin 4)).flatMap fun r =>
    ((visible s slots r).filter fun v =>
      v.2.1 < place && (match earlyChecks v.2.2 with
        | .ok _ => holds v.2.2.opcode v.2.2.msg f.opcode f.msg
        | .error _ => false)).map fun v => ⟨r.val, v.1, v.2.1, v.2.2.msg.seq, v.2.2.msg.handle⟩

/-- The class that the weighted round robin turns to, and the fetches left to each (02 Ordering): 8, 4, 2 and 1 in a turn. -/
def nextClass (s : State) : Option (Nat × List Nat) :=
  let full := [3, 2, 1, 0].filter fun r => ringHeld s r != 0
  match full.find? fun r => s.mbx.credits.getD r 0 != 0 with
  | some r => some (r, modAt s.mbx.credits r (· - 1))
  | none => match full with
    | [] => none
    | r :: _ => some (r, modAt [1, 2, 4, 8] r (· - 1))

/-- The ring to fetch from: ring 3 where an URGENT message stands at its head, else the round robin's. -/
def chooseRing (s : State) (slots : List (List Bytes)) : Option (Nat × List Nat) :=
  let head := readFrame 0 3 ((slotAt slots 3 (s.mbx.ci.getD 3 0)).getD [])
  if ringHeld s 3 ≠ 0 ∧ isUrgent head.msg then some (3, s.mbx.credits) else nextClass s

/-- One command fetched from a ring (R41, R42): its CI passes it and is mirrored. Where the DMA read of its slot fails, RING_ERROR
with cause 3 is written and nothing is fetched (R60; log 135). -/
def fetchFrom (ring : Fin 4) (credits : List Nat) (slots : List (List Bytes)) (s : State) : State :=
  let r := ring.val
  let index := s.mbx.ci.getD r 0
  match slotAt slots r index with
  | none => hostEvent 0x0104 0 (le 1 r ++ le 1 3) s
  | some b =>
  let f := readFrame 0 ring b
  let place := placeOf s r index
  let behind := aheadOf s slots f place
  let ci := index + 1
  let s1 := writeStatusBlock { s with mbx := { s.mbx with
    ci := setAt s.mbx.ci r ci, credits := credits, bells := modAt s.mbx.bells r fun l => l.filter fun e => e.1 != ci } }
  takeFrame f place behind s1

/-- COMMAND_FETCH (R41, R42, R46): a response can be reserved for the command. -/
def execCommandFetch (slots : List (List (List Byte))) (s : State) : Out :=
  if s.power.hostReset ∨ !s.mbx.running ∨ s.mbx.draining ∨ !responseFree s then .next s
  else match chooseRing s slots with
    | none => .next s
    | some (r, credits) => done s (fetchFrom (Fin.ofNat 4 r) credits slots s)

/-- FENCE_RELEASE (R53 to R56): the first waiting message that nothing holds any more starts. -/
def execFenceRelease (s : State) : Out :=
  match s.mbx.inFlight.find? fun e => e.phase == .waiting && (heldBy s e).isEmpty with
  | none => .next s
  | some e => done s (tryStart e s)

/-- A fence (R57). -/
def waitsAsFence (e : InFlight) : Bool := e.phase == .waiting && (isFence e.msg || e.opcode == 0x0F01)

/-- The first of what holds a message in the order of R52. -/
def oldest (l : List Ahead) : Option Ahead := leastBy (fun a => (a.place : Int)) l

/-- FENCE_WAIT (R57): a fence has waited another second. -/
def execFenceWait (s : State) : Out :=
  .next (match s.mbx.inFlight.find? fun e =>
      waitsAsFence e && e.since + 1000000000 * (e.warned + 1) ≤ s.time.clock && !(heldBy s e).isEmpty with
    | none => s
    | some e => match oldest (heldBy s e) with
      | none => s
      | some a =>
        let l := s.mbx.inFlight.map fun x => if x = e then { x with warned := x.warned + 1 } else x
        hostEventTo (some e.msg.inst) 0x0103 a.handle (leB 4 a.seq ++ le 1 a.ring) { s with mbx := { s.mbx with inFlight := l } })

/-- The status of a message that has reached its completion point. -/
def finalStatus (e : InFlight) : Option Nat :=
  match e.phase with
  | .finished st => some st
  | _ => none

/-- MESSAGE_COMPLETION (R49, R50, R51): an accepted message has reached its completion point; its DONE event is written. -/
def execMessageCompletion (s : State) : Out :=
  .next (match s.mbx.inFlight.find? fun e => (finalStatus e).isSome with
    | none => s
    | some e =>
      let s1 := doneEvent e.msg ((finalStatus e).getD 0) s
      settleDrain { s1 with mbx := { s1.mbx with inFlight := s1.mbx.inFlight.filter (· != e) } })

/-! ### The Talus queue -/

/-- A record written to the Talus queue (R37, R58). -/
def writeTalus (r : EventRec) (s : State) : State :=
  let s := hostWrite (ringAddress s 5 (s.mbx.pi.getD 5 0)) (TalusRec.bytes ⟨s.mbx.sequence, r⟩) s
  interrupt 1 (writeStatusBlock { s with mbx := { s.mbx with
    talus := s.mbx.talus ++ [⟨s.mbx.sequence, r⟩]
    sequence := (s.mbx.sequence + 1) % 65536
    pi := modAt s.mbx.pi 5 (· + 1) } })

/-- The queue takes a record. -/
def talusFree (s : State) : Bool := s.mbx.running && s.mbx.talus.length < 32768

/-- Records held are written while there is space, TALUS_LOST first (R60). -/
def flushTalus : Nat → State → State
  | 0, s => s
  | fuel + 1, s =>
    if !talusFree s then s
    else if s.mbx.dropped ≠ 0 then
      flushTalus fuel (writeTalus (lostRecord s.mbx.dropped s) { s with mbx := { s.mbx with dropped := 0 } })
    else match s.mbx.held with
      | [] => s
      | r :: rest => flushTalus fuel (writeTalus r { s with mbx := { s.mbx with held := rest } })

/-- A record for the PCIe instance: written, held or dropped (R60). -/
def pcieRecord (r : EventRec) (s : State) : State :=
  let s := flushTalus 1026 s
  if talusFree s ∧ s.mbx.held = [] ∧ s.mbx.dropped = 0 then writeTalus r s
  else if s.mbx.held.length < 1024 then { s with mbx := { s.mbx with held := s.mbx.held ++ [r] } }
  else { s with mbx := { s.mbx with dropped := s.mbx.dropped + 1 } }

/-- EVENT_RECORD_WRITE (R40, R59, R60, R68): the next record that reaches the active CP. -/
def execEventRecordWrite (s : State) : Out :=
  .next (if !s.mbx.ready then s else match s.transit with
    | [] => s
    | r :: rest =>
      let s1 : State := { s with transit := rest }
      let s2 := if goesTo r 0 then pcieRecord r s1 else s1
      settleDrain ((s.eth.sessions.filter fun q => goesTo r q.session.toNat).foldl
        (fun s q => sessionRecord q.session.toNat r s) s2))

/-- TALUS_LOST (R60): space has returned; what was dropped is reported, then what was held is written. -/
def execTalusLost (s : State) : Out := .next (flushTalus 1026 s)

/-! ### Messages of a session -/

/-- A command of a session executed in its turn (R67). -/
def takeSessionFrame (inst : Nat) (f : Frame) (s : State) : State :=
  let s1 := setSession inst (fun q => { q with nextSeq := modAt q.nextSeq f.msg.ring.val (· + 1) }) s
  let place := s1.mbx.arrivals + 1
  takeFrame f place [] { s1 with mbx := { s1.mbx with arrivals := place } }

/-- Messages held for a missing seq that are now in turn (R67). -/
def takeGap (inst : Nat) (ring : Fin 4) : Nat → State → State
  | 0, s => s
  | fuel + 1, s =>
    match sessionAt s inst with
    | none => s
    | some q =>
      match q.gap.find? fun e => e.1 == ring.val && e.2.1 == q.nextSeq.getD ring.val 1 with
      | none => s
      | some e => takeGap inst ring fuel (takeSessionFrame inst (readFrame inst ring e.2.2.1)
          (setSession inst (fun q => { q with gap := q.gap.filter (· != e) }) s))

/-- MESSAGE (R66, R67): executed in the order of seq; a repeated one is answered from storage; one that is early is held. -/
def execMessage (session : BitVec 32) (ring : Fin 4) (counter : Nat) (plain : Option (List Byte)) (s : State) : Out :=
  let inst := session.toNat
  let (s1, b) := takeDatagram session counter plain s
  match b, sessionAt s1 inst with
  | some b, some q =>
    let f := readFrame inst ring b
    let n := f.msg.seq.toNat
    let next := q.nextSeq.getD ring.val 1
    let r := ring.val
    if n = next then done s (takeGap inst ring 64 (takeSessionFrame inst f s1))
    else if n < next then
      match q.stored.find? fun e => e.1 == r && e.2.1 == n with
      | some e => .next (if next ≤ n + 1024 then sendDatagram inst 0x10 e.2.2.frame s1 else s1)
      | none => .next s1
    else if (q.gap.filter fun e => e.1 == r).length < 64 ∧ !(q.gap.any fun e => e.1 == r && e.2.1 == n) then
      .next (setSession inst (fun q => { q with gap := q.gap ++ [(r, n, b, s.time.clock)] }) s1)
    else .next s1
  | _, _ => .next s1

/-- SEQ_GAP_TIMEOUT (R67): held messages whose gap is still open after 50 ms are discarded. -/
def execSeqGapTimeout (session : BitVec 32) (ring : Fin 4) (s : State) : Out :=
  .next (setSession session.toNat (fun q => { q with
    gap := q.gap.filter fun e => !(e.1 == ring.val && e.2.2.2 + 50000000 ≤ s.time.clock) }) s)

/-! ### The FS -/

/-- FMS_COMMAND_EXECUTE (R25, R26, R77): the FS executes the message at the front of its queue, with its checks again. -/
def execFmsCommandExecute (s : State) : Out :=
  if !fsRuns s then .next s
  else match s.saddle.fsQueue with
    | [] => .next s
    | (op, m, place) :: rest =>
      let s1 : State := { s with saddle := { s.saddle with fsQueue := rest } }
      match opOf op with
      | none => .next s1
      | some d => done s (runOp d m place s1)

/-! ### The quiet point -/

/-- A message that the active CP executes itself is incomplete (R510). -/
def cpBusy (s : State) : Bool :=
  s.mbx.inFlight.any fun e => e.phase != .forwarded && (opOf e.opcode).any fun d => !d.field

/-- QUIET_POINT_RETURN (R510): CP0 takes the active role back; CP1 stays as READY standby. -/
def execQuietPointReturn (s : State) : Out :=
  if s.cps.active = 1 ∧ s.cps.standby = .ready ∧ s.cps.autoReturn ∧ !cpBusy s ∧ ringHeld s 3 = 0 then
    done s (switchTo 0 5 .ready s)
  else .next s

end Sys2Proof.Machine
end

