-- ==== Sys2Proof/Machine/Dispatch.lean ====
section
/-! DEFINITION. The dispatch: one arm per command, each one direct call of its meaning. -/

namespace Sys2Proof.Machine

def exec (i : Instr) (s : State) : Host.Outcome State Fault Refusal :=
  match i with
  | .syncFence m => Sys2Proof.Machine.execSyncFence m s
  | .syncEcho m => Sys2Proof.Machine.execSyncEcho m s
  | .chanCreate m => Sys2Proof.Machine.execChanCreate m s
  | .chanDestroy m => Sys2Proof.Machine.execChanDestroy m s
  | .chanQuery m => Sys2Proof.Machine.execChanQuery m s
  | .chanNextPlate m => Sys2Proof.Machine.execChanNextPlate m s
  | .runCreate m => Sys2Proof.Machine.execRunCreate m s
  | .runStart m => Sys2Proof.Machine.execRunStart m s
  | .runStop m => Sys2Proof.Machine.execRunStop m s
  | .runAbort m => Sys2Proof.Machine.execRunAbort m s
  | .runDestroy m => Sys2Proof.Machine.execRunDestroy m s
  | .runQuery m => Sys2Proof.Machine.execRunQuery m s
  | .plateCreate m => Sys2Proof.Machine.execPlateCreate m s
  | .plateData m => Sys2Proof.Machine.execPlateData m s
  | .plateRead m => Sys2Proof.Machine.execPlateRead m s
  | .plateSeal m => Sys2Proof.Machine.execPlateSeal m s
  | .plateDestroy m => Sys2Proof.Machine.execPlateDestroy m s
  | .plateQuery m => Sys2Proof.Machine.execPlateQuery m s
  | .plateStoreQuery m => Sys2Proof.Machine.execPlateStoreQuery m s
  | .benchToneWrite m => Sys2Proof.Machine.execBenchToneWrite m s
  | .benchNozzleWrite m => Sys2Proof.Machine.execBenchNozzleWrite m s
  | .benchScreenDefine m => Sys2Proof.Machine.execBenchScreenDefine m s
  | .benchScreenWrite m => Sys2Proof.Machine.execBenchScreenWrite m s
  | .benchSubstWrite m => Sys2Proof.Machine.execBenchSubstWrite m s
  | .benchStitchWrite m => Sys2Proof.Machine.execBenchStitchWrite m s
  | .benchDropmapWrite m => Sys2Proof.Machine.execBenchDropmapWrite m s
  | .benchCommit m => Sys2Proof.Machine.execBenchCommit m s
  | .benchDiscard m => Sys2Proof.Machine.execBenchDiscard m s
  | .benchRead m => Sys2Proof.Machine.execBenchRead m s
  | .benchStatus m => Sys2Proof.Machine.execBenchStatus m s
  | .benchRotation m => Sys2Proof.Machine.execBenchRotation m s
  | .barGeomWrite m => Sys2Proof.Machine.execBarGeomWrite m s
  | .barGeomCommit m => Sys2Proof.Machine.execBarGeomCommit m s
  | .barQuery m => Sys2Proof.Machine.execBarQuery m s
  | .headQuery m => Sys2Proof.Machine.execHeadQuery m s
  | .headBlank m => Sys2Proof.Machine.execHeadBlank m s
  | .headUnblank m => Sys2Proof.Machine.execHeadUnblank m s
  | .headBandMap m => Sys2Proof.Machine.execHeadBandMap m s
  | .barFireEnable m => Sys2Proof.Machine.execBarFireEnable m s
  | .posEncoderConfig m => Sys2Proof.Machine.execPosEncoderConfig m s
  | .posTrackConfig m => Sys2Proof.Machine.execPosTrackConfig m s
  | .posQuery m => Sys2Proof.Machine.execPosQuery m s
  | .posSet m => Sys2Proof.Machine.execPosSet m s
  | .posTrim m => Sys2Proof.Machine.execPosTrim m s
  | .posMarkConfig m => Sys2Proof.Machine.execPosMarkConfig m s
  | .posEmuConfig m => Sys2Proof.Machine.execPosEmuConfig m s
  | .posFaultClear m => Sys2Proof.Machine.execPosFaultClear m s
  | .cmpCreate m => Sys2Proof.Machine.execCmpCreate m s
  | .cmpArm m => Sys2Proof.Machine.execCmpArm m s
  | .cmpDisarm m => Sys2Proof.Machine.execCmpDisarm m s
  | .cmpDestroy m => Sys2Proof.Machine.execCmpDestroy m s
  | .cmpQuery m => Sys2Proof.Machine.execCmpQuery m s
  | .settConfig m => Sys2Proof.Machine.execSettConfig m s
  | .settQuery m => Sys2Proof.Machine.execSettQuery m s
  | .settRetrain m => Sys2Proof.Machine.execSettRetrain m s
  | .settRemap m => Sys2Proof.Machine.execSettRemap m s
  | .camCreate m => Sys2Proof.Machine.execCamCreate m s
  | .camDestroy m => Sys2Proof.Machine.execCamDestroy m s
  | .camSensorWrite m => Sys2Proof.Machine.execCamSensorWrite m s
  | .camExposureWrite m => Sys2Proof.Machine.execCamExposureWrite m s
  | .camParamWrite m => Sys2Proof.Machine.execCamParamWrite m s
  | .camCommit m => Sys2Proof.Machine.execCamCommit m s
  | .camActivate m => Sys2Proof.Machine.execCamActivate m s
  | .camStatsRead m => Sys2Proof.Machine.execCamStatsRead m s
  | .camCapture m => Sys2Proof.Machine.execCamCapture m s
  | .camFrameRead m => Sys2Proof.Machine.execCamFrameRead m s
  | .camQuery m => Sys2Proof.Machine.execCamQuery m s
  | .calCreate m => Sys2Proof.Machine.execCalCreate m s
  | .calDestroy m => Sys2Proof.Machine.execCalDestroy m s
  | .calAttach m => Sys2Proof.Machine.execCalAttach m s
  | .calDetach m => Sys2Proof.Machine.execCalDetach m s
  | .calParamWrite m => Sys2Proof.Machine.execCalParamWrite m s
  | .calRead m => Sys2Proof.Machine.execCalRead m s
  | .calWrite m => Sys2Proof.Machine.execCalWrite m s
  | .loopHold m => Sys2Proof.Machine.execLoopHold m s
  | .loopRelease m => Sys2Proof.Machine.execLoopRelease m s
  | .loopResume m => Sys2Proof.Machine.execLoopResume m s
  | .calRecalc m => Sys2Proof.Machine.execCalRecalc m s
  | .calQuery m => Sys2Proof.Machine.execCalQuery m s
  | .calChanQuery m => Sys2Proof.Machine.execCalChanQuery m s
  | .calGateConfig m => Sys2Proof.Machine.execCalGateConfig m s
  | .calGateWindow m => Sys2Proof.Machine.execCalGateWindow m s
  | .calGateClear m => Sys2Proof.Machine.execCalGateClear m s
  | .calGateQuery m => Sys2Proof.Machine.execCalGateQuery m s
  | .vdCreate m => Sys2Proof.Machine.execVdCreate m s
  | .vdDestroy m => Sys2Proof.Machine.execVdDestroy m s
  | .vdAttach m => Sys2Proof.Machine.execVdAttach m s
  | .vdDetach m => Sys2Proof.Machine.execVdDetach m s
  | .vdPush m => Sys2Proof.Machine.execVdPush m s
  | .vdVerifyConfig m => Sys2Proof.Machine.execVdVerifyConfig m s
  | .vdRejectConfig m => Sys2Proof.Machine.execVdRejectConfig m s
  | .vdCancel m => Sys2Proof.Machine.execVdCancel m s
  | .vdResults m => Sys2Proof.Machine.execVdResults m s
  | .vdQuery m => Sys2Proof.Machine.execVdQuery m s
  | .vdRecovery m => Sys2Proof.Machine.execVdRecovery m s
  | .vdFontWrite m => Sys2Proof.Machine.execVdFontWrite m s
  | .diagMemConfig m => Sys2Proof.Machine.execDiagMemConfig m s
  | .diagMemQuery m => Sys2Proof.Machine.execDiagMemQuery m s
  | .diagMemTraining m => Sys2Proof.Machine.execDiagMemTraining m s
  | .diagArbPrio m => Sys2Proof.Machine.execDiagArbPrio m s
  | .diagArbCommit m => Sys2Proof.Machine.execDiagArbCommit m s
  | .diagArbQuery m => Sys2Proof.Machine.execDiagArbQuery m s
  | .diagAvsConfig m => Sys2Proof.Machine.execDiagAvsConfig m s
  | .diagSlackQuery m => Sys2Proof.Machine.execDiagSlackQuery m s
  | .sysEthConfig m => Sys2Proof.Machine.execSysEthConfig m s
  | .sysEthQuery m => Sys2Proof.Machine.execSysEthQuery m s
  | .timePtpConfig m => Sys2Proof.Machine.execTimePtpConfig m s
  | .timeServoConfig m => Sys2Proof.Machine.execTimeServoConfig m s
  | .timeSet m => Sys2Proof.Machine.execTimeSet m s
  | .timeQuery m => Sys2Proof.Machine.execTimeQuery m s
  | .timeTriggerCreate m => Sys2Proof.Machine.execTimeTriggerCreate m s
  | .timeTriggerArm m => Sys2Proof.Machine.execTimeTriggerArm m s
  | .timeTriggerDisarm m => Sys2Proof.Machine.execTimeTriggerDisarm m s
  | .timeTriggerDestroy m => Sys2Proof.Machine.execTimeTriggerDestroy m s
  | .timeTriggerQuery m => Sys2Proof.Machine.execTimeTriggerQuery m s
  | .timeTimerCreate m => Sys2Proof.Machine.execTimeTimerCreate m s
  | .timeTimerStop m => Sys2Proof.Machine.execTimeTimerStop m s
  | .timeTimerDestroy m => Sys2Proof.Machine.execTimeTimerDestroy m s
  | .timeCaptureConfig m => Sys2Proof.Machine.execTimeCaptureConfig m s
  | .timeCaptureRead m => Sys2Proof.Machine.execTimeCaptureRead m s
  | .sysInterlockConfig m => Sys2Proof.Machine.execSysInterlockConfig m s
  | .sysInterlockLock m => Sys2Proof.Machine.execSysInterlockLock m s
  | .sysInterlockRearm m => Sys2Proof.Machine.execSysInterlockRearm m s
  | .sysInterlockQuery m => Sys2Proof.Machine.execSysInterlockQuery m s
  | .sysSaddleQuery m => Sys2Proof.Machine.execSysSaddleQuery m s
  | .sysTempConfig m => Sys2Proof.Machine.execSysTempConfig m s
  | .sysTempQuery m => Sys2Proof.Machine.execSysTempQuery m s
  | .sysThermalHead m => Sys2Proof.Machine.execSysThermalHead m s
  | .sysThermalResume m => Sys2Proof.Machine.execSysThermalResume m s
  | .sysReset m => Sys2Proof.Machine.execSysReset m s
  | .sysBootQuery m => Sys2Proof.Machine.execSysBootQuery m s
  | .sysOptionRead m => Sys2Proof.Machine.execSysOptionRead m s
  | .sysOptionWrite m => Sys2Proof.Machine.execSysOptionWrite m s
  | .sysPowerQuery m => Sys2Proof.Machine.execSysPowerQuery m s
  | .sysFailoverConfig m => Sys2Proof.Machine.execSysFailoverConfig m s
  | .sysFailoverQuery m => Sys2Proof.Machine.execSysFailoverQuery m s
  | .auditOpen m => Sys2Proof.Machine.execAuditOpen m s
  | .auditClose m => Sys2Proof.Machine.execAuditClose m s
  | .auditRead m => Sys2Proof.Machine.execAuditRead m s
  | .auditAck m => Sys2Proof.Machine.execAuditAck m s
  | .auditQuote m => Sys2Proof.Machine.execAuditQuote m s
  | .auditFwBegin m => Sys2Proof.Machine.execAuditFwBegin m s
  | .auditFwData m => Sys2Proof.Machine.execAuditFwData m s
  | .auditFwSeal m => Sys2Proof.Machine.execAuditFwSeal m s
  | .auditFwQuery m => Sys2Proof.Machine.execAuditFwQuery m s
  | .auditKeyEnrol m => Sys2Proof.Machine.execAuditKeyEnrol m s
  | .auditDebugChallenge m => Sys2Proof.Machine.execAuditDebugChallenge m s
  | .auditDebugOpen m => Sys2Proof.Machine.execAuditDebugOpen m s
  | .auditDebugClose m => Sys2Proof.Machine.execAuditDebugClose m s
  | .mbxEnable value => Sys2Proof.Machine.execMbxEnable value s
  | .mbxDisable value => Sys2Proof.Machine.execMbxDisable value s
  | .mbxEthEnable value => Sys2Proof.Machine.execMbxEthEnable value s
  | .doorbell ring value => Sys2Proof.Machine.execDoorbell ring value s
  | .consumerIndexWrite talus value => Sys2Proof.Machine.execConsumerIndexWrite talus value s
  | .ringSetupWrite reg value => Sys2Proof.Machine.execRingSetupWrite reg value s
  | .mbxStatusClear value => Sys2Proof.Machine.execMbxStatusClear value s
  | .winErrClear value => Sys2Proof.Machine.execWinErrClear value s
  | .resetSeenClear value newer => Sys2Proof.Machine.execResetSeenClear value newer s
  | .intStatusClear value newer => Sys2Proof.Machine.execIntStatusClear value newer s
  | .intMaskWrite value => Sys2Proof.Machine.execIntMaskWrite value s
  | .registerWrite offset size value => Sys2Proof.Machine.execRegisterWrite offset size value s
  | .holdoffExpiry vector => Sys2Proof.Machine.execHoldoffExpiry vector s
  | .commandFetch slots => Sys2Proof.Machine.execCommandFetch slots s
  | .fenceRelease => Sys2Proof.Machine.execFenceRelease s
  | .messageCompletion => Sys2Proof.Machine.execMessageCompletion s
  | .fenceWait => Sys2Proof.Machine.execFenceWait s
  | .eventRecordWrite => Sys2Proof.Machine.execEventRecordWrite s
  | .talusLost => Sys2Proof.Machine.execTalusLost s
  | .hello port v6 body => Sys2Proof.Machine.execHello port v6 body s
  | .confirm session body => Sys2Proof.Machine.execConfirm session body s
  | .handshakeTimeout session => Sys2Proof.Machine.execHandshakeTimeout session s
  | .message session ring counter plain => Sys2Proof.Machine.execMessage session ring counter plain s
  | .seqGapTimeout session ring => Sys2Proof.Machine.execSeqGapTimeout session ring s
  | .eventAck session counter plain => Sys2Proof.Machine.execEventAck session counter plain s
  | .eventResend session => Sys2Proof.Machine.execEventResend session s
  | .close session counter plain => Sys2Proof.Machine.execClose session counter plain s
  | .sessionIdleTimeout session => Sys2Proof.Machine.execSessionIdleTimeout session s
  | .fragmentTimeout => Sys2Proof.Machine.execFragmentTimeout s
  | .ethFrameReceive port frame => Sys2Proof.Machine.execEthFrameReceive port frame s
  | .ethLink port up duplicate => Sys2Proof.Machine.execEthLink port up duplicate s
  | .hostSideLost => Sys2Proof.Machine.execHostSideLost s
  | .hostSideBack => Sys2Proof.Machine.execHostSideBack s
  | .fieldUnreachable => Sys2Proof.Machine.execFieldUnreachable s
  | .fieldReachable => Sys2Proof.Machine.execFieldReachable s
  | .fmsCommandExecute => Sys2Proof.Machine.execFmsCommandExecute s
  | .outputLineScreen bar => Sys2Proof.Machine.execOutputLineScreen bar s
  | .fireLinePack bar => Sys2Proof.Machine.execFireLinePack bar s
  | .lineDeadline bar => Sys2Proof.Machine.execLineDeadline bar s
  | .fireInstant bar => Sys2Proof.Machine.execFireInstant bar s
  | .switchDecision run => Sys2Proof.Machine.execSwitchDecision run s
  | .plateSwitched chan => Sys2Proof.Machine.execPlateSwitched chan s
  | .tableSwitched bar => Sys2Proof.Machine.execTableSwitched bar s
  | .benchFault bench cause => Sys2Proof.Machine.execBenchFault bench cause s
  | .spareTakeover bar => Sys2Proof.Machine.execSpareTakeover bar s
  | .shadowMismatch slot rescreenAgrees => Sys2Proof.Machine.execShadowMismatch slot rescreenAgrees s
  | .rotationPeriod => Sys2Proof.Machine.execRotationPeriod s
  | .benchTestDone bench pass => Sys2Proof.Machine.execBenchTestDone bench pass s
  | .spareLoadDone => Sys2Proof.Machine.execSpareLoadDone s
  | .headRecord bar slot present record => Sys2Proof.Machine.execHeadRecord bar slot present record s
  | .headTemp bar entries => Sys2Proof.Machine.execHeadTemp bar entries s
  | .headBlanked bar slot => Sys2Proof.Machine.execHeadBlanked bar slot s
  | .headResumed bar slot => Sys2Proof.Machine.execHeadResumed bar slot s
  | .headReportMissing bar slot => Sys2Proof.Machine.execHeadReportMissing bar slot s
  | .headLost bar slot => Sys2Proof.Machine.execHeadLost bar slot s
  | .driverStatus bar freeLines faults => Sys2Proof.Machine.execDriverStatus bar freeLines faults s
  | .encoderCount input a b samples => Sys2Proof.Machine.execEncoderCount input a b samples s
  | .zEdge input z samples => Sys2Proof.Machine.execZEdge input z samples s
  | .encFault input illegal clears => Sys2Proof.Machine.execEncFault input illegal clears s
  | .standstill => Sys2Proof.Machine.execStandstill s
  | .loopUpdate => Sys2Proof.Machine.execLoopUpdate s
  | .comparePulseEnd trigger => Sys2Proof.Machine.execComparePulseEnd trigger s
  | .mark input falling held => Sys2Proof.Machine.execMark input falling held s
  | .emuEdge output => Sys2Proof.Machine.execEmuEdge output s
  | .positionWordSend => Sys2Proof.Machine.execPositionWordSend s
  | .positionWordReceive => Sys2Proof.Machine.execPositionWordReceive s
  | .cascadeWordTimeout => Sys2Proof.Machine.execCascadeWordTimeout s
  | .lsMismatch bar dev => Sys2Proof.Machine.execLsMismatch bar dev s
  | .lsbTestDone pass => Sys2Proof.Machine.execLsbTestDone pass s
  | .lsaStop bar => Sys2Proof.Machine.execLsaStop bar s
  | .laneAlignment lane line => Sys2Proof.Machine.execLaneAlignment lane line s
  | .ts1 lane => Sys2Proof.Machine.execTs1 lane s
  | .ts2 lane => Sys2Proof.Machine.execTs2 lane s
  | .config lane => Sys2Proof.Machine.execConfig lane s
  | .lat lane => Sys2Proof.Machine.execLat lane s
  | .trainingPhaseAdvance link => Sys2Proof.Machine.execTrainingPhaseAdvance link s
  | .trainingTimeout link => Sys2Proof.Machine.execTrainingTimeout link s
  | .trainingRetry link => Sys2Proof.Machine.execTrainingRetry link s
  | .packetReceive lane => Sys2Proof.Machine.execPacketReceive lane s
  | .serve bar => Sys2Proof.Machine.execServe bar s
  | .ack lane => Sys2Proof.Machine.execAck lane s
  | .ackSend lane => Sys2Proof.Machine.execAckSend lane s
  | .replayTimeout lane => Sys2Proof.Machine.execReplayTimeout lane s
  | .resume lane => Sys2Proof.Machine.execResume lane s
  | .sync lane => Sys2Proof.Machine.execSync lane s
  | .timeBlock face => Sys2Proof.Machine.execTimeBlock face s
  | .eye lane => Sys2Proof.Machine.execEye lane s
  | .laneHealth lane => Sys2Proof.Machine.execLaneHealth lane s
  | .laneRemapped bar lane => Sys2Proof.Machine.execLaneRemapped bar lane s
  | .spareCoreTimeout spare => Sys2Proof.Machine.execSpareCoreTimeout spare s
  | .linkLost bar => Sys2Proof.Machine.execLinkLost bar s
  | .linkReturn bar => Sys2Proof.Machine.execLinkReturn bar s
  | .cameraTrigger face => Sys2Proof.Machine.execCameraTrigger face s
  | .cameraLinePacket face lane ptype body => Sys2Proof.Machine.execCameraLinePacket face lane ptype body s
  | .faceLineComplete face => Sys2Proof.Machine.execFaceLineComplete face s
  | .hubStatus face body => Sys2Proof.Machine.execHubStatus face body s
  | .frameStart face => Sys2Proof.Machine.execFrameStart face s
  | .frameEnd face => Sys2Proof.Machine.execFrameEnd face s
  | .frameStats face => Sys2Proof.Machine.execFrameStats face s
  | .captureDone face => Sys2Proof.Machine.execCaptureDone face s
  | .visionFault engine cause => Sys2Proof.Machine.execVisionFault engine cause s
  | .loopWindowEnd calset => Sys2Proof.Machine.execLoopWindowEnd calset s
  | .loopCommit calset => Sys2Proof.Machine.execLoopCommit calset s
  | .heldCommit bar gate => Sys2Proof.Machine.execHeldCommit bar gate s
  | .recalculationDone calset => Sys2Proof.Machine.execRecalculationDone calset s
  | .recalcSpareFail => Sys2Proof.Machine.execRecalcSpareFail s
  | .dropGate bar body => Sys2Proof.Machine.execDropGate bar body s
  | .dropTestResult bar => Sys2Proof.Machine.execDropTestResult bar s
  | .gateFault bar => Sys2Proof.Machine.execGateFault bar s
  | .itemRendered stream => Sys2Proof.Machine.execItemRendered stream s
  | .itemContentVoid stream => Sys2Proof.Machine.execItemContentVoid stream s
  | .itemLastLine stream seq => Sys2Proof.Machine.execItemLastLine stream seq s
  | .itemVerdict stream seq => Sys2Proof.Machine.execItemVerdict stream seq s
  | .verifyTimeout stream seq => Sys2Proof.Machine.execVerifyTimeout stream seq s
  | .rejectStart stream => Sys2Proof.Machine.execRejectStart stream s
  | .rejectEnd stream => Sys2Proof.Machine.execRejectEnd stream s
  | .rejectOverflow stream => Sys2Proof.Machine.execRejectOverflow stream s
  | .vdFault engine cause => Sys2Proof.Machine.execVdFault engine cause s
  | .arbRequest cluster index req flips => Sys2Proof.Machine.execArbRequest cluster index req flips s
  | .arbDecision cluster index flips => Sys2Proof.Machine.execArbDecision cluster index flips s
  | .sleepWake port flips => Sys2Proof.Machine.execSleepWake port flips s
  | .lockExpiry port => Sys2Proof.Machine.execLockExpiry port s
  | .emergencyTake port refresh flips => Sys2Proof.Machine.execEmergencyTake port refresh flips s
  | .lockBroken requester => Sys2Proof.Machine.execLockBroken requester s
  | .slackWindowEnd bar => Sys2Proof.Machine.execSlackWindowEnd bar s
  | .scrubPass => Sys2Proof.Machine.execScrubPass s
  | .powerDownEntry rank => Sys2Proof.Machine.execPowerDownEntry rank s
  | .selfRefreshEntry => Sys2Proof.Machine.execSelfRefreshEntry s
  | .selfRefreshExit => Sys2Proof.Machine.execSelfRefreshExit s
  | .refreshDue port rank => Sys2Proof.Machine.execRefreshDue port rank s
  | .zqCalibration => Sys2Proof.Machine.execZqCalibration s
  | .dramTempRead temps => Sys2Proof.Machine.execDramTempRead temps s
  | .memTrained stepsPass probePass margin rank words => Sys2Proof.Machine.execMemTrained stepsPass probePass margin rank words s
  | .syncMessage gm offsetNs => Sys2Proof.Machine.execSyncMessage gm offsetNs s
  | .ptpMessage msg => Sys2Proof.Machine.execPtpMessage msg s
  | .syncTimeout => Sys2Proof.Machine.execSyncTimeout s
  | .announceTimeout => Sys2Proof.Machine.execAnnounceTimeout s
  | .timeWordSend => Sys2Proof.Machine.execTimeWordSend s
  | .timeWordReceive crcOk => Sys2Proof.Machine.execTimeWordReceive crcOk s
  | .heartbeatEcho roundTrip turnaround => Sys2Proof.Machine.execHeartbeatEcho roundTrip turnaround s
  | .saddleTimeLoss => Sys2Proof.Machine.execSaddleTimeLoss s
  | .triggerPulse trigger => Sys2Proof.Machine.execTriggerPulse trigger s
  | .triggerPulseEnd trigger => Sys2Proof.Machine.execTriggerPulseEnd trigger s
  | .timerExpired timer => Sys2Proof.Machine.execTimerExpired timer s
  | .capture input falling held => Sys2Proof.Machine.execCapture input falling held s
  | .saddleFrame ret channel cls bytes crcOk => Sys2Proof.Machine.execSaddleFrame ret channel cls bytes crcOk s
  | .channelReturn ret channel => Sys2Proof.Machine.execChannelReturn ret channel s
  | .idlePatternCheck ret channel pass => Sys2Proof.Machine.execIdlePatternCheck ret channel pass s
  | .heartbeat cp wire seq fault => Sys2Proof.Machine.execHeartbeat cp wire seq fault s
  | .interlock input ohms held => Sys2Proof.Machine.execInterlock input ohms held s
  | .interlockHealthy input ohms => Sys2Proof.Machine.execInterlockHealthy input ohms s
  | .sensorRound readings => Sys2Proof.Machine.execSensorRound readings s
  | .comparatorTrip sensor => Sys2Proof.Machine.execComparatorTrip sensor s
  | .thermalOffRestart => Sys2Proof.Machine.execThermalOffRestart s
  | .supplyGood field => Sys2Proof.Machine.execSupplyGood field s
  | .brownOut supply mv => Sys2Proof.Machine.execBrownOut supply mv s
  | .rstN low edges => Sys2Proof.Machine.execRstN low edges s
  | .frstN low edges => Sys2Proof.Machine.execFrstN low edges s
  | .perstN => Sys2Proof.Machine.execPerstN s
  | .referenceLoss field => Sys2Proof.Machine.execReferenceLoss field s
  | .clockFailure domain => Sys2Proof.Machine.execClockFailure domain s
  | .cpWatchdog cp lockup => Sys2Proof.Machine.execCpWatchdog cp lockup s
  | .fsWatchdog lockup => Sys2Proof.Machine.execFsWatchdog lockup s
  | .resetRelease field => Sys2Proof.Machine.execResetRelease field s
  | .fieldResetSymbol => Sys2Proof.Machine.execFieldResetSymbol s
  | .optionCopy => Sys2Proof.Machine.execOptionCopy s
  | .measuredBoot check => Sys2Proof.Machine.execMeasuredBoot check s
  | .fieldImageApproval check => Sys2Proof.Machine.execFieldImageApproval check s
  | .bootTimeout => Sys2Proof.Machine.execBootTimeout s
  | .mailboxReady => Sys2Proof.Machine.execMailboxReady s
  | .cpDeclaration cp => Sys2Proof.Machine.execCpDeclaration cp s
  | .cpStandby => Sys2Proof.Machine.execCpStandby s
  | .standbySelftestDone pass => Sys2Proof.Machine.execStandbySelftestDone pass s
  | .snapshotComplete => Sys2Proof.Machine.execSnapshotComplete s
  | .quietPointReturn => Sys2Proof.Machine.execQuietPointReturn s
  | .debugSessionExpiry => Sys2Proof.Machine.execDebugSessionExpiry s
  | .debugChallengeExpiry => Sys2Proof.Machine.execDebugChallengeExpiry s
  | .referenceReturn field => Sys2Proof.Machine.execReferenceReturn field s
  | .softwareReset => Sys2Proof.Machine.execSoftwareReset s
  | .debugRequest req => Sys2Proof.Machine.execDebugRequest req s
  | .saddleHeartbeat ret t24 t25 => Sys2Proof.Machine.execSaddleHeartbeat ret t24 t25 s
  | .avsIdleStep => Sys2Proof.Machine.execAvsIdleStep s
  | .ptpTransmitInterval => Sys2Proof.Machine.execPtpTransmitInterval s

end Sys2Proof.Machine
end

