-- ==== Sys2Proof/Safety.lean ====
section
/-! DEFINITION. What counts as a safe run of the block, and the words in which the statements speak of a command that
completes. -/

namespace Sys2Proof.Machine

/-- No message of that opcode and content waits or is under way: the row brings a new one. -/
def freshMessage (d : OpDef) (m : Msg) (s : State) : Bool :=
  !s.mbx.inFlight.any fun e => e.opcode == d.code && e.msg == m && (e.phase == .waiting || e.phase == .forwarded)

/-- A new message is taken, runs in the command that brings it, and passes checks 1 to 12 of R46: what its operation still
asks for is its own (checks 13 and 14). -/
def admitted (d : OpDef) (m : Msg) (s : State) : Bool :=
  freshMessage d m s && takes m s && direct d m s && (opChecks d m s).isOk

/-- A message command completes with a good answer of its operation: status, handle, payload and the state left. -/
def Completes (i : Instr) (d : OpDef) (m : Msg) (s : State) (r : OpOk) : Prop :=
  exec i s = .next (answer d.code m (newPlace s) r.status r.handle r.payload r.final r.state)

/-- The next block of a lane whose polarity is settled is a control block of a type: descrambled it reads `b`, and taking it
leaves the state `t` (R239, R240, R244). -/
def ReadsBlock (s : State) (l type : Nat) (b : Bytes) (t : State) : Prop :=
  ∃ r : RxBlock, (laneAt s l).next? = some r ∧ r.h0 = true ∧ r.h1 = false ∧ byteAt r.payload 0 = type ∧
    (laneAt s l).settled = true ∧ b = (scramble (laneAt s l).rxScr true r.payload).1 ∧
    t = setLane s l fun x => { x with rx := x.rx.tail, rxScr := (scramble (laneAt s l).rxScr true r.payload).2 }

end Sys2Proof.Machine

namespace Sys2Proof

/-- A safe state: the image memory keeps its canonical form (log 12), no queue of the mailbox and of Saddle holds more
than the manual gives it (R32, R41, R48, R60), and VDD_F is commanded within 0.70 to 0.90 V (R17). A run is safe while
every state of it is. -/
def Safe (s : Machine.State) : Prop :=
  s.mem.wf = true ∧ s.mbx.responses.length ≤ 256 ∧ s.mbx.talus.length ≤ 32768 ∧ s.mbx.held.length ≤ 1024 ∧
    s.saddle.fsQueue.length ≤ 64 ∧ s.saddle.fieldHeld.length ≤ 4096 ∧ 700 ≤ s.fabric.vddMv ∧ s.fabric.vddMv ≤ 900

end Sys2Proof
end

