-- ==== Sys2Proof/WellFormed.lean ====
section
/-! DEFINITION. Well-formed commands: what the manual's frames, blocks and registers fix about the operands that a type does
not already hold. A command that is not well formed is no traffic the block can meet: a message longer than a slot, a
head record that is not 64 bytes. A meaning takes every command; these are the ones that stand for
something on the hardware. -/

namespace Sys2Proof

/-- The message of a slot or datagram: a payload of at most 4,072 bytes (R43). -/
def Msg.wf (m : Msg) : Bool := m.payload.length ≤ 4072

/-- A command as the hardware can meet it: messages (R43), writes of MBX_CTRL (R39, R40), register writes (R533), slots
(R34), head records (R171), handshake bodies (R64), training words (R385). -/
def Instr.wf : Instr → Bool
  | .syncFence m | .syncEcho m | .chanCreate m | .chanDestroy m | .chanQuery m | .chanNextPlate m | .runCreate m
  | .runStart m | .runStop m | .runAbort m | .runDestroy m | .runQuery m | .plateCreate m | .plateData m
  | .plateRead m | .plateSeal m | .plateDestroy m | .plateQuery m | .plateStoreQuery m | .benchToneWrite m
  | .benchNozzleWrite m | .benchScreenDefine m | .benchScreenWrite m | .benchSubstWrite m | .benchStitchWrite m
  | .benchDropmapWrite m | .benchCommit m | .benchDiscard m | .benchRead m | .benchStatus m | .benchRotation m
  | .barGeomWrite m | .barGeomCommit m | .barQuery m | .headQuery m | .headBlank m | .headUnblank m | .headBandMap m
  | .barFireEnable m | .posEncoderConfig m | .posTrackConfig m | .posQuery m | .posSet m | .posTrim m
  | .posMarkConfig m | .posEmuConfig m | .posFaultClear m | .cmpCreate m | .cmpArm m | .cmpDisarm m | .cmpDestroy m
  | .cmpQuery m | .settConfig m | .settQuery m | .settRetrain m | .settRemap m | .camCreate m | .camDestroy m
  | .camSensorWrite m | .camExposureWrite m | .camParamWrite m | .camCommit m | .camActivate m | .camStatsRead m
  | .camCapture m | .camFrameRead m | .camQuery m | .calCreate m | .calDestroy m | .calAttach m | .calDetach m
  | .calParamWrite m | .calRead m | .calWrite m | .loopHold m | .loopRelease m | .loopResume m | .calRecalc m
  | .calQuery m | .calChanQuery m | .calGateConfig m | .calGateWindow m | .calGateClear m | .calGateQuery m
  | .vdCreate m | .vdDestroy m | .vdAttach m | .vdDetach m | .vdPush m | .vdVerifyConfig m | .vdRejectConfig m
  | .vdCancel m | .vdResults m | .vdQuery m | .vdRecovery m | .vdFontWrite m | .diagMemConfig m | .diagMemQuery m
  | .diagMemTraining m | .diagArbPrio m | .diagArbCommit m | .diagArbQuery m | .diagAvsConfig m | .diagSlackQuery m
  | .sysEthConfig m | .sysEthQuery m | .timePtpConfig m | .timeServoConfig m | .timeSet m | .timeQuery m
  | .timeTriggerCreate m | .timeTriggerArm m | .timeTriggerDisarm m | .timeTriggerDestroy m | .timeTriggerQuery m
  | .timeTimerCreate m | .timeTimerStop m | .timeTimerDestroy m | .timeCaptureConfig m | .timeCaptureRead m
  | .sysInterlockConfig m | .sysInterlockLock m | .sysInterlockRearm m | .sysInterlockQuery m | .sysSaddleQuery m
  | .sysTempConfig m | .sysTempQuery m | .sysThermalHead m | .sysThermalResume m | .sysReset m | .sysBootQuery m
  | .sysOptionRead m | .sysOptionWrite m | .sysPowerQuery m | .sysFailoverConfig m | .sysFailoverQuery m
  | .auditOpen m | .auditClose m | .auditRead m | .auditAck m | .auditQuote m | .auditFwBegin m | .auditFwData m
  | .auditFwSeal m | .auditFwQuery m | .auditKeyEnrol m | .auditDebugChallenge m | .auditDebugOpen m
  | .auditDebugClose m => m.wf
  | .mbxEnable v => v.getLsbD 0
  | .mbxDisable v => !v.getLsbD 0
  | .registerWrite _ n _ => n == 1 || n == 2 || n == 4 || n == 8
  | .commandFetch l => l.length == 4 && l.all fun r => r.all fun b => b.length == 4096
  | .hello _ _ b => b.length == 132
  | .confirm _ b => b.length == 96
  | .headRecord _ _ _ r => r.length == 64
  | .dramTempRead t => t.length == 8
  | .memTrained _ _ _ _ w => w.length == 1024
  | .mbxEthEnable _ | .doorbell _ _ | .consumerIndexWrite _ _ | .ringSetupWrite _ _ | .mbxStatusClear _
  | .winErrClear _ | .resetSeenClear _ _ | .intStatusClear _ _ | .intMaskWrite _ | .holdoffExpiry _ | .fenceRelease
  | .messageCompletion | .fenceWait | .eventRecordWrite | .talusLost | .handshakeTimeout _ | .message _ _ _ _
  | .seqGapTimeout _ _ | .eventAck _ _ _ | .eventResend _ | .close _ _ _ | .sessionIdleTimeout _ | .fragmentTimeout
  | .ethFrameReceive _ _ | .ethLink _ _ _ | .hostSideLost | .hostSideBack | .fieldUnreachable | .fieldReachable
  | .fmsCommandExecute | .outputLineScreen _ | .fireLinePack _ | .lineDeadline _ | .fireInstant _ | .switchDecision _
  | .plateSwitched _ | .tableSwitched _ | .benchFault _ _ | .spareTakeover _ | .shadowMismatch _ _ | .rotationPeriod
  | .benchTestDone _ _ | .spareLoadDone | .headTemp _ _ | .headBlanked _ _ | .headResumed _ _ | .headReportMissing _ _
  | .headLost _ _ | .driverStatus _ _ _ | .encoderCount _ _ _ _ | .zEdge _ _ _ | .encFault _ _ _ | .standstill | .loopUpdate
  | .comparePulseEnd _ | .mark _ _ _ | .emuEdge _ | .positionWordSend | .positionWordReceive | .cascadeWordTimeout
  | .lsMismatch _ _ | .lsbTestDone _ | .lsaStop _ | .laneAlignment _ _ | .ts1 _ | .ts2 _ | .config _ | .lat _ | .ack _ | .resume _ | .sync _ | .eye _ | .trainingPhaseAdvance _
  | .trainingTimeout _ | .trainingRetry _ | .packetReceive _ | .serve _ | .ackSend _ | .replayTimeout _
  | .timeBlock _ | .laneHealth _ | .laneRemapped _ _ | .spareCoreTimeout _ | .linkLost _ | .linkReturn _
  | .cameraTrigger _ | .cameraLinePacket _ _ _ _ | .faceLineComplete _ | .hubStatus _ _ | .frameStart _ | .frameEnd _
  | .frameStats _ | .captureDone _ | .visionFault _ _ | .loopWindowEnd _ | .loopCommit _ | .heldCommit _ _
  | .recalculationDone _ | .recalcSpareFail | .dropGate _ _ | .dropTestResult _ | .gateFault _ | .itemRendered _
  | .itemContentVoid _ | .itemLastLine _ _ | .itemVerdict _ _ | .verifyTimeout _ _ | .rejectStart _ | .rejectEnd _
  | .rejectOverflow _ | .vdFault _ _ | .arbRequest _ _ _ _ | .arbDecision _ _ _ | .sleepWake _ _ | .lockExpiry _
  | .emergencyTake _ _ _ | .lockBroken _ | .slackWindowEnd _ | .scrubPass | .powerDownEntry _ | .selfRefreshEntry
  | .selfRefreshExit | .refreshDue _ _ | .zqCalibration | .syncMessage _ _ | .ptpMessage _ | .syncTimeout
  | .announceTimeout | .timeWordSend | .timeWordReceive _ | .heartbeatEcho _ _ | .saddleTimeLoss | .triggerPulse _
  | .triggerPulseEnd _ | .timerExpired _ | .capture _ _ _ | .saddleFrame _ _ _ _ _ | .channelReturn _ _
  | .idlePatternCheck _ _ _ | .heartbeat _ _ _ _ | .interlock _ _ _ | .interlockHealthy _ _ | .sensorRound _
  | .comparatorTrip _ | .thermalOffRestart | .supplyGood _ | .brownOut _ _ | .rstN _ _ | .frstN _ _ | .perstN
  | .referenceLoss _ | .clockFailure _ | .cpWatchdog _ _ | .fsWatchdog _ | .resetRelease _ | .fieldResetSymbol
  | .optionCopy | .measuredBoot _ | .fieldImageApproval _ | .bootTimeout | .mailboxReady | .cpDeclaration _
  | .cpStandby | .standbySelftestDone _ | .snapshotComplete | .quietPointReturn | .debugSessionExpiry
  | .debugChallengeExpiry | .referenceReturn _ | .softwareReset | .debugRequest _ | .saddleHeartbeat _ _ _
  | .avsIdleStep | .ptpTransmitInterval => true

end Sys2Proof
end

