-- ==== Sys2Proof/Certificates/Slice0/Obligations.lean ====
section
/-! DEFINITION. The statements for the provers, chapter by chapter of spec/. A message command that completes is stated as
the equation of `Completes`: the whole next state, so that everything it does not name is as before, but for the answer's
own parts (see `Obligations.AnswerFrame`). -/

open Sys2Proof Sys2Proof.Machine

/-- For every command c, every queue rest and every state s: step of s with the queue c :: rest is exec c on s with
the queue rest. (02_mailbox_protocol, 95_what_each_step_holds) -/
def Obligations.StepTakesFront : Prop :=
  ∀ (c : Instr) (rest : List Instr) (s : State),
    step { s with pending := c :: rest } = exec c { s with pending := rest }

/-- For every state s with an empty queue, step s is the next state after one tick of 10 ns of the device clock: clock
and, without a loss of the reference, TE time move, and the queue stays empty. That a step on an empty queue is one
tick is the model's choice (log 18). (14_time_and_ethernet) -/
def Obligations.StepIdles : Prop :=
  ∀ s : State, s.pending = [] →
    step s = .next (idleTick s) ∧ (idleTick s).pending = [] ∧ (idleTick s).time.clock = s.time.clock + 10 ∧
      (idleTick s).mem.cells = s.mem.cells ∧ (idleTick s).objs = s.objs

/-- Admitted, sync.fence changes nothing but the answer OK, and sync.echo answers OK with its own data bytes. (R55,
02_mailbox_protocol) -/
def Obligations.SyncComplete : Prop :=
  ∀ (m : Msg) (s : State),
    (admitted opSyncFence m s = true → Completes (.syncFence m) opSyncFence m s { state := s }) ∧
    (admitted opSyncEcho m s = true → Completes (.syncEcho m) opSyncEcho m s { state := s, payload := m.payload })

/-- Admitted and with the conditions of their rules met: chan.create puts a channel that the payload describes into
the table and answers its handle (budgets 4 and 5 are met when the demand is at most the limit); chan.destroy of an
idle channel frees its slot and detaches its stream and calsets (a bar whose calset was in CORRECT loses its
registration correction); chan.query answers 24 bytes and changes nothing; chan.next_plate makes the plate the pending
one for the repeat it can still reach, LATE where that is not the repeat named. (R78, R81, R82, R83, R90, R91, R118,
03_objects_and_handles) -/
def Obligations.ChannelComplete : Prop :=
  (∀ (m : Msg) (s : State) (p : Plate) (i : Nat) (t : ObjTable Channel), admitted opChanCreate m s = true →
    let c := newChannel m.payload
    plateOf s c.plate = some p →
    (barAt s c.bar).table.isSome = true → p.isSealed = true →
    (s.objs.channels.live.any fun e => e.2.bar == c.bar && e.2.lane != c.lane && spansMeet e.2 c) = false →
    s.objs.channels.create c = some (i, t) →
    rowDemand s c ≤ 1703936 → c.fireAhead + 72 ≤ fifoDepth s c.bar →
    Completes (.chanCreate m) opChanCreate m s
      { state := { s with objs := { s.objs with channels := t } }, handle := some (t.handle tyChannel i) }) ∧
  (∀ (m : Msg) (s : State) (c : Channel), admitted opChanDestroy m s = true → channelOf s m.handle = some c →
    c.run = 0 →
    let correcting := s.objs.calsets.live.any fun e => e.2.channel == m.handle && e.2.mode == .correct
    let s1 := if correcting then setBar s c.bar fun b => { b with regCorr := 0 } else s
    Completes (.chanDestroy m) opChanDestroy m s { state := { s1 with objs := { s.objs with
      channels := s.objs.channels.release (hIdx m.handle)
      streams := s.objs.streams.mapLive fun st => if st.channel = m.handle then { st with channel := 0 } else st
      calsets := s.objs.calsets.mapLive fun q =>
        if q.channel = m.handle then { q with channel := 0, mode := .detached } else q } } }) ∧
  (∀ (m : Msg) (s : State) (c : Channel), admitted opChanQuery m s = true → channelOf s m.handle = some c →
    ∃ b : Bytes, b.length = 24 ∧ Completes (.chanQuery m) opChanQuery m s { state := s, payload := b }) ∧
  (∀ (m : Msg) (s : State) (c : Channel) (p : Plate) (r : Run) (size format width : Nat),
    admitted opChanNextPlate m s = true → channelOf s m.handle = some c →
    plateOf s (w32 m.payload 0) = some p →
    runOf s c.run = some r → r.switchMin ≠ 0 →
    r.admitted.find? (fun e => e.1 == m.handle) = some (m.handle, size, format, width) →
    p.format = format → p.width = width → plateSize p ≤ size →
    let named := u32 m.payload 4
    let asked := if named = 0xFFFFFFFF then 0 else named
    let target := if r.state.active then firstAhead s r c.bar asked else asked
    let len := ((plateOf s c.plate).map fun q => repeatLength q r.pitch).getD 0
    (named = 0xFFFFFFFF ∨
      r.switchMin ≤ if r.state.active then repeatStart r target - c.prevSwitch else target * len) →
    let after := setChannel s m.handle fun c => { c with
      next := some ⟨w32 m.payload 0, if named = 0xFFFFFFFF then none else some target, target⟩ }
    Completes (.chanNextPlate m) opChanNextPlate m s
      (if named ≠ 0xFFFFFFFF ∧ target ≠ named then { state := after, status := stLate, payload := le 4 target }
       else { state := after }))

/-- Admitted and with the conditions of their rules met: run.create reserves the run's channels, raises VDD_F to at
least 720 mV and answers the run's handle; run.start queues the run behind an active one of its lane or arms it (LATE
where the start line is not reachable); run.stop arms the stop line, or ends a run that is still armed; run.abort
answers the first line left blank and frees the run; run.destroy frees a run that is CREATED or ENDED; run.query
answers 28 bytes and changes nothing. (R79, R80, R84, R86, R87, R88, R91, R170, R382, R410, R472, R529) -/
def Obligations.RunComplete : Prop :=
  (∀ (m : Msg) (s : State) (i : Nat) (t : ObjTable Run), admitted opRunCreate m s = true →
    let r := newRun m.payload
    ((runChannels s r).all fun e => e.2.run == 0) = true → pitchClash s r = false →
    (auditLock s && !auditSlotFree s) = false → runsBarred s = .ok () →
    s.objs.runs.create { r with admitted := (runChannels s r).map fun e =>
      let p := plateOf s e.2.plate
      (e.1, (p.map plateSize).getD 0, (p.map fun p => p.format).getD 0, (p.map fun p => p.width).getD 0) } = some (i, t) →
    ((runBudgets s r).all fun b => !b.broken) = true →
    Completes (.runCreate m) opRunCreate m s
      { state := r.channels.foldl (fun s c => setChannel s c fun c => { c with run := t.handle tyRun i })
          (commandVdd (max 720 s.fabric.vddMv) { s with objs := { s.objs with runs := t } })
        handle := some (t.handle tyRun i) }) ∧
  (∀ (m : Msg) (s : State) (r : Run), admitted opRunStart m s = true → runOf s m.handle = some r →
    r.state = .created → s.pos.configured = true →
    (laneHas s m.handle r.lane RunState.active && laneHas s m.handle r.lane (· == .queued)) = false →
    runsBarred s = .ok () →
    Completes (.runStart m) opRunStart m s
      (if laneHas s m.handle r.lane RunState.active then
        { state := setRun s m.handle fun r => { r with state := .queued } }
       else if r.startLine < earliestFirst s r then
        { state := armRun m.handle (earliestFirst s r) s, status := stLate, payload := le 6 (earliestFirst s r) }
       else { state := armRun m.handle r.startLine s })) ∧
  (∀ (m : Msg) (s : State) (r : Run), admitted opRunStop m s = true → runOf s m.handle = some r →
    let line := u48 m.payload 2
    (r.state = .armed → byteAt m.payload 0 = 0 ∨ line ≤ r.firstLine →
      Completes (.runStop m) opRunStop m s { state := endRun m.handle 1 (r.firstLine - 1) s }) ∧
    (r.state = .printing ∨ r.state = .armed ∧ byteAt m.payload 0 = 1 ∧ r.firstLine < line →
      let ahead := firstUnhanded s r
      let stop := if byteAt m.payload 0 = 0 then repeatStart r ((repeatOf r (max r.firstLine (ahead - 1))).1 + 1)
        else max line ahead
      let final := match runEnd r with
        | none => stop
        | some e => min stop e
      let after := setRun s m.handle fun r => { r with 
        state := .stopping, stopAt := some final, cause := 1, leftAt := r.leftAt.orElse fun _ => some (runPos s r.pitch) }
      Completes (.runStop m) opRunStop m s
        (if byteAt m.payload 0 = 1 ∧ line < final then { state := after, status := stLate, payload := le 6 final }
         else { state := after }))) ∧
  (∀ (m : Msg) (s : State) (r : Run), admitted opRunAbort m s = true → runOf s m.handle = some r →
    ∃ t : State, runOf t m.handle = none ∧ t.mem = s.mem ∧ t.store = s.store ∧
      Completes (.runAbort m) opRunAbort m s
        { state := t, payload := le 6 (if r.state.active then firstUnhanded s r else 0xFFFFFFFFFFFF) }) ∧
  (∀ (m : Msg) (s : State) (r : Run), admitted opRunDestroy m s = true → runOf s m.handle = some r →
    r.state = .created ∨ r.state = .ended →
    ∃ t : State, runOf t m.handle = none ∧ t.mem = s.mem ∧ t.store = s.store ∧
      Completes (.runDestroy m) opRunDestroy m s { state := t } ∧
      (r.state = .ended → t = { s with objs := { s.objs with runs := s.objs.runs.release (hIdx m.handle) } })) ∧
  (∀ (m : Msg) (s : State) (r : Run), admitted opRunQuery m s = true → runOf s m.handle = some r →
    ∃ b : Bytes, b.length = 28 ∧ Completes (.runQuery m) opRunQuery m s { state := s, payload := b })

/-- Admitted and with the conditions of their rules met: plate.create takes the extents of the image and of the digest
list and answers the new handle with the plate's sizes; plate.data stores the block's bytes and its digest; plate.read
answers the block's bytes; plate.seal of a plate whose blocks are all received fixes the hash and answers it;
plate.destroy of a plate that no channel names frees its slot and its extents; plate.query answers 88 bytes and
plate.store_query 40, and change nothing. (R95, R101, R103, R104, R105, R107, R110, R112, R113,
04_plates_and_image_store) -/
def Obligations.PlateComplete : Prop :=
  (∀ (m : Msg) (s s1 : State) (ext : List Nat) (i : Nat) (t : ObjTable Plate), admitted opPlateCreate m s = true →
    let f := byteAt m.payload 0
    let w := u32 m.payload 4
    let n := u32 m.payload 8
    takeExtents (imageExtents f w n + digestExtents f w n) s = some (ext, s1) →
    s1.objs.plates.create { format := f, width := w, lines := n, isSealed := false
                            extents := ext.take (imageExtents f w n), digestExtents := ext.drop (imageExtents f w n)
                            blocks := [], hash := 0, damaged := false, damagedBlocks := [] } = some (i, t) →
    Completes (.plateCreate m) opPlateCreate m s
      { state := { s1 with objs := { s1.objs with plates := t } }, handle := some (t.handle tyPlate i)
        payload := le 4 (blockCount f w n) ++ le 4 (packedBytes f w) ++ le 4 (strideOf f w) ++ zeros 4 ++
          le 8 ((imageExtents f w n + digestExtents f w n) * extentBytes) }) ∧
  (∀ (m : Msg) (s : State) (p : Plate), admitted opPlateData m s = true → plateOf s m.handle = some p →
    p.isSealed = false →
    let d := m.payload.drop 8
    Completes (.plateData m) opPlateData m s
      { state := setPlate { s with
            mem := storeDigest p (u32 m.payload 0) (Config.sha384 d)
              (storePacked p d.length (4064 * u32 m.payload 0) d s.mem) } m.handle
          fun p => { p with blocks := u32 m.payload 0 :: p.blocks.filter (· != u32 m.payload 0) } }) ∧
  (∀ (m : Msg) (s : State) (p : Plate), admitted opPlateRead m s = true → plateOf s m.handle = some p →
    p.isSealed = true ∨ p.blocks.contains (u32 m.payload 0) = true →
    let i := u32 m.payload 0
    let n := blockBytes p.format p.width p.lines i
    Completes (.plateRead m) opPlateRead m s
      { state := damageRead m.handle p (4064 * i) n s, payload := readPacked p s.mem (4064 * i) n }) ∧
  (∀ (m : Msg) (s : State) (p : Plate), admitted opPlateSeal m s = true → plateOf s m.handle = some p →
    p.isSealed = false → missingBlock p = none →
    Completes (.plateSeal m) opPlateSeal m s
      { state := setPlate s m.handle fun q => { q with isSealed := true, hash := plateHash s.mem p }
        payload := leB 48 (plateHash s.mem p) }) ∧
  (∀ (m : Msg) (s : State) (p : Plate), admitted opPlateDestroy m s = true → plateOf s m.handle = some p →
    plateRefs s m.handle = 0 →
    Completes (.plateDestroy m) opPlateDestroy m s
      { state := giveExtents (p.extents ++ p.digestExtents)
          { s with objs := { s.objs with plates := s.objs.plates.release (hIdx m.handle) } } }) ∧
  (∀ (m : Msg) (s : State) (p : Plate), admitted opPlateQuery m s = true → plateOf s m.handle = some p →
    ∃ b : Bytes, b.length = 88 ∧ Completes (.plateQuery m) opPlateQuery m s { state := s, payload := b }) ∧
  (∀ (m : Msg) (s : State), admitted opPlateStoreQuery m s = true →
    ∃ b : Bytes, b.length = 40 ∧ Completes (.plateStoreQuery m) opPlateStoreQuery m s { state := s, payload := b })

/-- Admitted, each bench write stages exactly the entries its payload lists and changes nothing else: tone entries
(bench.tone_write), the masked fields of nozzle entries on a bar with a committed table whose gains and offsets no
loop holds (bench.nozzle_write), a new screen (bench.screen_define, outside a run or within budget 16), cells of a
custom screen (bench.screen_write), substitution classes, ramp entries and the drop map. (R130, R131, R135, R136,
R137, R140, R144, R145, R307, 05_bench_screening) -/
def Obligations.BenchWriteComplete : Prop :=
  (∀ (m : Msg) (s : State), admitted opBenchToneWrite m s = true →
    Completes (.benchToneWrite m) opBenchToneWrite m s { state := setChannel s m.handle fun c => { c with
      toneStaged := smSetRun c.toneStaged (u16 m.payload 0)
        ((List.range (u16 m.payload 2)).map fun j => u16 m.payload (8 + 2 * j)) } }) ∧
  (∀ (m : Msg) (s : State), admitted opBenchNozzleWrite m s = true →
    let bar := byteAt m.payload 0
    let n := u16 m.payload 8
    (barAt s bar).table.isSome = true →
    (byteAt m.payload 1 % 4 ≠ 0 → ∀ j < n, loopHolds s bar (u32 m.payload 4 + j) = false) →
    let edits := (List.range n).map fun j =>
      (u32 m.payload 4 + j, ⟨nozzleMask (byteAt m.payload 1), w32 m.payload (12 + 4 * j)⟩)
    Completes (.benchNozzleWrite m) opBenchNozzleWrite m s { state := stageNozzles bar 0 edits s }) ∧
  (∀ (m : Msg) (s : State) (c : Channel), admitted opBenchScreenDefine m s = true → channelOf s m.handle = some c →
    let b := m.payload
    let v : Screen := ⟨byteAt b 0 == 1, byteAt b 1, byteAt b 2, byteAt b 3 % 2 ^ byteAt b 1, byteAt b 4 % 2 ^ byteAt b 2, []⟩
    (c.run = 0 ∨ laneDemand s [] (fun _ h d =>
      if d.bar ≠ c.bar then 0 else screenDemand s d
        (newestScreen d (if h = m.handle then some v else d.screenStaged))) ≤ 1048576) →
    Completes (.benchScreenDefine m) opBenchScreenDefine m s
      { state := setChannel s m.handle fun c => { c with screenStaged := some v } }) ∧
  (∀ (m : Msg) (s : State) (c : Channel), admitted opBenchScreenWrite m s = true → channelOf s m.handle = some c →
    (stagedScreen c).custom = true →
    let cells := (List.range (u16 m.payload 2)).map fun j =>
      (List.range (lmaxOf c.dropBits)).map fun k => u16 m.payload (8 + cellBytes c.dropBits * j + 2 * k)
    Completes (.benchScreenWrite m) opBenchScreenWrite m s { state := setChannel s m.handle fun d => { d with
      screenStaged := some { stagedScreen c with cells := smSetRun (stagedScreen c).cells (u16 m.payload 0) cells } } }) ∧
  (∀ (m : Msg) (s : State), admitted opBenchSubstWrite m s = true →
    Completes (.benchSubstWrite m) opBenchSubstWrite m s
      { state := setBar s (byteAt m.payload 0) fun bar => { bar with
          substEdits := smSetRun bar.substEdits (byteAt m.payload 1)
            ((List.range (byteAt m.payload 2)).map fun j => w32 m.payload (8 + 4 * j)) } }) ∧
  (∀ (m : Msg) (s : State), admitted opBenchStitchWrite m s = true →
    Completes (.benchStitchWrite m) opBenchStitchWrite m s
      { state := setBar s (byteAt m.payload 0) fun bar => { bar with
          rampEdits := smSetRun bar.rampEdits (256 * byteAt m.payload 1 + u16 m.payload 2)
            ((List.range (u16 m.payload 4)).map fun j => u16 m.payload (8 + 2 * j)) } }) ∧
  (∀ (m : Msg) (s : State), admitted opBenchDropmapWrite m s = true →
    Completes (.benchDropmapWrite m) opBenchDropmapWrite m s
      { state := setChannel s m.handle fun c => { c with dropmapStaged := some (w32 m.payload 0) } })

/-- Admitted: bench.commit switches at once the tables whose lines are not running, and arms the rest for the planned
line, LATE where that is not the line asked; bench.discard drops the host's staged fields of the tables named;
bench.read answers the entries asked; bench.status answers 80 bytes; bench.rotation keeps the new period for the end
of the present one. (R145, R146, R147, R148, R155, R158, R575, R576, 05_bench_screening) -/
def Obligations.BenchTableComplete : Prop :=
  (∀ (m : Msg) (s : State), admitted opBenchCommit m s = true →
    let bar := namedBar s m.handle (byteAt m.payload 1)
    (m.handle = 0 → byteAt m.payload 0 % 8 = 0 ∧ barActive s bar = false) →
    let keys := (maskTables (byteAt m.payload 0)).filter (hasStaged s bar m.handle 0)
    let timed := keys.filter fun k => if k < 3 then channelActive s m.handle else barActive s bar
    let now := keys.filter fun k => !timed.contains k
    let line := if u48 m.payload 4 = 0xFFFFFFFFFFFF then none else some (u48 m.payload 4)
    let s1 := if now.isEmpty then s else switchTables bar m.handle 0 m.seq now none s
    (timed = [] → Completes (.benchCommit m) opBenchCommit m s { state := s1 }) ∧
    (∀ (l : Nat) (isLate : Bool), timed ≠ [] → planLine s bar m.handle timed line = some (l, isLate) →
      let s2 := switchTables bar m.handle 0 m.seq timed (some l) s1
      Completes (.benchCommit m) opBenchCommit m s
        (if isLate then { state := s2, status := stLate, payload := le 6 l } else { state := s2 }))) ∧
  (∀ (m : Msg) (s : State), admitted opBenchDiscard m s = true → (m.handle = 0 → byteAt m.payload 0 % 8 = 0) →
    let bar := namedBar s m.handle (byteAt m.payload 1)
    Completes (.benchDiscard m) opBenchDiscard m s
      { state := (maskTables (byteAt m.payload 0)).foldl (fun s k => dropStaged bar m.handle k s) s }) ∧
  (∀ (m : Msg) (s : State), admitted opBenchRead m s = true → (m.handle = 0 → 2 < byteAt m.payload 0) →
    Completes (.benchRead m) opBenchRead m s
      { state := s, payload := (List.range (u32 m.payload 8)).flatMap fun j =>
          readEntry s (namedBar s m.handle (byteAt m.payload 2)) m.handle (byteAt m.payload 0) (byteAt m.payload 1)
            (u32 m.payload 4 + j) }) ∧
  (∀ (m : Msg) (s : State), admitted opBenchStatus m s = true →
    ∃ b : Bytes, b.length = 8 + 8 * s.bench.bench.length ∧ Completes (.benchStatus m) opBenchStatus m s { state := s, payload := b }) ∧
  (∀ (m : Msg) (s : State), admitted opBenchRotation m s = true →
    Completes (.benchRotation m) opBenchRotation m s
      { state := { s with bench := { s.bench with newPeriod := some (u16 m.payload 0) } } })

/-- Admitted and on a bar with a committed table where one is needed: bar.geom_write stages the slot records;
bar.geom_commit of a table that no check refuses commits it and has the reported heads checked; bar.query answers 48
bytes and head.query 112; head.blank and head.unblank set and set the host's blank cause of the present heads named
and clear causes 5 and 7 on every slot named; head.band_map writes bounds and waves; bar.fire_enable writes FIRE_EN's
enable of the bars it names. (R163, R165, R169, R170, R172, R174, R183, R188, R189, R190, R191,
06_bars_heads_row_delays) -/
def Obligations.GeometryComplete : Prop :=
  (∀ (m : Msg) (s : State), admitted opBarGeomWrite m s = true →
    Completes (.barGeomWrite m) opBarGeomWrite m s
      { state := setBar s (byteAt m.payload 0) fun bar => { bar with
          staged := ((walkSlots m.payload (byteAt m.payload 1) 4).1.map (parseSlot m.payload)).foldl
            (fun t e => smSet t e.1 e.2) bar.staged } }) ∧
  (∀ (m : Msg) (s : State), admitted opBarGeomCommit m s = true →
    let b := byteAt m.payload 0
    let t := stagedTable (barAt s b) (u32 m.payload 4)
    commitRefusal (s.objs.channels.live.any fun e => e.2.bar == b) t = none →
    let s1 := setBar s b fun bar => { bar with
      table := some t, staged := [], ramps := ⟨[], [], none⟩, heads := bar.heads.map (fun h => { h with serial := none }) }
    Completes (.barGeomCommit m) opBarGeomCommit m s
      { state := (presentSlots t).foldl (fun s e => judgeHead b e.1 s) (pushServe b 2 0 (pushServe b 0 0 s1)) }) ∧
  (∀ (m : Msg) (s : State) (t : BarTable), admitted opBarQuery m s = true →
    (barAt s (byteAt m.payload 0)).table = some t →
    ∃ b : Bytes, b.length = 48 ∧ Completes (.barQuery m) opBarQuery m s { state := s, payload := b }) ∧
  (∀ (m : Msg) (s : State) (t : BarTable), admitted opHeadQuery m s = true →
    (barAt s (byteAt m.payload 0)).table = some t →
    ∃ b : Bytes, b.length = 112 ∧ Completes (.headQuery m) opHeadQuery m s { state := s, payload := b }) ∧
  (∀ (m : Msg) (s : State) (t : BarTable), admitted opHeadBlank m s = true →
    (barAt s (byteAt m.payload 0)).table = some t →
    Completes (.headBlank m) opHeadBlank m s
      { state := (namedSlots t (u32 m.payload 4)).foldl (fun s h => withCauses (byteAt m.payload 0) h (7 :: ·) s) s }) ∧
  (∀ (m : Msg) (s : State) (t : BarTable), admitted opHeadUnblank m s = true →
    (barAt s (byteAt m.payload 0)).table = some t →
    Completes (.headUnblank m) opHeadUnblank m s
      { state := ((List.range 32).filter (bit (u32 m.payload 4))).foldl (fun s i => withCauses (byteAt m.payload 0) i (fun l => l.filter fun c => c != 5 && c != 7)
        (if (headAt s (byteAt m.payload 0) i).causes.contains 5 then
          setHead s (byteAt m.payload 0) i fun h => { h with
            accepted := true, serial := some (slice (h.record.getD []) 4 16)
            reportAt := some (h.reportAt.getD s.time.clock) }
         else s)) s }) ∧
  (∀ (m : Msg) (s : State) (t : BarTable), admitted opHeadBandMap m s = true →
    (barAt s (byteAt m.payload 0)).table = some t →
    Completes (.headBandMap m) opHeadBandMap m s
      { state := ((List.range 32).filter (bit (u32 m.payload 4))).foldl (fun s i =>
          setHead s (byteAt m.payload 0) i fun h => { h with
                                  bounds := (List.range 7).map fun k => s16 m.payload (8 + 2 * k)
                                  waves := (List.range 8).map fun k => byteAt m.payload (22 + k) }) s }) ∧
  (∀ (m : Msg) (s : State), admitted opBarFireEnable m s = true →
    let mask := byteAt m.payload 0
    let value := byteAt m.payload 1
    (∀ b < 8, bit mask b = true → bit value b = true → (barAt s b).table.isSome = true) →
    Completes (.barFireEnable m) opBarFireEnable m s { state := noteFireEn 0 s { s with
      bars := s.bars.zipIdx.map fun e => if bit mask e.2 then { e.1 with enable := bit value e.2 } else e.1 } })

/-- A bench that may screen its bar's next output line n does so and goes on to line n + 1; a packable fire line is
handed to the lanes as its blocks, or blank where no bench can serve the bar; a line not handed 2 lines before its
instant is handed with BLANK for the heads that are not ready, and missed if there are any; a bar whose next instant Φ
has reached fires that line; an active run's due switch groups decide; a decided switch that the heads have reached
completes; armed table switches whose line is reached come into force and are reported. (R116, R119, R124, R146, R154,
R178, R210, R214, 95_what_each_step_holds) -/
def Obligations.DotPathComplete : Prop :=
  (∀ (b : Fin 8) (s : State) (n : Nat) (t : BarTable), (barAt s b).nextOut = some n → (barAt s b).table = some t →
    benchServes s b = true → mayScreen s b n = true → decisionDue s b n = false →
    let s1 := decideItems b n t s
    let r := (presentSlots t).foldl (fun acc e => screenSlot b n t (sources s1 b) s1 e acc) (s1, [], 0)
    exec (.outputLineScreen b) s = .next (shadowLine b n (setBar (noteLost b n r.2.2 r.1) b fun x =>
      { x with
        strips := ageStrips s (barQ s b) 128 x.strips, profile := ageStrips s (barQ s b) 1 x.profile
        nextOut := some (n + 1), outLines := ⟨n, r.2.1.reverse⟩ :: x.outLines }))) ∧
  (∀ (b : Fin 8) (s : State) (n out : Nat) (t : BarTable), (barAt s b).nextPack = some n →
    (barAt s b).nextOut = some out → (barAt s b).table = some t → mayHand s b n = true →
    twoAhead s b n = true → (n : Int) ≤ barPos s b + (fifoDepth s b : Int) - 8 →
    (benchless s b = true → exec (.fireLinePack b) s = .next (loseFireLine b n (handLine b n true
      (lineBlocks s b n t (fun _ => true) none) (setBar s b fun x => { x with nextOut := some (max out (n + 1)) })))) ∧
    (benchless s b = false → n < out →
    let drop := testDrop s b n t
    let blocks := lineBlocks s b n t (fun _ => false) drop
    let s1 := handLine b n false blocks s
    exec (.fireLinePack b) s =
      .next (startDrop b n drop (if blocks.any (fun k => !k.blank) then itemsFired b n s1 else s1)))) ∧
  (∀ (b : Fin 8) (s : State) (n out : Nat) (t : BarTable), (barAt s b).nextPack = some n →
    (barAt s b).nextOut = some out → (barAt s b).table = some t → mayHand s b n = true → twoAhead s b n = false →
    exec (.lineDeadline b) s = .next (handLate b n out t s)) ∧
  (∀ (b : Fin 8) (s : State) (n : Nat), (barAt s b).nextFire = some n →
    let trim := nextTrim (barAt s b)
    fireAt { barAt s b with trim4 := trim } (barQ s b) n ≤ s.pos.phi32 →
    let s1 := setBar s b fun bar => { bar with
      trim4 := trim, nextFire := some (n + 1) }
    let s2 := startRuns b n (fireLine b n (if trim = (barAt s b).trim4 then s1 else disturb b n s1))
    exec (.fireInstant b) s = .next (dropDrained b (endRuns (noteRate b
      (setBar s2 b fun bar => { bar with handed := bar.handed.filter fun e => n < e.1 }))))) ∧
  (∀ (k : Fin 8) (s : State) (r : Run), s.objs.runs.at? k = some r → r.state.active = true →
    exec (.switchDecision k) s = .next ((switchGroups s r).foldl
      (fun s g => decideGroup (s.objs.runs.handle tyRun k) g s) s)) ∧
  (∀ (k : Fin 64) (s : State) (c : Channel) (d : Decided) (rest : List Decided) (n : Nat),
    s.objs.channels.at? k = some c → c.decided = d :: rest → (barAt s c.bar).nextOut = some n →
    d.line ≤ n + leastSkew s c.bar → switchPrints s c.run d.line = true →
    exec (.plateSwitched k) s =
      .next (completeSwitch (s.objs.channels.handle tyChannel k) (runPos s (barPitch s c.bar)) s)) ∧
  (∀ (b : Fin 8) (s : State),
    let y := barPos s b
    let now := (barAt s b).switches.filter fun w => (w.line : Int) ≤ y
    now ≠ [] →
    exec (.tableSwitched b) s = .next (now.foldl (fun s w => emitSwitch b w (some w.line) s)
      (setBar { s with objs := { s.objs with channels := s.objs.channels.mapLive fun c =>
                  if c.bar = b then
                    { c with tone := c.tone.reach y.toNat, screen := c.screen.reach y.toNat,
                             dropmap := c.dropmap.reach y.toNat }
                  else c } } b fun x => { x with
        nozzles := x.nozzles.reach y.toNat, subst := x.subst.reach y.toNat, ramps := x.ramps.reach y.toNat
        switches := x.switches.filter fun w => y < (w.line : Int) })))

/-- A declared fault takes a bench out of its role; the spare takes a failed bench's bar over; a confirmed mismatch
condemns the working bench; an elapsed period rotates or moves the shadow on; a bench that passes its test becomes the
spare; a loaded spare starts to shadow. Head records, temperatures, losses and driver status are taken as reported, a
head with a cause is blanked and one without is resumed. A sequencer mismatch starts a test, its verdict ends it, and
a stopped driving sequencer is replaced. (R126, R152, R153, R154, R155, R172, R175, R185, R186, R187, R216, R217) -/
def Obligations.BenchServiceComplete : Prop :=
  (∀ (i : Fin 9) (c : Fin 2) (s : State), (benchAt s i).role ≠ .removed →
    exec (.benchFault i c) s = .next (declareBench i (c + 1) s)) ∧
  (∀ (b : Fin 8) (s : State) (leaving i : Nat), s.bench.takeovers.find? (fun e => e.1 == b.val) = some (b.val, leaving) →
    spareBench s = some i →
    let matched := if (benchAt s i).role = .shadowing b then (benchAt s i).matched else 0
    let s1 := setBench (abandonLoan i b s) i fun e => { e with role := .working b, matched := 0 }
    exec (.spareTakeover b) s = .next (tellNoSpare (benchRotated b leaving i 1 matched (auditRuns (runOn s b)
      (fun a => { a with tkBench := a.tkBench + 1 })
      { s1 with bench := { s1.bench with takeovers := s1.bench.takeovers.filter fun e => e.1 != b.val } })))) ∧
  (∀ (slot : Fin 32) (s : State) (x b w : Nat), shadowed s = some (x, b) → workingOn s b = some w →
    let count := fun (e : Bench) => { e with mismatches := (e.mismatches + 1) % 2 ^ 32, matched := 0 }
    let s1 := setBench (setBench s x count) w count
    exec (.shadowMismatch slot true) s = .next (declareBench w 3 (fieldEvent 0x0503 0
      (le 1 b ++ le 1 w ++ le 1 x ++ le 1 0 ++ le 4 slot) s1)) ∧
    exec (.shadowMismatch slot false) s = .next (declareBench x 3 (fieldEvent 0x0503 0
      (le 1 b ++ le 1 w ++ le 1 x ++ le 1 1 ++ le 4 slot) s1))) ∧
  (∀ (s : State) (x b w : Nat), shadowed s = some (x, b) → s.bench.periodEnd ≤ s.time.clock → s.thermal.step = 0 →
    s.bench.period ≠ 0 → workingOn s b = some w → (benchAt s x).matched ≠ 0 ∨ barLive s b = false →
    let s1 := benchRotated b w x 0 (benchAt s x).matched (setBench (setBench s w fun e => { e with role := .testing false }) x
      fun e => { e with role := .working b, matched := 0 })
    let p := s.bench.newPeriod.getD s.bench.period
    exec .rotationPeriod s = .next { s1 with bench := { s1.bench with
      rotBar := (b + 1) % 8, period := p, newPeriod := none
      periodEnd := s1.time.clock + 1000000000 * (if p = 0 then 120 else p) } }) ∧
  (∀ (i : Fin 9) (declared : Bool) (s : State), (benchAt s i).role = .testing declared →
    exec (.benchTestDone i true) s =
      .next (setBench s i fun e => { e with role := .loading s.bench.rotBar, matched := 0 }) ∧
    exec (.benchTestDone i false) s = .next (removeBench i (fieldEvent 0x0504 0 (le 1 i ++ [4, 0xFF, 1]) s))) ∧
  (∀ (s : State) (x b : Nat), loadingSpare s = some (x, b) → loanWanted s b = false →
    exec .spareLoadDone s = .next (setBench s x fun e => { e with role := .shadowing b, matched := 0 })) ∧
  (∀ (b : Fin 8) (i : Fin 32) (present : Bool) (rec : Bytes) (s : State),
    exec (.headRecord b i present rec) s = .next (judgeHead b i (setHead (takePacket b 0x21 s) b i fun h =>
      { h with reported := some present, record := if present then some (fit 64 rec) else h.record }))) ∧
  (∀ (b : Fin 8) (l : List (Fin 32 × Bool × Int)) (s : State),
    exec (.headTemp b l) s =
      .next (l.foldl (fun s e => headReport b e.1 e.2.1 e.2.2 s) (takePacket b 0x22 s))) ∧
  (∀ (b : Fin 8) (i : Fin 32) (s : State) (t : Nat), (headAt s b i).accepted = true →
    (headAt s b i).reportAt = some t → t + 300000000 ≤ s.time.clock → (barAt s b).headLimit.isSome = true →
    exec (.headReportMissing b i) s = .next (withCauses b i (6 :: ·) s)) ∧
  (∀ (b : Fin 8) (i : Fin 32) (s : State), (headAt s b i).accepted = true →
    exec (.headLost b i) s = .next (recordCause b i (some 1)
      (setHead s b i fun h => { h with reported := some false, accepted := false }))) ∧
  (∀ (b : Fin 8) (free : Nat) (faults : BitVec 16) (s : State),
    exec (.driverStatus b free faults) s = .next (setBar (takePacket b 0x24 s) b fun x =>
      { x with freeLines := free % 65536, driverFaults := faults })) ∧
  (∀ (b : Fin 8) (i : Fin 32) (s : State), (headAt s b i).causes ≠ [] →
    (headAt s b i).blank = false ∨ (headAt s b i).resumeAt ≠ none →
    let h := headAt s b i
    let live := barActive s b
    let l := if live then firstOnTime s b else 0
    let stop := (barAt s b).nextFire.getD (barPos s b + 1).toNat
    let stretch := match h.resumeAt, h.outFrom with
      | some r, some o => if l < r then (o, h.outPast) else (l, ((o, r) :: h.outPast).take 8)
      | _, _ => (l, h.outPast)
    let s1 := setHead s b i fun h =>
      { h with blank := true, outFrom := some stretch.1, outPast := stretch.2, resumeAt := none }
    let s2 := pushServe b 3 l (headCommand b (2 ^ i.val) 1 (disturb b stop (if live then disturb b l s1 else s1)))
    exec (.headBlanked b i) s = .next (fieldEventAt 0x0602 0 (if live then some l else none)
      (le 1 b ++ le 1 i ++ le 1 (h.causes.headD 0) ++ zeros 1 ++ le 4 stop)
      (auditRuns (runOn s b) (fun a => { a with headBlanks := a.headBlanks + 1 }) s2))) ∧
  (∀ (b : Fin 8) (i : Fin 32) (s : State), (headAt s b i).causes = [] → (headAt s b i).blank = true →
    (headAt s b i).resumeAt = none →
    let l := resumeLineOf s b (((barAt s b).table.map fun t => t.slots.getD i {}).getD {})
    exec (.headResumed b i) s = .next (fieldEventAt 0x0603 0 l (le 1 b ++ le 1 i) (pushServe b 3 (l.getD 0)
      (disturb b (l.getD (barPos s b).toNat) (setHead s b i fun h => match l with
        | some y => { h with resumeAt := some y }
        | none => { h with blank := false, outFrom := none, resumeAt := none }))))) ∧
  (∀ (b : Fin 8) (dev : SeqDev) (s : State), s.bench.lsRemoved = false → s.bench.lsFormerTest = false →
    s.bench.lsTest = none →
    exec (.lsMismatch b dev) s = .next { s with bench := { s.bench with
      lsDev := dev, lsTest := (seqItem s b dev).map fun item => (item, b.val) } }) ∧
  (∀ (item b : Nat) (s : State), s.bench.lsTest = some (item, b) →
    exec (.lsbTestDone true) s = .next (sequencerTakeover (fieldEventAt 0x070B 0 (some (runPos s 0))
      (le 1 item ++ le 1 b ++ le 1 (flag s.bench.lsbActive)) s))) ∧
  (∀ s : State, s.bench.lsTest = none → s.bench.lsFormerTest = true →
    exec (.lsbTestDone true) s = .next { s with bench := { s.bench with lsFormerTest := false, lsDev := {} } } ∧
    exec (.lsbTestDone false) s = .next (domainOff (if s.bench.lsbActive then 17 else 18)
      { s with bench := { s.bench with lsFormerTest := false, lsRemoved := true } })) ∧
  (∀ (b : Fin 8) (s : State), s.bench.lsRemoved = false → s.bench.lsFormerTest = false →
    exec (.lsaStop b) s = .next (fireNext b (sequencerTakeover s)))

/-- Admitted and with the conditions of their rules met: each operation of the pos family writes what its payload says
(encoder, tracking, trim, mark and emulated-output settings, the web position) and answers OK; pos.query answers 48
bytes and its lists of inputs and bars; pos.fault_clear clears slip, and faults that no longer stand unfreeze Φ with
the high-water count moved to the raw count. (R192, R196, R204, R206, R211, R215, R222, R224, R226, R233, R234, R235)
-/
def Obligations.PositionComplete : Prop :=
  (∀ (m : Msg) (s : State), admitted opPosEncoderConfig m s = true →
    (webInput s (byteAt m.payload 0) && anyActive s) = false →
    Completes (.posEncoderConfig m) opPosEncoderConfig m s
      { state := setEnc s (byteAt m.payload 0) fun e => { e with
          mode := byteAt m.payload 1, filter := byteAt m.payload 2
          invert := bit (byteAt m.payload 3) 0, term := bit (byteAt m.payload 3) 1 } }) ∧
  (∀ (m : Msg) (s : State), admitted opPosTrackConfig m s = true →
    let b := m.payload
    anyActive s = false ∨ s.pos.configured = true ∧ s.pos.source = byteAt b 0 ∧ s.pos.role = byteAt b 1 ∧
      s.pos.num = u48 b 8 ∧ s.pos.den = u48 b 14 →
    let s1 := retrack (byteAt b 0) (byteAt b 1) (u48 b 8) (u48 b 14) s
    Completes (.posTrackConfig m) opPosTrackConfig m s
      { state := { s1 with pos := { s1.pos with
          hyst := byteAt b 2, speedAvg := byteAt b 3, standstillMs := u16 b 4, bandwidth := u16 b 6
          lagLimit := byteAt b 20, wordEvery8 := byteAt b 21 == 1 } } }) ∧
  (∀ (m : Msg) (s : State), admitted opPosQuery m s = true →
    ∃ b : Bytes, b.length = 48 + 12 * s.pos.enc.length + 6 * s.bars.length ∧
      Completes (.posQuery m) opPosQuery m s { state := s, payload := b }) ∧
  (∀ (m : Msg) (s : State), admitted opPosSet m s = true → s.pos.configured = true → s.pos.role ≠ 2 →
    anyActive s = false → webCompareArmed s = false →
    Completes (.posSet m) opPosSet m s { state := setLine (u48 m.payload 0) s } ∧
    (setLine (u48 m.payload 0) s).pos.phi32 = (u48 m.payload 0 : Int) * 2 ^ 32) ∧
  (∀ (m : Msg) (s : State), admitted opPosTrim m s = true →
    let aim : Bar × Nat → Bar := fun e =>
      if bit (byteAt m.payload 0) e.2 then { e.1 with trimHost := s8 m.payload (4 + e.2) } else e.1
    Completes (.posTrim m) opPosTrim m s { state := { s with bars := s.bars.zipIdx.map aim } }) ∧
  (∀ (m : Msg) (s : State), admitted opPosMarkConfig m s = true →
    let b := m.payload
    Completes (.posMarkConfig m) opPosMarkConfig m s
      { state := setMark s (byteAt b 0) fun _ =>
          { enable := bit (byteAt b 1) 0, falling := bit (byteAt b 1) 1, window := bit (byteAt b 1) 2
            filterUs := byteAt b 2, maskLines := u32 b 4, expect := u64 b 8, halfWidth := u32 b 16, pitch := u32 b 20
            ignoreTo := none } }) ∧
  (∀ (m : Msg) (s : State), admitted opPosEmuConfig m s = true →
    let b := m.payload
    Completes (.posEmuConfig m) opPosEmuConfig m s
      { state := setEmu s (byteAt b 0) fun o => { o with
          source := byteAt b 1, input := byteAt b 2, invert := bit (byteAt b 3) 0, zEnable := bit (byteAt b 3) 1
          n := u32 b 4, m := u32 b 8, zPeriod := u32 b 12, minEdge := u16 b 16
          base := if byteAt b 1 = 0 then 0 else emuInput s (byteAt b 1) (byteAt b 2), emitted := 0
          zSeen := (encAt s (byteAt b 2)).zEdges } }) ∧
  (∀ (m : Msg) (s : State), admitted opPosFaultClear m s = true → faultStands s = false →
    let c := (encAt s s.pos.source).count
    let s1 := s.pos.frozenBy.foldl (fun s i =>
      faultEvent i 3 (setEnc s i fun e => { e with absentSince := none, illegalAt := [] }))
      { s with pos := { s.pos with slip := false } }
    Completes (.posFaultClear m) opPosFaultClear m s
      (if s.pos.frozen = true then
        { state := { s1 with pos := { s1.pos with
            frozen := false, frozenBy := [], theta0 := theta s.pos, high := c, h0 := c, inDebt := false, maxDebt := 0 } } }
       else { state := { s with pos := { s.pos with slip := false } } }))

/-- Admitted and with the conditions of their rules met: cmp.create makes a disarmed compare; cmp.arm arms it for a
value that lies ahead, hits at once where the value is the present position and answers LATE with its distance where
the value lies behind; cmp.disarm disarms and ends its pulse; cmp.destroy frees a disarmed compare; cmp.query answers
28 bytes. A compare's pulse ends at its own end. (R218, R219, R220, R221, R236) -/
def Obligations.CompareComplete : Prop :=
  (∀ (m : Msg) (s : State) (i : Nat) (t : ObjTable Trigger), admitted opCmpCreate m s = true →
    let b := m.payload
    s.objs.triggers.create { kind := .compare (byteAt b 0) (byteAt b 1) (byteAt b 2) (bit (byteAt b 3) 0)
                               (bit (byteAt b 3) 1) (byteAt b 4) (u16 b 6) (s64 b 8) (u32 b 16)
                             armed := false, value := 0, hits := 0, armHits := 0, skipped := 0, lastHit := 0
                             next16 := 0, eventAts := [] } = some (i, t) →
    Completes (.cmpCreate m) opCmpCreate m s
      { state := { s with objs := { s.objs with triggers := t } }, handle := some (t.handle tyTrigger i) }) ∧
  (∀ (m : Msg) (s : State) (t : Trigger) (source input dir out us repeats : Nat) (event pulse : Bool) (period : Int),
    admitted opCmpArm m s = true → triggerOf s m.handle = some t →
    t.kind = .compare source input dir event pulse out us period repeats →
    let v := s64 m.payload 0
    let s1 := setTrigger s m.handle fun t => { t with armed := true, value := v, armHits := 0 }
    (lateness s source input dir v = none → Completes (.cmpArm m) opCmpArm m s { state := s1 }) ∧
    (∀ late, lateness s source input dir v = some late →
      Completes (.cmpArm m) opCmpArm m s
        (if v = comparePos s source input then { state := compareHit (hIdx m.handle) none s1 }
         else { state := compareHit (hIdx m.handle) (some late) s1, status := stLate, payload := le 6 late }))) ∧
  (∀ (m : Msg) (s : State), admitted opCmpDisarm m s = true →
    Completes (.cmpDisarm m) opCmpDisarm m s
      { state := endFieldPulse (hIdx m.handle) (setTrigger s m.handle fun t => { t with armed := false }) }) ∧
  (∀ (m : Msg) (s : State) (t : Trigger), admitted opCmpDestroy m s = true → triggerOf s m.handle = some t →
    t.armed = false →
    Completes (.cmpDestroy m) opCmpDestroy m s
      { state := { s with objs := { s.objs with triggers := s.objs.triggers.release (hIdx m.handle) } } }) ∧
  (∀ (m : Msg) (s : State) (t : Trigger), admitted opCmpQuery m s = true → triggerOf s m.handle = some t →
    ∃ b : Bytes, b.length = 28 ∧ Completes (.cmpQuery m) opCmpQuery m s { state := s, payload := b }) ∧
  (∀ (k : Fin 128) (s : State),
    exec (.comparePulseEnd k) s = .next { s with pos := { s.pos with
      pulses := s.pos.pulses.map fun l => l.filter fun e => e.1 != k.val || s.time.clock < e.2 } })

/-- A burst of samples that the filter does not accept changes the filter alone; an accepted edge of one of A and B
moves the raw count by one, wrapped to 48 bits, where the mode counts it; both in different samples count one after
the other, both in one sample count nothing and are an illegal transition; an accepted rising Z edge captures the raw
count; a fault cause freezes θ and Φ when the input is the web source; standstill is declared after standstill_ms
without a count; a loop update that is due advances the loop by 1 µs, then compares and marks; an accepted mark edge
is reported; an emulated output gives the next owed edge; cascade words are sent, judged and missed. (R194, R195,
R196, R197, R201, R205, R218, R222, R224, R228, R231, 95_what_each_step_holds) -/
def Obligations.WebInputComplete : Prop :=
  (∀ (i : Fin 4) (a b : Bool) (n : Nat) (s : State),
    let e := encAt s i
    let s0 := setEnc s i fun e => { e with a := feed e.filter a n e.a, b := feed e.filter b n e.b }
    (acceptAt e.filter e.a a n = none → acceptAt e.filter e.b b n = none →
      exec (.encoderCount i a b n) s = .next s0) ∧
    (∀ x, acceptAt e.filter e.a a n = some x → acceptAt e.filter e.b b n = none →
      exec (.encoderCount i a b n) s = .next (takeEdge i true a e.b.level s0)) ∧
    (∀ x, acceptAt e.filter e.a a n = none → acceptAt e.filter e.b b n = some x →
      exec (.encoderCount i a b n) s = .next (takeEdge i false e.a.level b s0)) ∧
    (∀ x, acceptAt e.filter e.a a n = some x → acceptAt e.filter e.b b n = some x →
      exec (.encoderCount i a b n) s = .next (takeIllegal i s0)) ∧
    (∀ x y, acceptAt e.filter e.a a n = some x → acceptAt e.filter e.b b n = some y → x < y →
      exec (.encoderCount i a b n) s = .next (takeEdge i false a b (takeEdge i true a e.b.level s0)))) ∧
  (∀ (i : Nat) (aEdge a b : Bool) (s : State), edgeCount (encAt s i) aEdge a b ≠ 0 →
    let e := encAt s i
    let d := edgeCount e aEdge a b
    let c := toSigned 48 (ofSigned 48 (e.count + d))
    let s1 := setEnc s i fun e => { e with count := c, steps := e.steps + 1 }
    takeEdge i aEdge a b s = checkCounts i e.count c (if webInput s i then webCount d c s1 else s1)) ∧
  (∀ (i : Fin 4) (n : Nat) (s : State), (encAt s i).mode ≠ 0 → acceptAt (encAt s i).filter (encAt s i).z true n ≠ none →
    exec (.zEdge i true n) s = .next (setEnc (setEnc s i fun e => { e with z := feed e.filter true n e.z }) i fun e =>
      { e with zCount := e.count, zTime := s.time.field, zEdges := e.zEdges + 1 })) ∧
  (∀ (i : Fin 4) (illegal : Bool) (s : State), (encAt s i).mode ≠ 0 → hasCause illegal (encAt s i) = false →
    (illegal = true → manyIllegal (encAt s i) = true) →
    let s1 := setEnc s i fun e => { withCause illegal true e with absentSince := none }
    exec (.encFault i illegal false) s = .next (posEvent 0x0701 0
      (le 1 i ++ le 1 (if illegal then 2 else 1) ++ le 1 (flag (webInput s i)))
      (if webInput s i then { s1 with pos := { s1.pos with
        frozen := true, frozenBy := i.val :: s1.pos.frozenBy.filter (· != i.val) } } else s1))) ∧
  (∀ (i : Fin 4) (illegal : Bool) (s : State), hasCause illegal (encAt s i) = true →
    faulty (withCause illegal false (encAt s i)) = false →
    let s1 := setEnc s i (withCause illegal false)
    exec (.encFault i illegal true) s = .next
      (if freezes s i then setEnc s1 i fun e => { e with absentSince := some s.time.clock } else faultEvent i 3 s1)) ∧
  (∀ (s : State) (t : Nat) (l : List Nat), s.pos.stamps = t :: l → s.pos.configured = true → s.pos.role ≠ 2 →
    s.pos.still = false → t + 1000000 * s.pos.standstillMs ≤ s.time.clock →
    exec .standstill s =
      .next (posEvent 0x0704 0 (zeros 8) { s with pos := { s.pos with still := true, stamps := [] } })) ∧
  (∀ s : State, s.pos.loopAt + 1000 ≤ s.time.clock →
    exec .loopUpdate s = .next ((List.range 8).foldl (fun s b => tellMissed b s) ([0, 1].foldl markMissed (checkPositions
      (loopStep { s with pos := { s.pos with loopAt := s.pos.loopAt + 1000 } }))))) ∧
  (∀ (k : Fin 4) (s : State), (emuOwed s (emuAt s k)).natAbs ≤ 4096 → emuOwed s (emuAt s k) ≠ 0 →
    due (emuAt s k).edgeAt (emuAt s k).minEdge s.time.clock = true →
    let owed := emuOwed s (emuAt s k)
    let zNext := emuRepeat (emuAt s k) (encAt s (emuAt s k).input)
    exec (.emuEdge k) s = .next (setEmu s k fun o =>
      let step : Int := if 0 < owed then 1 else -1
      { emuTurn (decide (0 < owed)) o with
        emitted := o.emitted + step, edgeAt := some s.time.clock
        z := if o.source == 1 && o.zPeriod == 0 then o.zEnable && zNext else emuZ o (o.emitted + step)
        zSeen := (encAt s (emuAt s k).input).zEdges })) ∧
  (∀ s : State, s.pos.configured = true → s.pos.role = 1 → s.pos.wordAt + 50000 ≤ s.time.clock →
    exec .positionWordSend s = .next (sendMark 11 2 (positionWord s) { s with pos := { s.pos with
      wordPos := (phi64 s).toNat, wordAt := s.time.clock, wordSeq := (s.pos.wordSeq + 1) % 256 } })) ∧
  (∀ (s t : State) (b : Bytes), ReadsBlock s 22 0x66 b t → byteAt b 1 = 2 → follower s = true →
    let w := slice b 2 10
    exec .positionWordReceive s = .next (settleRx 22
      (if crcMsb (0x1021#16) (0xFFFF#16) (w.take 8) = BitVec.ofNat 16 (u16 w 8) then validWord w t else missWords 1 t))) ∧
  (∀ (s : State) (t : Nat), follower s = true → s.pos.rxAt = some t → t + 100000 ≤ s.time.clock →
    exec .cascadeWordTimeout s = .next (missWords 2 s)) ∧
  (∀ (k : Fin 2) (falling : Bool) (held : Nat) (s : State),
    let s0 := markMissed s k
    let m := markAt s0 k
    let pos := thetaMark s0
    m.enable = true → m.falling = falling → m.filterUs ≤ held → (∀ l : Int, m.ignoreTo = some l → l ≤ pos) →
    let stray := m.window && m.halfWidth < distInt pos m.expect
    let s1 := markEvent k pos (flag stray + 4 * flag s0.pos.inDebt) s0
    exec (.mark k falling held) s = .next (if stray then s1 else setMark s1 k fun m =>
      { m with ignoreTo := some (pos + 64 * (m.maskLines : Int)), passed := false
               expect := if m.window && !s0.pos.inDebt then pos.toNat + m.pitch else m.expect }))

/-- Admitted and with the conditions of R276 to R278 met: sett.config of a link that no run uses enables it (a pass
starts), disables it or changes its rate (a new pass); sett.query answers 96 bytes; sett.retrain requests a pass;
sett.remap replaces a lane by a spare, or starts the returning lane's own pass with a REMAP (on a link that is not
ACTIVE the lane returns at once). (R249, R269, R270, R276, R277, R278, 08_sett_links) -/
def Obligations.SettComplete : Prop :=
  (∀ (m : Msg) (s : State), admitted opSettConfig m s = true →
    let b := m.payload
    let k := byteAt b 0
    let n := linkAt s k
    let on := bit (byteAt b 2) 0
    let spare := if byteAt b 3 = 0xFF then none else some (byteAt b 3)
    let rate := if k < 12 then byteAt b 1 else n.rateCfg
    linkInUse s k = false → spareInUse s k = false →
    let s1 := setLink s k fun n =>
      { n with rateCfg := rate, spareBar := if k < 12 then none else spare, configured := n.configured || on }
    (n.state = .disabled → on = false → Completes (.settConfig m) opSettConfig m s { state := s1 }) ∧
    (n.state = .disabled → on = true → Completes (.settConfig m) opSettConfig m s
      { state := startPass k none (setLink s1 k fun n => { n with offlineTold := false }) }) ∧
    (n.state ≠ .disabled → on = false → Completes (.settConfig m) opSettConfig m s
      { state := linkEvent k 0 (setLink (leaveActive k s1) k fun n =>
          { n with state := .disabled, pass := false, deferred := false, lanePass := none }) }) ∧
    (n.state ≠ .disabled → on = true → rate ≠ n.rateCfg → Completes (.settConfig m) opSettConfig m s
      { state := requestPass k s1 })) ∧
  (∀ (m : Msg) (s : State), admitted opSettQuery m s = true → (linkAt s (byteAt m.payload 0)).partner.length = 16 →
    (∀ l, (laneAt s l).partnerEye.length = 8) →
    ∃ b : Bytes, b.length = 96 ∧ Completes (.settQuery m) opSettQuery m s { state := s, payload := b }) ∧
  (∀ (m : Msg) (s : State), admitted opSettRetrain m s = true →
    let k := byteAt m.payload 0
    (linkAt s k).state ≠ .disabled → linkInUse s k = false →
    Completes (.settRetrain m) opSettRetrain m s { state := requestPass k s }) ∧
  (∀ (m : Msg) (s : State), admitted opSettRemap m s = true →
    let k := byteAt m.payload 0
    let lane := byteAt m.payload 1
    (byteAt m.payload 2 = 0 → (wiredSpare s k).isSome = true ∨ (freeCore s).isSome = true →
      Completes (.settRemap m) opSettRemap m s { state := remapLane k lane s }) ∧
    (byteAt m.payload 2 ≠ 0 → (∃ r ∈ (linkAt s k).remaps, r.2.2 = lane) →
      ((linkAt s k).state = .active → (linkAt s k).lanePass = none →
        let s1 := putControl k (laneFor s k (1 - lane)) (le 1 0x69 ++ le 1 1 ++ le 1 lane) s
        Completes (.settRemap m) opSettRemap m s { state := startLanePass k lane s1 }) ∧
      ((linkAt s k).state ≠ .active → (linkAt s k).lanePass = none →
        Completes (.settRemap m) opSettRemap m s { state := laneReturned k lane s })))

/-- On a link that is enabled the bits of a lane's line are taken one by one and the blocks behind them settled; valid
headers take a lane from hunt over 64 tries to LOCKED, an invalid one of a lane that is not LOCKED returns it to hunt
one bit later, and one of a LOCKED lane is counted and costs the lock with the sixteenth among the last 64. A TS1 as
received gives seed, lane, phase and status; the second candidate inverted TS1 in a row turns the lane's polarity; a
new TS2 request sets the taps and its answer; a repeated CONFIG counts up; a LAT probe is echoed and an echo measured;
a pass whose phase's exit holds advances, goes ACTIVE at READY, fails after 100 ms, and is retried 500 ms after its
start. That an invalid header moves the candidate by one bit is in log 123. (R239, R240, R241, R242, R243, R245, R246,
R247, R248, R250, R251, 08_sett_links) -/
def Obligations.LinkTrainingComplete : Prop :=
  (∀ (l : Fin 24) (s : State) (line : List Bool), (linkAt s (linkOf l)).state ≠ .disabled →
    let s1 := setLane s l fun x => line.foldl (Lane.takeBit s.time.clock) x
    ((laneAt s l).isLocked = true ∨ (laneAt s1 l).isLocked = false →
      exec (.laneAlignment l line) s = .next (settleRx l s1)) ∧
    ((laneAt s l).isLocked = false → (laneAt s1 l).isLocked = true →
      exec (.laneAlignment l line) s = .next (settleRx l (laneBack l s1)))) ∧
  (∀ (now : Nat) (h : Bool) (x : Lane),
    (x.align = .hunt → x.header now h (!h) = { x with align := .try 1 }) ∧
    (∀ c, x.align = .try c → c < 63 → x.header now h (!h) = { x with align := .try (c + 1) }) ∧
    (∀ c, x.align = .try c → 63 ≤ c → x.header now h (!h) = { x with align := .locked [], lostAt := none, lockDue := true }) ∧
    (x.isLocked = false → x.header now h h =
      { x with align := .hunt, candidate := x.candidate + 1, rxBits := [h], rxViol := false }) ∧
    (∀ bad, x.align = .locked bad → (((true :: bad).take 64).filter id).length < 16 → x.header now h h =
      { x with align := .locked ((true :: bad).take 64), headerErr := count32 x.headerErr }) ∧
    (∀ bad, x.align = .locked bad → 16 ≤ (((true :: bad).take 64).filter id).length → x.header now h h =
      { x with align := .hunt, headerErr := count32 x.headerErr, lockLoss := min (x.lockLoss + 1) 65535
               lostAt := some now, lockDue := true })) ∧
  (∀ (l : Fin 24) (s : State) (b : RxBlock), (laneAt s l).next? = some b →
    (b.h0 = true → b.h1 = false → byteAt b.payload 0 = 0x1E →
      let s1 := setLane s l fun x => { x with
        rx := x.rx.tail, rxScr := BitVec.ofNat 31 (u32 b.payload 4), seedOk := true
        ts1Run := x.ts1Run + 1, ts1InvRun := 0, settled := x.settled || 1 ≤ x.ts1Run
        rxLogical := byteAt b.payload 1 % 2, rxPhase := field (byteAt b.payload 1) 4 2
        rxLocked := bit (byteAt b.payload 2) 0, rxSeed := bit (byteAt b.payload 2) 1 }
      let k := linkOf l
      exec (.ts1 l) s = .next (settleRx l (
        if (linkLanes k).length = 2 ∧ (linkLanes k).head? = some l.val ∧ (linkAt s k).pass = true ∧ (linkAt s k).phase = 0
        then setLink s1 k fun n => { n with swapped := byteAt b.payload 1 % 2 == 1 } else s1))) ∧
    (b.h0 = false → b.h1 = true → byteAt b.payload 0 = 0xE1 → (laneAt s l).settled = false →
      (ts1Ok (complement b.payload) = true → 1 ≤ (laneAt s l).ts1InvRun → exec (.ts1 l) s = .next (settleRx l
        (setLane s l fun x => { x with inverted := !x.inverted, ts1Run := 0, ts1InvRun := 0 }))) ∧
      (ts1Ok (complement b.payload) = true → (laneAt s l).ts1InvRun = 0 → exec (.ts1 l) s = .next (settleRx l
        (setLane s l fun x => { x.skip with ts1InvRun := 1, ts1Run := 0 }))) ∧
      (ts1Ok (complement b.payload) = false → exec (.ts1 l) s = .next (settleRx l
        (setLane s l fun x => { x.skip with ts1Run := 0, ts1InvRun := 0 }))))) ∧
  (∀ (l : Fin 24) (s t : State) (b : Bytes), ReadsBlock s l 0x2D b t → lanePhase s l = some 1 →
    ((laneAt s l).ts2Any = false ∨ byteAt b 2 ≠ (laneAt s l).ts2Seq) →
    let s1 := setLane t l fun x => { x with
      ts2Any := true, ts2Seq := byteAt b 2, partnerDone := x.partnerDone || byteAt b 1 == 15
      ownAnswered := x.ownAnswered || (byteAt b 4 == x.ownSeq && byteAt b 3 != 1) }
    exec (.ts2 l) s = .next (settleRx l (setLane s1 l fun x =>
      match firRequest x.pre x.post (byteAt b 1) with
      | none => { x with ts2Resp := 3 }
      | some (a, c) => if firOk a c then { x with pre := a, post := c, ts2Resp := 0 } else { x with ts2Resp := 2 }))) ∧
  (∀ (l : Fin 24) (s t : State) (b : Bytes), ReadsBlock s l 0x3C b t → lanePhase s l = some 2 →
    256 ≤ u16 b 4 ∨ 8 ≤ linkOf l →
    let k := linkOf l
    exec (.config l) s = .next (settleRx l (setLink t k fun n => { n with
      configs := if n.configs != 0 && n.partner == b then n.configs + 1 else 1
      partner := b, masterLatency := if k = 10 then u32 b 11 else n.masterLatency }))) ∧
  (∀ (l : Fin 24) (s t : State) (b : Bytes) (ph : Nat), ReadsBlock s l 0x47 b t → lanePhase s l = some ph → 3 ≤ ph →
    let k := linkOf l
    (byteAt b 1 = 0 → exec (.lat l) s = .next (settleRx l (putControl k l (slice b 0 1 ++ [1] ++ slice b 2 14) t))) ∧
    (byteAt b 1 ≠ 0 → (linkAt s k).probes.contains (u32 b 4) = true →
      exec (.lat l) s = .next (settleRx l (setLink t k fun n => { n with
        probes := n.probes.erase (u32 b 4), echoes := n.echoes + 1
        echoSum := n.echoSum + (s.time.clock * 16 / 10 % 2 ^ 32 + 2 ^ 32 - u32 b 4) % 2 ^ 32 })))) ∧
  (∀ (k : Fin 14) (s : State) (lanes : List Nat) (ph : Nat), trainGroup s k = some (lanes, ph) →
    (ph = 0 → (∀ l ∈ lanes, alignDone (laneAt s l) = true) →
      exec (.trainingPhaseAdvance k) s = .next (enterPhase k 1 s)) ∧
    (ph = 1 → (∀ l ∈ lanes, (laneAt s l).partnerDone = true ∧ (laneAt s l).ownDone = true) →
      exec (.trainingPhaseAdvance k) s = .next (enterPhase k 2 (setLink s k fun n => { n with configs := 0 }))) ∧
    (ph = 2 → 4 ≤ (linkAt s k).configs → (∀ l ∈ lanes, 2 ≤ (laneAt s l).rxPhase) →
      exec (.trainingPhaseAdvance k) s = .next (leaveConfig k s)) ∧
    (ph = 3 → 16 ≤ (linkAt s k).echoes → exec (.trainingPhaseAdvance k) s =
      .next (enterPhase k 4 (setLink s k fun n => { n with latency := measuredLatency (linkAt s k) }))) ∧
    (ph = 4 → (∀ l ∈ lanes, (laneAt s l).rxPhase = 4) → (linkAt s k).pass = true →
      exec (.trainingPhaseAdvance k) s = .next (goActive k s))) ∧
  (∀ (k : Fin 14) (s : State),
    ((linkAt s k).pass = true → (linkAt s k).passAt + 100000000 ≤ s.time.clock →
      exec (.trainingTimeout k) s = .next (failPass k false s)) ∧
    (∀ x ph since, (linkAt s k).pass = false → (linkAt s k).lanePass = some (x, ph, since, false) →
      since + 100000000 ≤ s.time.clock → exec (.trainingTimeout k) s = .next
        (setLink s k fun n => { n with lanePass := n.lanePass.map fun p => (p.1, p.2.1, p.2.2.1, true) })) ∧
    ((linkAt s k).pass = false → (linkAt s k).state = .offline ∨ (linkAt s k).state = .refused →
      (linkAt s k).passAt + 500000000 ≤ s.time.clock → exec (.trainingRetry k) s = .next (startPass k none s)) ∧
    (∀ x ph since, (linkAt s k).state = .active → (linkAt s k).lanePass = some (x, ph, since, true) →
      since + 500000000 ≤ s.time.clock → exec (.trainingRetry k) s = .next (startLanePass k x s)))

/-- On an ACTIVE link: a good packet is taken from the lane's byte stream, its units granted, and handed on where the
far end may send its type; a damaged one is discarded with all behind it and asks for a replay; an ACK frees blocks,
gives credit, locks and the fire limit, and a NAK replays; a due ACK goes out on every lane; kept blocks are sent
again after 2 µs without an advance; RESUME of the number expected ends discarding; SYNC gives the descrambler its
state; a camera link gets TIME every 1 ms; serve data goes out at most 984 bytes a packet. (R240, R241, R254, R256,
R257, R258, R259, R260, R262, R263, R266, 08_sett_links) -/
def Obligations.LinkLayerComplete : Prop :=
  (∀ (l : Fin 24) (s : State) (p : Bytes), (linkAt s (servedLink s l)).state = .active →
    let k := servedLink s l
    let len := u16 p 2
    (firstPacket (laneAt s l).rxBytes = some (true, p) →
      let s1 := setLane s l fun x => { x with rxBytes := skipPadding 512 (x.rxBytes.drop p.length) }
      let s2 := setLink s1 k fun n => { n with granted := (n.granted + ceilDiv (8 + len) 64) % 65536 }
      exec (.packetReceive l) s = .next (setLink s2 k fun n =>
        if byteAt p 1 = 0 ∧ typeOk k (byteAt p 0) = true then
          { n with inbox := (n.inbox ++ [(byteAt p 0, slice p 4 len)]).drop (n.inbox.length - 255) }
        else { n with badPackets := n.badPackets + 1 })) ∧
    (firstPacket (laneAt s l).rxBytes = some (false, p) → exec (.packetReceive l) s = .next (setLane s l fun x =>
      { x.damaged 0 with crcFail := count32 x.crcFail, crcAt := (s.time.clock :: x.crcAt).take 2048 }))) ∧
  (∀ (l : Fin 24) (s t : State) (b : Bytes), ReadsBlock s l 0x55 b t →
    let k := servedLink t l
    let x := laneAt t l
    let seq := BitVec.ofNat 16 (u16 b 1)
    let flags := byteAt b 3
    let known := x.kept.any (fun e => e.1 == seq) || seq == x.txSeq
    (linkAt t k).state = .active →
    (bit flags 0 = true → known = false → exec (.ack l) s = .next (settleRx l (linkEvent k 2 (startPass k none t)))) ∧
    (bit flags 0 = false ∨ known = true →
      let s1 := noteFarLock k flags (setLane t l (freeKept t.time.clock seq (bit flags 1)))
      let s2 := setLink s1 k fun n => { n with
        credit := u16 b 6, fireLimit := if k < 8 then u16 b 4 else n.fireLimit }
      exec (.ack l) s = .next (settleRx l (flushGeneral k 1024 (if bit flags 0 then replay l seq s2 else s2))))) ∧
  (∀ (l : Fin 24) (s : State), (linkAt s (servedLink s l)).state = .active →
    16 ≤ (laneAt s l).sinceAck ∨ (laneAt s l).ackAt + 1000 ≤ s.time.clock ∨ (laneAt s l).nakDue = true ∨
      (laneAt s l).lockDue = true →
    let k := servedLink s l
    exec (.ackSend l) s = .next (((logicalLanes k).map (laneFor s k)).foldl (fun s l =>
      setLane (putControl k l (ownAck s k l) s) l fun x => { x with
        sinceAck := 0, ackAt := s.time.clock, nakDue := false, lockDue := false }) s)) ∧
  (∀ (s : State) (k l : Nat),
    let x := laneAt s l
    let lock := fun (i : Nat) => (logicalLanes k).contains i && (laneAt s (laneFor s k i)).isLocked
    ownAck s k l = le 1 0x55 ++ le 2 x.expected ++
      le 1 (flag x.nakDue + 2 * flag (!x.isLocked) + 4 * flag (lock 0) + 8 * flag (lock 1)) ++ le 2 0 ++
      le 2 (linkAt s k).granted ++ zeros 8) ∧
  (∀ (l : Fin 24) (s : State) (b : BitVec 16 × Bytes) (r : List (BitVec 16 × Bytes)), (laneAt s l).kept = b :: r →
    (laneAt s l).advanceAt + 2000 ≤ s.time.clock → exec (.replayTimeout l) s = .next (replay l b.1 s)) ∧
  (∀ (l : Fin 24) (s t : State) (b : Bytes), ReadsBlock s l 0x5A b t → u16 b 1 = (laneAt t l).rxEnd / 16 →
    exec (.resume l) s = .next (settleRx l (setLane t l fun x => { x with discarding := false }))) ∧
  (∀ (l : Fin 24) (s t : State) (b : Bytes), ReadsBlock s l 0x33 b t →
    exec (.sync l) s = .next (settleRx l
      (setLane t l fun x => { x with rxScr := BitVec.ofNat 31 (u32 b 4), seedOk := true }))) ∧
  (∀ (l : Fin 24) (s : State), (laneAt s l).next? = none → (laneAt s l).syncAsked = true →
    due (laneAt s l).syncAt 10000 s.time.clock = true →
    exec (.sync l) s = .next (setLane
      (putControl (servedLink s l) l (le 1 0x33 ++ zeros 3 ++ leB 4 (laneAt s l).txScr) s) l
      fun x => { x with syncAt := some s.time.clock })) ∧
  (∀ (f : Fin 2) (s : State), (linkAt s (8 + f)).state = .active → (linkAt s (8 + f)).timeAt + 1000000 ≤ s.time.clock →
    let t := s.time.field * 256 / 10 + (linkAt s (8 + f)).latency * 16
    exec (.timeBlock f) s = .next (putControl (8 + f) (laneFor s (8 + f) 0)
      (le 1 0x78 ++ le 4 (t / 256) ++ le 1 (t % 256) ++ zeros 10) (setLink s (8 + f) fun n => { n with timeAt := s.time.clock }))) ∧
  (∀ (b : Fin 8) (s : State) (c : ServeChange) (rest : List ServeChange), (barAt s b).serve = c :: rest →
    let open_ := (barAt s b).serveSent.filter fun (l : Nat) => barPos s b < (l : Int)
    (linkAt s b).state = .active → c.offset ≠ 0 ∨ open_.length < 4 →
    let n := min 984 (c.total - c.offset)
    let data := if c.item = 0 then (List.range n).map fun k => BitVec.ofNat 8 (Config.freeValue (s.fresh + k)).toNat
      else (List.range n).map fun k => serveByte s b c.item c.at_ (c.offset + k)
    let s1 := sendGeneral b 0x02 (le 1 c.item ++ le 1 c.change ++ le 6 c.line ++ le 4 c.offset ++ le 4 c.total ++ data ++
      zeros ((4 - n % 4) % 4)) { s with fresh := s.fresh + if c.item = 0 then n else 0 }
    exec (.serve b) s = .next (setBar s1 b fun bar => { bar with
      serve := if c.total ≤ c.offset + n then rest else { c with offset := c.offset + n } :: rest
      serveSent := if c.total ≤ c.offset + n then open_ ++ [c.line] else open_ }))

/-- A partner's eye report is kept for the lane it names, and the device's own goes out every 100 ms; a lane that
enters or leaves a condition is reported, and a failed lane of a two-lane link stops carrying packets; a failed bar
lane is remapped or the link goes on with one lane; a spare core that does not lock within 1 ms is released; a bar
link without a locked lane for 1 µs is lost and trains anew; one that is ACTIVE again gets its serve data. (R267,
R268, R269, R271, 08_sett_links) -/
def Obligations.LaneHealthComplete : Prop :=
  (∀ (l : Fin 24) (s t : State) (b : Bytes), ReadsBlock s l 0x71 b t →
    let k := servedLink s l
    (logicalLanes k).contains (byteAt b 1) = true →
    exec (.eye l) s = .next (settleRx l (setLane t (laneFor s k (byteAt b 1)) fun x =>
      { x with partnerEye := slice b 1 8, partnerEyeKnown := true }))) ∧
  (∀ (l : Fin 24) (s : State), (laneAt s l).next? = none → (linkAt s (servedLink s l)).state = .active →
    (laneAt s l).eyeAt + 100000000 ≤ s.time.clock → exec (.eye l) s = .next (sendEye l s)) ∧
  (∀ (l : Fin 24) (s : State), (linkAt s (linkOf l)).state = .active →
    (laneCondition s (laneAt s l)).1 ≠ (laneAt s l).health →
    let k := servedLink s l
    let x := logicalOf s l
    let n := linkAt s k
    let c := laneCondition s (laneAt s l)
    let s1 := fieldEvent 0x0803 0 (le 1 l ++ le 1 c.1 ++ le 1 c.2)
      (setLane s l fun x => { x with health := c.1, healthCause := c.2 })
    (c.1 = 2 → (linkLanes k).length = 2 → laneFor s k x = l → n.down.contains x = false →
      exec (.laneHealth l) s = .next (setLink s1 k fun n => { n with
        down := n.down ++ [x], remaps := n.remaps.filter fun r => !(r.2.2 == x && r.2.1 == 0) })) ∧
    (c.1 ≠ 2 → (linkLanes k).length = 2 → laneFor s k x = l → (n.remaps.any fun r => r.2.2 == x) = false →
      exec (.laneHealth l) s = .next
        (setLink s1 k fun n => { n with down := n.down.filter (· != x), alone := n.alone.filter (· != x) })) ∧
    ((linkLanes k).length ≠ 2 → exec (.laneHealth l) s = .next s1)) ∧
  (∀ (b : Fin 8) (lane : Fin 2) (s : State), (linkAt s b).state = .active →
    (linkAt s b).down.contains lane.val = true → (linkAt s b).alone.contains lane.val = false →
    ((linkAt s b).remaps.any fun r => r.2.2 == lane.val) = false →
    ((linkAt s b).lanePass.any fun p => p.1 == lane.val) = false →
    exec (.laneRemapped b lane) s = .next (remapLane b lane s)) ∧
  (∀ (k : Fin 2) (s : State) (i b lane since : Nat), s.sett.cores.find? (fun c => c.1 == k.val) = some (i, b, lane, since) →
    (laneAt s (ownLane s b lane)).isLocked = false → since + 1000000 ≤ s.time.clock →
    let s1 := { s with sett := { s.sett with cores := s.sett.cores.filter fun c => c.1 != i } }
    exec (.spareCoreTimeout k) s = .next (remapEvent b lane 3 0xFF (setLink s1 b fun n => { n with
      remaps := n.remaps.filter fun r => r.2.2 != lane
      down := if n.down.contains lane then n.down else n.down ++ [lane], alone := n.alone ++ [lane] }))) ∧
  (∀ (b : Fin 8) (s : State), (linkAt s b).state = .active →
    (∀ l < 2, (laneAt s (laneFor s b l)).isLocked = false ∧
      ((laneAt s (laneFor s b l)).lostAt.any fun t => t + 1000 ≤ s.time.clock) = true) →
    exec (.linkLost b) s = .next (startPass b none (linkEvent b 2
      (setLink (leaveActive b s) b fun n => { n with state := .offline, offlineTold := true })))) ∧
  (∀ (b : Fin 8) (s : State), (linkAt s b).state = .active → (barAt s b).driver = 2 →
    let s1 := sendServe b (setBar s b fun x => { x with driver := 1 })
    let r := lineAhead s b (barFa s b)
    exec (.linkReturn b) s = .next (
      if barLive s b then
        setBar s1 b fun x => { x with resumeLine := some r, handed := [], nextPack := x.nextPack.map fun n => max n r }
      else setBar s1 b fun x => { x with resumeLine := none }))

/-- Admitted and with the conditions of their rules met: cam.create takes its extents and makes a CAMSET; cam.destroy
of an inactive one frees them; cam.sensor_write, cam.exposure_write and cam.param_write write the sensors and stage
exposure and table bytes; cam.commit gives the hub the next exposure set and is in force at once on an inactive
CAMSET; cam.activate enters a face at once when it is free (budgets 17 and 18); cam.stats_read and cam.frame_read
answer the bytes asked; cam.capture is ACCEPTED and reserves a buffer; cam.query answers 48 bytes. (R281, R284, R287,
R299, R300, R302, R303, R304, 09_vision_pipeline) -/
def Obligations.CameraComplete : Prop :=
  (∀ (m : Msg) (s s1 : State) (ext : List Nat) (i : Nat) (t : ObjTable CamSet), admitted opCamCreate m s = true →
    let b := m.payload
    let n := camExtents (u32 b 4) (byteAt b 1) (byteAt b 2) (u16 b 8) (u32 b 20)
    takeExtents n s = some (ext, s1) →
    s1.objs.camsets.create { face := byteAt b 0, binLog2 := byteAt b 1, depth := byteAt b 2, statsEvt := bit (byteAt b 3) 0
                             hostHold := bit (byteAt b 3) 1, width := u32 b 4, frameLines := u16 b 8, camPitch := u16 b 10
                             maxRate := u32 b 12, camOffset := u32 b 16, historyLines := u32 b 20, extents := ext } =
      some (i, t) →
    Completes (.camCreate m) opCamCreate m s
      { state := { s1 with objs := { s1.objs with camsets := t } }, handle := some (t.handle tyCamset i)
        payload := le 8 (n * extentBytes) }) ∧
  (∀ (m : Msg) (s : State) (c : CamSet), admitted opCamDestroy m s = true → camsetOf s m.handle = some c →
    c.active = false →
    let s1 := giveExtents c.extents (dropCaptures (hIdx m.handle) stNoHandle s)
    Completes (.camDestroy m) opCamDestroy m s
      { state := { s1 with objs := { s1.objs with camsets := s1.objs.camsets.release (hIdx m.handle) } } }) ∧
  (∀ (m : Msg) (s : State), admitted opCamSensorWrite m s = true →
    Completes (.camSensorWrite m) opCamSensorWrite m s
      { state := setCamset s m.handle fun c =>
          { c with sensors := writeSensors m.payload (byteAt m.payload 0) c.sensors } }) ∧
  (∀ (m : Msg) (s : State), admitted opCamExposureWrite m s = true →
    Completes (.camExposureWrite m) opCamExposureWrite m s
      { state := setCamset s m.handle fun c => { c with exposureStaged := some m.payload } }) ∧
  (∀ (m : Msg) (s : State), admitted opCamParamWrite m s = true →
    Completes (.camParamWrite m) opCamParamWrite m s
      { state := setCamset s m.handle fun c => { c with
          staged := modAt c.staged (byteAt m.payload 0) fun t => smSetRun t (u32 m.payload 4) (m.payload.drop 8) } }) ∧
  (∀ (m : Msg) (s : State) (c : CamSet), admitted opCamCommit m s = true → camsetOf s m.handle = some c →
    let set := (c.expLast + 1) % 256
    let base := (c.pending.map fun p => p.exposure).getD c.exposure
    let tables := overlayAll ((c.pending.map fun p => p.tables).getD (List.replicate 6 [])) c.staged
    let p : CamCommit := ⟨set, s.time.clock, c.exposureStaged.getD base, tables⟩
    let s1 := camCmd c.face 1 set p.exposure (setCamset s m.handle fun c => { c with
      expLast := set, staged := List.replicate 6 [], exposureStaged := none, pending := some p })
    Completes (.camCommit m) opCamCommit m s
      { state := if c.active then s1 else applyCommit (hIdx m.handle) 0 p s1, payload := le 1 set }) ∧
  (∀ (m : Msg) (s : State) (c : CamSet), admitted opCamActivate m s = true → camsetOf s m.handle = some c →
    let i := hIdx m.handle
    (byteAt m.payload 0 = 0 → Completes (.camActivate m) opCamActivate m s
      { state := setCam s i fun c => { c with activate := if c.active then some false else none } }) ∧
    (byteAt m.payload 0 = 1 → ((camBudgets s c false).all fun b => !b.broken) = true →
      let clear : CamSet → CamSet := fun x =>
        if x.face = c.face ∧ x.activate = some true then { x with activate := none } else x
      let s1 := { s with objs := { s.objs with camsets := s.objs.camsets.mapLive clear } }
      Completes (.camActivate m) opCamActivate m s
        { state := if (activeCam s c.face).isNone then enterFace c.face i s1
            else setCam s1 i fun c => { c with activate := some true } })) ∧
  (∀ (m : Msg) (s : State) (c : CamSet) (k : StatsBlock), admitted opCamStatsRead m s = true →
    camsetOf s m.handle = some c → blockOf c (u32 m.payload 0) = .ok k → u32 m.payload 4 < k.bytes.length →
    Completes (.camStatsRead m) opCamStatsRead m s
      { state := if byteAt m.payload 8 = 1 then setCamset s m.handle fun c =>
            { c with ring := c.ring.map fun x => if x = k then { x with released := true } else x }
          else s
        payload := (k.bytes.drop (u32 m.payload 4)).take 4064 }) ∧
  (∀ (m : Msg) (s : State) (c : CamSet) (b : Nat), admitted opCamCapture m s = true → camsetOf s m.handle = some c →
    c.active = true → visionFaulty s = false → captureBuffer c = some b →
    (((camBudgets s c true).drop 1).all fun b => !b.broken) = true →
    Completes (.camCapture m) opCamCapture m s
      { state := setCamset s m.handle fun c => { c with capturing := c.capturing ++ [⟨b, none, m, none⟩] }
        status := stAccepted }) ∧
  (∀ (m : Msg) (s : State) (c : CamSet) (k : Captured), admitted opCamFrameRead m s = true →
    camsetOf s m.handle = some c → c.captures.find? (fun x => x.buffer == byteAt m.payload 0) = some k →
    u32 m.payload 4 < k.bytes.length →
    Completes (.camFrameRead m) opCamFrameRead m s
      { state := setCamset s m.handle fun c => { c with captures := c.captures.map fun x =>
                    if x.buffer = k.buffer then { x with held := byteAt m.payload 1 = 0 } else x }
        payload := (k.bytes.drop (u32 m.payload 4)).take 4064 }) ∧
  (∀ (m : Msg) (s : State) (c : CamSet), admitted opCamQuery m s = true → camsetOf s m.handle = some c →
    ∃ b : Bytes, b.length = 48 ∧ Completes (.camQuery m) opCamQuery m s { state := s, payload := b })

/-- On a face with an active CAMSET: a crossing that is due starts its frame and sends the trigger of the next line,
one that comes too soon is skipped and counted; a line packet is taken or counted late; the first line whose sensors
are all whole enters the pipeline; a hub status is kept; a frame whose lines are settled ends; its statistics block is
written to a free ring entry; a written capture completes its message; an engine fault stops the frames. (R280, R282,
R283, R286, R297, R299, R300, R301, 09_vision_pipeline) -/
def Obligations.VisionComplete : Prop :=
  (∀ (f : Fin 2) (s : State) (slot : Nat) (cam : CamSet), activeCam s f = some (slot, cam) →
    (frameDue s f cam = true → exec (.frameStart f) s = .next (startDue f slot cam s)) ∧
    (crossed s f cam = true → tooSoon s f cam = true → (faceAt s f).frameOn = none →
      exec (.cameraTrigger f) s = .next (setFace (setCam s slot fun c => { c with skipped := (c.skipped + 1) % 2 ^ 32 }) f
        fun x =>
        { x with trigPos := some (phi64 s).toNat, skips := ((phi64 s).toNat :: x.skips).take 131072 })) ∧
    (crossed s f cam = true → tooSoon s f cam = false → frameDue s f cam = false →
      exec (.cameraTrigger f) s = .next (sendTrigger f slot cam s)) ∧
    (∀ (lane : Fin 2) (t : BitVec 8) (b : Bytes) (cam' : CamSet), 0x30 ≤ t.toNat → t.toNat ≤ 0x32 →
      activeCam (takePacket (8 + f) t.toNat s) f = some (slot, cam') →
      exec (.cameraLinePacket f lane t b) s =
        .next (takeLinePacket f slot lane t.toNat b (takePacket (8 + f) t.toNat s))) ∧
    (∀ (line : Nat) (acc : FrameAcc) (ls : List SensorLine), visionFaulty s = false →
      readyLine s f slot cam = some (line, acc, ls) →
      exec (.faceLineComplete f) s = .next (takeLine f slot line cam acc ls s)) ∧
    (∀ (b : Bytes) (cam' : CamSet), activeCam (takePacket (8 + f) 0x33 s) f = some (slot, cam') →
      exec (.hubStatus f b) s = .next (setCam (takePacket (8 + f) 0x33 s) slot fun c => { c with hubStatus := fit 16 b })) ∧
    (∀ a : FrameAcc, (faceAt s f).frames.find? (fun a => a.camset == slot && !a.ended) = some a →
      (a.frame + 1) * cam.frameLines + 2 ≤ (faceAt s f).settledTo →
      exec (.frameEnd f) s = .next (endFrame f slot a.frame s))) ∧
  (∀ (f : Fin 2) (s : State) (acc : FrameAcc) (cam : CamSet), (faceAt s f).frames.find? (fun a =>
      a.ended && (s.objs.camsets.at? a.camset).all entryFree) = some acc →
    s.objs.camsets.at? acc.camset = some cam → visionFaulty s = false →
    let block : StatsBlock :=
      { frame := acc.frame, bytes := statsBytes s cam acc, flags := acc.flags, consumed := true, released := false }
    let s1 := setCam (setFace s f fun x => { x with frames := x.frames.erase acc }) acc.camset fun c => { c with
      ring := (if c.ring.length < c.depth then c.ring else c.ring.drop 1) ++ [block], lastBlock := some acc.frame }
    let s2 := { s1 with objs := { s1.objs with calsets := s1.objs.calsets.mapLive (feedCal s cam acc) } }
    exec (.frameStats f) s = .next (if cam.statsEvt then
        fieldEventAt 0x0901 (camHandle s acc.camset) (some (imagedLine cam acc.posFirst).toNat)
          (le 4 acc.frame ++ le 2 acc.flags ++ le 1 acc.expSet) s2
      else s2)) ∧
  (∀ (f : Fin 2) (s : State) (slot : Nat) (cam : CamSet) (c : Capturing),
    s.objs.camsets.live.find? (fun e => e.2.face == f.val && e.2.capturing.any fun c => c.bytes.isSome) = some (slot, cam) →
    cam.capturing.find? (fun c => c.bytes.isSome) = some c →
    let shot : Captured := { buffer := c.buffer, frame := c.frame.getD 0, bytes := c.bytes.getD [], held := false }
    exec (.captureDone f) s = .next (finishFlight 0x0909 c.msg stOk (setCam s slot fun x => { x with
      capturing := x.capturing.erase c
      captures := (x.captures.filter fun y => y.buffer != c.buffer) ++ [shot] }))) ∧
  (∀ (e : Fin 2) (c : Fin 3) (s : State), exec (.visionFault e c) s = .next (visionEngineFault e (c + 1) s))

/-- Admitted and with the conditions of R336 to R338 met: cal.create takes one extent and makes a CALSET; cal.destroy
of a detached one frees it; cal.attach binds it to a channel without one, in mode observe; cal.detach unbinds it;
cal.param_write and cal.write write the bytes into the table; cal.read answers the bytes asked; cal.query answers 48
bytes and cal.chan_query 24. (R335, R336, R337, R338, 10_colour_loop_calibration) -/
def Obligations.CalsetComplete : Prop :=
  (∀ (m : Msg) (s s1 : State) (ext : List Nat) (i : Nat) (t : ObjTable CalSet), admitted opCalCreate m s = true →
    let b := m.payload
    takeExtents 1 s = some (ext, s1) →
    s1.objs.calsets.create { face := byteAt b 0, channelC := byteAt b 1, registration := bit (byteAt b 2) 0
                             patches := bit (byteAt b 2) 1, mirrored := bit (byteAt b 2) 2, x0 := s32 b 4
                             colPitch := u32 b 8, extents := ext, visionHold := visionFaulty s
                             thermalPause := s.thermal.step != 0 } = some (i, t) →
    Completes (.calCreate m) opCalCreate m s
      { state := { s1 with objs := { s1.objs with calsets := t } }, handle := some (t.handle tyCalset i) }) ∧
  (∀ (m : Msg) (s : State) (q : CalSet), calsetOf s m.handle = some q →
    (admitted opCalDestroy m s = true → q.mode = .detached →
      Completes (.calDestroy m) opCalDestroy m s
        { state :=
            let s1 := giveExtents q.extents s
            { s1 with objs := { s1.objs with calsets := s1.objs.calsets.release (hIdx m.handle) } } }) ∧
    (∀ c : Channel, admitted opCalAttach m s = true →
      channelOf s (w32 m.payload 0) = some c → q.mode = .detached → c.calset = 0 →
      let s1 := setChannel s (w32 m.payload 0) fun c => { c with calset := m.handle }
      Completes (.calAttach m) opCalAttach m s
        { state := loopState (hIdx m.handle) 0 (setCalset s1 m.handle fun q => newWindow { q with
            mode := .observe, channel := w32 m.payload 0, camShape := none, windowsDone := 0, unseen := []
            patching := [], bins := [], fromLine := 0 }) }) ∧
    (admitted opCalDetach m s = true → q.mode = .observe → q.recalc = none →
      Completes (.calDetach m) opCalDetach m s
        { state := loopState (hIdx m.handle) 0 (setCalset (setChannel s q.channel fun c => { c with calset := 0 }) m.handle
            fun q => { q with mode := .detached, channel := 0 }) }) ∧
    (admitted opCalParamWrite m s = true →
      Completes (.calParamWrite m) opCalParamWrite m s
        { state := setCalset s m.handle fun q =>
            writeTable s q (byteAt m.payload 0) (u32 m.payload 4) (m.payload.drop 8) }) ∧
    (admitted opCalRead m s = true →
      Completes (.calRead m) opCalRead m s
        { state := s, payload := slice (calTable s q (byteAt m.payload 0)) (u32 m.payload 4) (u32 m.payload 8) }) ∧
    (admitted opCalWrite m s = true → byteAt m.payload 0 < 3 ∨ q.mode ≠ .holding → bit (byteAt m.payload 1) 0 = false →
      let q1 := writeTable s q (byteAt m.payload 0) (u32 m.payload 4) (m.payload.drop 8)
      Completes (.calWrite m) opCalWrite m s
        { state := setCalset s m.handle fun _ => if 3 ≤ byteAt m.payload 0 then countCal s q1 else q1 }) ∧
    (admitted opCalWrite m s = true → byteAt m.payload 0 < 3 ∨ q.mode ≠ .holding → bit (byteAt m.payload 1) 0 = true →
      q.mode = .correct → recalcReady q = .ok () →
      let q1 := writeTable s q (byteAt m.payload 0) (u32 m.payload 4) (m.payload.drop 8)
      let r := startRecalc (hIdx m.handle) false 0x0A07 m
        (setCalset s m.handle fun _ => if 3 ≤ byteAt m.payload 0 then countCal s q1 else q1)
      Completes (.calWrite m) opCalWrite m s
        { state := r.1, status := stAccepted, final := if r.2 then some stOk else none }) ∧
    (admitted opCalQuery m s = true →
      ∃ b : Bytes, b.length = 48 ∧ Completes (.calQuery m) opCalQuery m s { state := s, payload := b })) ∧
  (∀ (m : Msg) (s : State) (c : Channel), admitted opCalChanQuery m s = true → channelOf s m.handle = some c →
    Completes (.calChanQuery m) opCalChanQuery m s
      { state := s, payload := le 4 c.calCount ++ le 4 (c.calTime % 1000000000) ++ le 6 (c.calTime / 1000000000) ++
          zeros 2 ++ leB 4 c.calset ++ zeros 4 })

/-- Admitted and with the conditions of R307, R320, R327 and R336 met: loop.hold enters mode holding with the active
gains as base; loop.release enters observe, or starts a reverting recalculation; loop.resume and cal.recalc start a
recalculation, ACCEPTED; cal.gate_config writes the gate; cal.gate_window sets a run's windows, from a later repeat
when the run is active; cal.gate_clear clears the marks named; cal.gate_query answers 32 bytes. (R307, R320, R324,
R326, R327, R328, R329, R332, R336, R339, R340) -/
def Obligations.LoopMessageComplete : Prop :=
  (∀ (m : Msg) (s : State) (q : CalSet), calsetOf s m.handle = some q →
    (∀ c : Channel, admitted opLoopHold m s = true → channelOf s q.channel = some c →
      q.mode = .observe ∨ q.mode = .correct → q.recalc = none → 0 < ownInk s q →
      spanTaken s (hIdx m.handle) q = false →
      let s1 := setBar s c.bar fun b => { b with regCorr := 0 }
      Completes (.loopHold m) opLoopHold m s
        { state := loopState (hIdx m.handle) 0 (setCalset s1 m.handle fun q => newWindow { q with
            mode := .holding, base := activeGains s c q.base, g := [], ref := [], newRefs := none, changed := [], largestStep := 0
            patching := [], unseen := [] }) }) ∧
    (admitted opLoopRelease m s = true → calOwns q = true → bit (byteAt m.payload 0) 0 = false → q.recalc = none →
      let bar := ((channelOf s q.channel).map fun c => c.bar).getD 8
      let s1 := setBar s bar fun b => { b with regCorr := 0 }
      Completes (.loopRelease m) opLoopRelease m s
        { state := loopState (hIdx m.handle) 0 (setCalset s1 m.handle fun q =>
            { q with mode := .observe, changed := [], patching := [] }) }) ∧
    (admitted opLoopRelease m s = true → calOwns q = true → bit (byteAt m.payload 0) 0 = true → recalcReady q = .ok () →
      let r := startRecalc (hIdx m.handle) true 0x0A09 m s
      Completes (.loopRelease m) opLoopRelease m s
        { state := r.1, status := stAccepted, final := if r.2 then some stOk else none }) ∧
    (admitted opLoopResume m s = true → q.mode = .observe → (q.ref.any fun e => e.2 != 0) = true →
      recalcReady q = .ok () → 0 < ownInk s q → spanTaken s (hIdx m.handle) q = false →
      let r := startRecalc (hIdx m.handle) false 0x0A0A m (loopState (hIdx m.handle) 0
        (setCalset s m.handle fun q => newWindow { q with mode := .correct, unseen := [] }))
      Completes (.loopResume m) opLoopResume m s
        { state := r.1, status := stAccepted, final := if r.2 then some stOk else none }) ∧
    (admitted opCalRecalc m s = true → q.mode = .correct → recalcReady q = .ok () → 0 < ownInk s q →
      let r := startRecalc (hIdx m.handle) false 0x0A0B m s
      Completes (.calRecalc m) opCalRecalc m s
        { state := r.1, status := stAccepted, final := if r.2 then some stOk else none })) ∧
  (∀ (m : Msg) (s : State), admitted opCalGateConfig m s = true →
    let b := m.payload
    Completes (.calGateConfig m) opCalGateConfig m s
      { state := setGate s (byteAt b 0) fun g =>
          let same := g.source == byteAt b 1 && g.emitterMa == byteAt b 4
          { g with
            source := byteAt b 1, repeats := byteAt b 2, level := byteAt b 3, emitterMa := byteAt b 4
            missFrac := byteAt b 5, missN := byteAt b 6, tMin := u16 b 8, tMax := u16 b 10, devTol := u16 b 12
            noiseMax := u16 b 14, refs := if same then g.refs else [], testing := none
            sampleAt := if same then g.sampleAt else some s.time.clock } }) ∧
  (∀ (m : Msg) (s : State) (r : Run), admitted opCalGateWindow m s = true → runOf s m.handle = some r →
    r.state ≠ .ended →
    let l := gateWindows m.payload
    (r.state.active = false → Completes (.calGateWindow m) opCalGateWindow m s
      { state := setRun s m.handle fun r => { r with windows := l, newWindows := none } }) ∧
    (r.state.active = true →
      let n := maxOf ((runBars s r).map fun b => firstAhead s r b 0)
      let now := (repeatOf r (runPos s r.pitch)).1
      let cur := match r.newWindows with
        | some (from_, w) => if from_ ≤ now then w else r.windows
        | none => r.windows
      Completes (.calGateWindow m) opCalGateWindow m s
        { state := setRun s m.handle fun r => { r with windows := cur, newWindows := some (n, l) } })) ∧
  (∀ (m : Msg) (s : State), admitted opCalGateClear m s = true →
    let b := m.payload
    let bar := byteAt b 0
    let mask := BitVec.ofNat 32 (byteAt b 1 * 2 ^ 28)
    let hit := ((barAt s bar).nozzles.newest.filter fun e =>
      u32 b 4 ≤ e.1 && e.1 < u32 b 4 + u32 b 8 && e.2 &&& mask != 0).map (·.1)
    (hit = [] → Completes (.calGateClear m) opCalGateClear m s { state := s }) ∧
    (hit ≠ [] → Completes (.calGateClear m) opCalGateClear m s
      { state := gateCommit bar (setGate (stageNozzles bar 2 (hit.map fun i => (i, ⟨mask, 0⟩)) s) bar fun g => { g with
          mapDue := g.mapDue ++ [(2, hit.length)], first := hit ++ g.first.filter fun i => !hit.contains i
          fails := g.fails.filter fun e => !hit.contains e.1 }) })) ∧
  (∀ (m : Msg) (s : State), admitted opCalGateQuery m s = true →
    ∃ b : Bytes, b.length = 32 ∧ Completes (.calGateQuery m) opCalGateQuery m s { state := s, payload := b })

/-- At the end of its window a CALSET takes its estimates, references, patches and registration and starts a new
window; a correcting CALSET with changed gains commits them; a held commit that can be made is made and reported; a
recalculation that does not need the spare is done; one whose spare fails ends INTERNAL; gate samples are taken; a
void drop is counted and tested again; gate faults that appear are told. (R313, R316, R318, R319, R326, R327, R328,
R330, 10_colour_loop_calibration) -/
def Obligations.LoopStepComplete : Prop :=
  (∀ (k : Fin 64) (s : State) (q : CalSet) (c : Channel) (r : Run), s.objs.calsets.at? k = some q →
    calChannel s q = some (c, r) → q.mode ≠ .detached → q.params.winFrames ≤ q.frames →
    let first := (binSpan c).1
    let bins := (List.range (binSpan c).2).map fun i => (i, estimate q (q.ink.getD c.bar 0) (first + i))
    let q1 := markPatches first (updateBins (captureRef s { q with bins := bins, windowsDone := q.windowsDone + 1 }))
    let s1 := setCal (registrationEnd k q1 c r (tellBins k first q1 r (setCal s k fun _ => q1))) k newWindow
    exec (.loopWindowEnd k) s =
      .next (if q.mode = .holding ∧ q1.mode = .correct then loopState k 1 s1 else s1)) ∧
  (∀ (k : Fin 64) (s : State) (q : CalSet) (c : Channel) (r : Run), s.objs.calsets.at? k = some q →
    calChannel s q = some (c, r) → q.mode = .correct → q.changed ≠ [] → calPaused q = false →
    let w := ownerCommit c.bar 0 1 (stageGains q c (some q.changed) s)
    exec (.loopCommit k) s =
      .next (if (barAt w.1 c.bar).heldOwners.contains 1 then w.1 else reportLoop k w.2 w.1)) ∧
  (∀ (b : Fin 8) (s : State), (barAt s b).heldOwners.contains 2 = true → barActive s b = false →
    let w := ownerCommit b 0 2 s
    exec (.heldCommit b true) s =
      .next (if (barAt w.1 b).heldOwners.contains 2 then w.1 else reportGate b w.2 w.1)) ∧
  (∀ (k : Fin 64) (s : State) (q : CalSet) (c : Channel) (rev : Bool) (msg : Option (Nat × Msg)),
    s.objs.calsets.at? k = some q → channelOf s q.channel = some c → q.recalc = some (rev, msg, 1, false) →
    exec (.recalculationDone k) s = .next (endRecalc k stOk (recompute q c rev s))) ∧
  (∀ (s : State) (slot : Nat) (q : CalSet) (c : Channel), spareCal s = some (slot, q) → channelOf s q.channel = some c →
    (s.bench.bench.any fun e => e.role == .loaned c.bar || e.role == .loading c.bar) = false →
    (q.recalc.map fun r => r.2.2.1) = some 0 →
    exec .recalcSpareFail s = .next (endRecalc slot stInternal s)) ∧
  (∀ (b : Fin 8) (body : Bytes) (s : State), 
    let s1 := if (barAt s b).gate.source = 2 then takePacket b 0x23 s else s
    exec (.dropGate b body) s = .next (if (barAt s b).gate.source = 0 then s1
      else setGate s1 b fun g => { g with
        samples := ((gateSamples body).reverse ++ g.samples).take 4096, sampleAt := some s.time.clock })) ∧
  (∀ (b : Fin 8) (s : State) (idx line at_ slot : Nat) (t : BarTable) (e : SlotRec) (w : RowRec) (x : Nat),
    (barAt s b).gate.drop = some (idx, line, false) → (barAt s b).gate.dropAt = some at_ → (barAt s b).table = some t →
    nozzleAt t idx = some (slot, e, w, x) →
    exec (.dropTestResult b) s = .next (setGate s b fun g =>
      { g with drop := none, dropAt := none, voids := (g.voids + 1) % 2 ^ 32 })) ∧
  (∀ (b : Fin 8) (s : State),
    let now := gateCauses s (barAt s b).gate
    exec (.gateFault b) s = .next ((now.filter fun c => !(barAt s b).gate.told.contains c).foldl
      (fun s c => fieldEvent 0x0A09 0 (le 1 b ++ le 1 c) s) (setGate s b fun g => { g with told := now })))

/-- Admitted and with the conditions of R341, R342, R364 to R366 met: vd.create makes a stream on the engine with the
lower demand (the other, where one is faulty); vd.destroy of an unattached stream frees it and its extents; vd.attach
binds it to a channel without one; vd.detach makes its QUEUED items VOID, cause 5, and unbinds it; vd.verify_config
and vd.reject_config write the settings; vd.font_write writes a font, usable after a good last part. (R76, R341, R342,
R346, R351, R364, R365, R366, 11_variable_data_verification) -/
def Obligations.StreamComplete : Prop :=
  (∀ (m : Msg) (s s1 : State) (ext : List Nat) (eng i : Nat) (t : ObjTable VdStream), admitted opVdCreate m s = true →
    let b := m.payload
    (s.objs.streams.live.any fun e => e.2.streamId == u32 b 0) = false →
    (s.vd.recovery.any fun e => e.1 == u32 b 0) = false → s.objs.streams.free.isEmpty = false →
    let d := fun k : Nat => vdDemand s k + u16 b 4 * max 62500 (u32 b 8)
    eng = (if s.vd.fault.getD 0 false then 1 else if s.vd.fault.getD 1 false then 0 else if d 1 < d 0 then 1 else 0) →
    d eng ≤ 500000000 → 2 * u32 b 8 ≤ u32 b 16 →
    takeExtents (vdExtents (u32 b 12) (u16 b 6) (u32 b 16) (u32 b 20)) s = some (ext, s1) →
    s1.objs.streams.create { streamId := u32 b 0, itemsPerS := u16 b 4, maxRecord := u16 b 6, maxWindow := u32 b 8
                             ringRecords := u32 b 12, storeBytes := u32 b 16, results := u32 b 20, extents := ext
                             engine := eng } = some (i, t) →
    Completes (.vdCreate m) opVdCreate m s
      { state := { s1 with objs := { s1.objs with streams := t } }, handle := some (t.handle tyStream i)
        payload := le 8 (vdExtents (u32 b 12) (u16 b 6) (u32 b 16) (u32 b 20) * extentBytes) }) ∧
  (∀ (m : Msg) (s : State) (st : VdStream), streamOf s m.handle = some st →
    (admitted opVdDestroy m s = true → st.channel = 0 →
      Completes (.vdDestroy m) opVdDestroy m s
        { state := giveExtents st.extents { s with objs := { s.objs with
            streams := s.objs.streams.release (hIdx m.handle) } } }) ∧
    (∀ c : Channel, admitted opVdAttach m s = true → 
      channelOf s (w32 m.payload 0) = some c → st.channel = 0 → c.stream = 0 →
      Completes (.vdAttach m) opVdAttach m s
        { state := setChannel (setStream s m.handle fun st => { st with channel := w32 m.payload 0 })
            (w32 m.payload 0) fun c => { c with stream := m.handle } }) ∧
    (admitted opVdDetach m s = true → (st.items.any fun i => i.state == .rendered || i.state == .fired) = false →
      let s1 := finishItems (hIdx m.handle) (itemsWhere s (hIdx m.handle) fun i => i.state == .queued) .void 5 s
      Completes (.vdDetach m) opVdDetach m s
        { state := setStream (setChannel s1 st.channel fun c => { c with stream := 0 }) m.handle fun st =>
            { st with channel := 0 } })) ∧
  (∀ (m : Msg) (s : State), admitted opVdVerifyConfig m s = true →
    let b := m.payload
    Completes (.vdVerifyConfig m) opVdVerifyConfig m s { state := setStream s m.handle fun st => { st with verifyCfg :=
      { on := true, face := byteAt b 0, channelC := byteAt b 1, search := byteAt b 2, mirrored := bit (byteAt b 3) 0
        eventVerified := bit (byteAt b 3) 1, x0 := s32 b 4, colPitch := u32 b 8, passScore := u16 b 12
        minContrast := u16 b 14, timeoutMs := u16 b 16 } } }) ∧
  (∀ (m : Msg) (s : State), admitted opVdRejectConfig m s = true →
    let b := m.payload
    Completes (.vdRejectConfig m) opVdRejectConfig m s { state := setStream s m.handle fun st => { st with rejectCfg :=
      { enable := bit (byteAt b 1) 0, rejectIndet := bit (byteAt b 1) 1, output := byteAt b 0, offset := u64 b 4
        lead := u32 b 12, lag := u32 b 16 } } }) ∧
  (∀ (m : Msg) (s : State), admitted opVdFontWrite m s = true →
    let n := byteAt m.payload 0
    let off := u32 m.payload 4
    let d := m.payload.drop 8
    let old := (s.vd.fonts.getD n {}).bytes
    let bytes := fit off old ++ d ++ old.drop (off + d.length)
    fontInUse s n = false →
    (bit (byteAt m.payload 1) 0 = false → Completes (.vdFontWrite m) opVdFontWrite m s
      { state := { s with vd := { s.vd with fonts := setAt s.vd.fonts n ⟨bytes, false⟩ } } }) ∧
    (bit (byteAt m.payload 1) 0 = true → fontOk ⟨bytes.take (off + d.length), false⟩ = true →
      Completes (.vdFontWrite m) opVdFontWrite m s { state := { s with vd := { s.vd with
        fonts := setAt s.vd.fonts n ⟨bytes.take (off + d.length), true⟩ } } }))

/-- Admitted: a push of which every record passes R347, into a ring with room, appends the records and answers the
free slots; vd.cancel makes the items up to seq_last that the bench has not decided VOID, cause 4, and answers their
number; vd.results answers records the ring holds; vd.query answers 64 bytes; vd.recovery answers the list, and
releases it where asked. (R344, R347, R350, R351, R361, 11_variable_data_verification) -/
def Obligations.RecordComplete : Prop :=
  (∀ (m : Msg) (s : State) (st : VdStream), admitted opVdPush m s = true → streamOf s m.handle = some st →
    st.channel ≠ 0 →
    let offs := (walkRecords m.payload (u16 m.payload 0) 4).1
    checkFields (pushFields s st (channelOf s st.channel) m.payload offs st.lastSeq st.lastLine) = .ok () →
    offs.length ≤ ringFree st →
    let items := offs.map (parseRecord m.payload)
    Completes (.vdPush m) opVdPush m s
      { state := setStream s m.handle fun st => { st with
          items := st.items ++ items
          lastSeq := (items.getLast?.map (·.seq)).orElse fun _ => st.lastSeq
          lastLine := (items.getLast?.map (·.line)).getD st.lastLine }
        payload := le 4 (ringFree st - offs.length) }) ∧
  (∀ (m : Msg) (s : State), admitted opVdCancel m s = true →
    let l := itemsWhere s (hIdx m.handle) fun i =>
      i.seq ≤ u64 m.payload 0 && i.decided.isNone && (i.state == .queued || i.state == .rendered)
    Completes (.vdCancel m) opVdCancel m s
      { state := finishItems (hIdx m.handle) l .void 4 s, payload := le 4 l.length }) ∧
  (∀ (m : Msg) (s : State) (st : VdStream), admitted opVdResults m s = true → streamOf s m.handle = some st →
    let oldest := st.resultNext - st.resultRing.length
    let ahead := (u32 m.payload 0 + 2 ^ 32 - oldest % 2 ^ 32) % 2 ^ 32
    let first := if u32 m.payload 0 = 0xFFFFFFFF then oldest else oldest + ahead
    u32 m.payload 0 = 0xFFFFFFFF ∨ ahead < 2 ^ 31 →
    Completes (.vdResults m) opVdResults m s
      { state := s, payload := le 4 first ++
          ((st.resultRing.drop (first - oldest)).take (u16 m.payload 4)).flatMap VdResult.bytes }) ∧
  (∀ (m : Msg) (s : State) (st : VdStream), admitted opVdQuery m s = true → streamOf s m.handle = some st →
    ∃ b : Bytes, b.length = 64 ∧ Completes (.vdQuery m) opVdQuery m s { state := s, payload := b }) ∧
  (∀ (m : Msg) (s : State) (e : Nat × List (Nat × Nat × Nat)), admitted opVdRecovery m s = true →
    (s.vd.recovery.find? fun e => e.1 == u32 m.payload 0) = some e →
    Completes (.vdRecovery m) opVdRecovery m s
      { state := if byteAt m.payload 8 = 1 then { s with vd := { s.vd with
          recovery := s.vd.recovery.filter fun e => e.1 != u32 m.payload 0 } } else s
        payload := le 4 e.2.length ++ ((e.2.drop (u32 m.payload 4)).take 254).flatMap fun i =>
          le 8 i.1 ++ le 6 i.2.1 ++ le 1 i.2.2 ++ zeros 1 })

/-- The next item to be rendered becomes RENDERED and recorded by Cairn where its content can be encoded and placed,
and VOID with cause 6 where it cannot; a fired item at its last line is FAILED with cause 2 where a line was lost,
INDETERMINATE with cause 0 where it is not verified, and else waits; a verdict is as R355 says; without an active
CAMSET, or with a faulty vision engine, it is INDETERMINATE with cause 2; after timeout_ms, with cause 4; armed
rejects drive and end with Φ; a held reject output is released; a faulty engine hands its streams over. (R345, R347,
R349, R351, R352, R355, R356, R358, R360, R363) -/
def Obligations.ItemComplete : Prop :=
  (∀ (slot : Fin 16) (s : State) (st : VdStream) (i : Item), s.objs.streams.at? slot = some st →
    renderable s st = some i →
    (encodable s.vd.fonts i = true →
      let s1 := setItem slot i.seq (fun i => { i with state := .rendered, bitmap := renderWindow s.vd.fonts i }) s
      exec (.itemRendered slot) s =
        .next { s1 with vd := { s1.vd with cairn := s1.vd.cairn ++ [(st.streamId, i.seq, i.line, 1)] } }) ∧
    (encodable s.vd.fonts i = false →
      exec (.itemContentVoid slot) s = .next (finishItem slot i.seq .void 6 {} s))) ∧
  (∀ (slot : Fin 16) (seq : BitVec 64) (s : State) (st : VdStream) (i : Item), s.objs.streams.at? slot = some st →
    st.items.find? (fun i => i.seq == seq.toNat) = some i → i.state = .fired →
    (i.lastAt = none → lastLinePassed s st i = true →
      exec (.itemLastLine slot seq) s = .next (
        if i.lostLine then finishItem slot i.seq .failed 2 {} s
        else if i.verify && i.verifyCfg.on then setItem slot i.seq (fun i => { i with lastAt := some s.time.clock }) s
        else finishItem slot i.seq .indeterminate 0 {} s)) ∧
    (∀ (t : Nat) (cam : CamSet), i.lastAt = some t → i.verify = true → faceCamset s i.verifyCfg.face = some cam →
      (s.vision.fault.any id) = false →
      let f := s.vision.faces.getD i.verifyCfg.face {}
      let q := barQ s (((channelOf s st.channel).map fun c => c.bar).getD 0)
      footprintDone i cam f q = true → correlatorQueue s ≤ 256 → footprintMissing i cam f q = false →
      let r := bestShift i f (itemPixels i cam f q)
      let v : Verdict := { score := r.1.toNat, contrast := r.2.1.getD 0, dx := r.2.2.1, dy := r.2.2.2 }
      exec (.itemVerdict slot seq) s = .next (
        if r.1 < i.verifyCfg.passScore then finishItem slot i.seq .failed 1 v s
        else if r.2.1.any fun c : Int => c < (i.verifyCfg.minContrast : Int) then finishItem slot i.seq .failed 3 v s
        else finishItem slot i.seq .verified 0 v s)) ∧
    (∀ t : Nat, i.lastAt = some t → i.verify = true →
      faceCamset s i.verifyCfg.face = none ∨ s.vision.fault.any id = true →
      exec (.itemVerdict slot seq) s = .next (finishItem slot i.seq .indeterminate 2 {} s)) ∧
    (∀ t : Nat, i.lastAt = some t → t + i.verifyCfg.timeoutMs * 1000000 ≤ s.time.clock →
      exec (.verifyTimeout slot seq) s = .next (finishItem slot i.seq .indeterminate 4 {} s))) ∧
  (∀ (slot : Fin 16) (s : State),
    exec (.rejectStart slot) s =
      .next (setRejects slot (fun l => l.map fun r => if r.start ≤ phi64 s then { r with driving := true } else r) s) ∧
    exec (.rejectEnd slot) s = .next (setRejects slot (fun l => l.filter fun r => phi64 s < r.stop) s)) ∧
  (∀ (slot : Fin 16) (s : State) (st : VdStream) (out : Nat), s.objs.streams.at? slot = some st → st.held = [out] →
    st.rejects.length < 1024 →
    let s1 := { s with objs := { s.objs with streams := s.objs.streams.put slot { st with held := [] } } }
    exec (.rejectOverflow slot) s = .next (fieldEvent 0x0B04 (s1.objs.streams.handle tyStream slot) [0] s1)) ∧
  (∀ (e : Fin 2) (c : Fin 3) (s : State),
    let w := 1 - e.val
    let moved := if s.vd.fault.getD w false then 0 else (s.objs.streams.live.filter fun x => x.2.engine == e.val).length
    exec (.vdFault e c) s = .next (fieldEvent 0x0B05 0 (le 1 e ++ le 1 (c + 1) ++ le 1 moved)
      { s with
        vd := { s.vd with fault := setAt s.vd.fault e true }
        objs := { s.objs with streams := s.objs.streams.mapLive fun st =>
          if st.engine = e ∧ !(s.vd.fault.getD w false) then { st with engine := w } else st } }))

/-- Admitted: diag.mem_config stores the record for the next reset and puts idle time, self-refresh time and scrub
time in force; diag.mem_query answers 144 bytes and diag.mem_training the delay words asked. The scrub that has read
every segment closes its pass; an idle rank enters power-down; an idle DRAM enters self-refresh and leaves it when an
exit is under way; ZQ calibration and temperature readings come at their times; training that passes makes the store,
one that fails above 4,800 falls back, and at 4,800 fails. (R375, R377, R378, R379, R380, R381, R383, R385, R386,
R387, R388, R389) -/
def Obligations.DramComplete : Prop :=
  (∀ (m : Msg) (s : State), admitted opDiagMemConfig m s = true →
    Completes (.diagMemConfig m) opDiagMemConfig m s { state := { s with mem := { s.mem with
      pdClocks := u16 m.payload 6, srIdleUs := u32 m.payload 8, scrubHours := byteAt m.payload 12
      stored := some (memConfigOf m.payload), recordPending := true } } }) ∧
  (∀ (m : Msg) (s : State), admitted opDiagMemQuery m s = true →
    ∃ b : Bytes, b.length = 144 ∧ Completes (.diagMemQuery m) opDiagMemQuery m s { state := s, payload := b }) ∧
  (∀ (m : Msg) (s : State), admitted opDiagMemTraining m s = true →
    Completes (.diagMemTraining m) opDiagMemTraining m s
      { state := s, payload := (List.range (u16 m.payload 4)).flatMap fun k => leB 4 (smGet s.mem.delays 0
          (128 * (2 * byteAt m.payload 0 + byteAt m.payload 1) + u16 m.payload 2 + k)) }) ∧
  (∀ s : State, segmentCount s ≠ 0 → segmentCount s ≤ s.mem.scrubNext →
    let s1 := fieldEvent 0x0E15 0 (le 4 (min ((s.time.clock - s.mem.scrubAt) / 1000000000) 0xFFFFFFFF) ++
      le 4 (min s.mem.scrubCePass 0xFFFFFFFF)) s
    exec .scrubPass s = .next { s1 with mem := { s1.mem with
      scrubPasses := (s1.mem.scrubPasses + 1) % 2 ^ 32, scrubNext := 0, scrubAt := s1.time.clock, scrubCePass := 0 } }) ∧
  (∀ (r : Fin 8) (s : State), s.mem.trained = true → s.mem.pdClocks ≠ 0 → rankThere s.mem.inForce r = true →
    s.mem.selfRefresh = false →
    1000 * s.mem.pdClocks ≤ (s.time.clock - s.mem.lastCmd.getD r 0) * dramMhz s.mem.inForce.rate →
    exec (.powerDownEntry r) s = .next { s with mem := { s.mem with powerDown := setAt s.mem.powerDown r true } }) ∧
  (∀ s : State, s.mem.trained = true → s.mem.srIdleUs ≠ 0 → memIdle s = true → s.mem.selfRefresh = false →
    s.mem.idleSince + 1000 * s.mem.srIdleUs ≤ s.time.clock →
    exec .selfRefreshEntry s = .next { s with mem := { s.mem with selfRefresh := true, srExit := none } }) ∧
  (∀ (s : State) (c : Nat), s.mem.selfRefresh = true → s.mem.srExit = some c →
    exec .selfRefreshExit s = .next { s with mem := { s.mem with
      selfRefresh := false, srExit := none, idleSince := s.time.clock, lastCmd := List.replicate 8 s.time.clock } }) ∧
  (∀ s : State, s.mem.trained = true → s.mem.selfRefresh = false → s.mem.zqAt + 128000000 ≤ s.time.clock →
    exec .zqCalibration s = .next { s with mem := { s.mem with zqAt := s.time.clock } }) ∧
  (∀ (temps : List Int) (s : State), due s.mem.tempAt 32000000 s.time.clock = true →
    let at0 := if s.mem.trained ∧ s.mem.trainTemp = none then some (temps.take 8) else s.mem.trainTemp
    exec (.dramTempRead temps) s = .next ((List.range 8).foldl (fun s r => rankTemp temps r s)
      { s with mem := { s.mem with tempAt := some s.time.clock, trainTemp := at0 } })) ∧
  (∀ (p q : Bool) (margin : Nat) (rank : Fin 8) (words : List (BitVec 32)) (s : State),
    s.power.fieldReset = false → s.mem.trained = false → s.mem.failed = false → s.saddle.approved = true →
    (p = true → q = true → 12 ≤ margin → ∃ t : State, exec (.memTrained p q margin rank words) s = .next t ∧
      t.mem.trained = true ∧ t.store.installed = installedBytes s.mem.inForce ∧
      t.store.free = List.range t.store.total ∧ t.mem.cells = s.mem.cells ∧ t.objs = s.objs) ∧
    (p = false ∨ q = false ∨ margin < 12 → s.mem.inForce.rate ≠ 0 →
      exec (.memTrained p q margin rank words) s =
        .next { s with mem := { s.mem with fallback := true, inForce := { s.mem.inForce with rate := 0 } } }) ∧
    (p = false ∨ q = false ∨ margin < 12 → s.mem.inForce.rate = 0 →
      exec (.memTrained p q margin rank words) s =
        .next (fieldEvent 0x0E13 0 (le 1 0 ++ le 1 2 ++ le 2 margin ++ le 1 rank)
          { s with mem := { s.mem with failed := true }, thermal := { s.thermal with housekeeping := false } })))

/-- Admitted: diag.arb_prio writes shadows of a port or registers in force of a cluster, diag.arb_commit marks the
ports named, diag.arb_query answers 264 bytes. A request that a port or cluster may take and that keeps the lock rules
joins its queue; one that breaks them is a protocol fault; a decision follows R393; a sleeping request whose forecast
has come is granted; a lock at its limit expires; emergency requests that are due take the port; a refresh that falls
due joins the contest; a broken lock is released. (R392, R393, R394, R396, R397, R399, R402, R403, R404, R405, R407,
13_deadline_arbitration) -/
def Obligations.ArbitrationComplete : Prop :=
  (∀ (m : Msg) (s : State), admitted opDiagArbPrio m s = true →
    let words := (List.range (byteAt m.payload 3)).map fun i => w32 m.payload (8 + 4 * i)
    let k := byteAt m.payload 1
    (byteAt m.payload 0 = 0 → Completes (.diagArbPrio m) opDiagArbPrio m s
      { state := setArb s false k fun a => { a with shadow := smSetRun a.shadow (byteAt m.payload 2) words } }) ∧
    (byteAt m.payload 0 ≠ 0 → Completes (.diagArbPrio m) opDiagArbPrio m s
      { state := setArb s true k fun a =>
          revise true (nowTick s) 41 (fun _ => true) { a with active := smSetRun a.active (byteAt m.payload 2) words } })) ∧
  (∀ (m : Msg) (s : State), admitted opDiagArbCommit m s = true →
    Completes (.diagArbCommit m) opDiagArbCommit m s { state := { s with fabric := { s.fabric with
      ports := s.fabric.ports.zipIdx.map fun e => if bit (byteAt m.payload 0) e.2 then { e.1 with commit := true } else e.1 } } }) ∧
  (∀ (m : Msg) (s : State), admitted opDiagArbQuery m s = true →
    ∃ b : Bytes, b.length = 264 ∧ Completes (.diagArbQuery m) opDiagArbQuery m s { state := s, payload := b }) ∧
  (∀ (cluster : Bool) (i : Fin 4) (req : ArbReq) (flips : EccFlips) (s : State), requestOk cluster i req s = true →
    let p := subchannel s.mem.inForce req.address.toNat
    let now := nowTick s
    (lockRule s req p = false → exec (.arbRequest cluster i req flips) s = .next (protocolFault req s)) ∧
    (lockRule s req p = true → cluster = false →
      let idle := arbIdle (portAt s i) now && !s.mem.selfRefresh && lockLets (portAt s i) req
      let s1 := enterPort i req idle s
      exec (.arbRequest cluster i req flips) s = .next (if idle then portDecision i flips s1 else s1)) ∧
    (lockRule s req p = true → cluster = true →
      let idle := arbIdle (clusterAt s i) now && slotsUsed (portAt s p) req.requester.val < 4
      let s1 := setArb s true i fun a =>
        let w := { newWaiting s req with
          forecast := if idle then now else forecastOf true a now 41 0 (newWaiting s req) }
        revise true now 41 (fun v => v != w && ranksBefore a now w v) { a with queue := a.queue ++ [w] }
      exec (.arbRequest cluster i req flips) s = .next (if idle then clusterDecision i s1 else s1))) ∧
  (∀ (i : Fin 4) (flips : EccFlips) (s : State), s.mem.selfRefresh = false → refreshing (portAt s i) (nowTick s) = false →
    let s1 := expireLock i (commitShadows i s)
    let a := portAt s1 i
    let t := nowTick s
    (∀ w : Waiting, emergencyDue a t (fun _ => true) = some w →
      exec (.arbDecision false i flips) s = .next (takeEmergency i w flips s1)) ∧
    (∀ w : Waiting, emergencyDue a t (fun _ => true) = none → firstRank a t (portEligible a t) = some w →
      w.req.requester ≠ 21 → ¬ (w.req.requester = 20 ∧ a.lock.isSome = true) →
      exec (.arbDecision false i flips) s = .next (grantSegment i w flips s1)) ∧
    (emergencyDue a t (fun _ => true) = none → firstRank a t (portEligible a t) = none →
      exec (.arbDecision false i flips) s = .next (setArb s1 false i fun a => { a with current := none })) ∧
    exec (.arbDecision true i flips) s = .next (clusterDecision i s)) ∧
  (∀ (i : Fin 4) (flips : EccFlips) (s : State) (w : Waiting), s.mem.selfRefresh = false →
    let s1 := commitShadows i s
    let a := portAt s1 i
    a.lock = none → refreshing a (nowTick s) = false →
    firstRank a (nowTick s) (a.queue.filter fun w =>
      w.req.sleep && prioClass a w.req.requester.val == 0 && ticksTo w.forecast (nowTick s) ≤ 0) = some w →
    exec (.sleepWake i flips) s = .next (grantSegment i w flips s1)) ∧
  (∀ (i : Fin 4) (s : State) (k : LockState), (portAt s i).lock = some k →
    16 ≤ k.segments ∨ 200 ≤ lockTicks k (nowTick s) →
    exec (.lockExpiry i) s = .next (arbLockEvent i k.owner 1 k.lastSeg (setArb s false i fun a => dropLock { a with
      lapsed := if a.queue.any fun w => w.req.requester.val == k.owner && w.req.lock == .last then a.lapsed
        else k.owner :: a.lapsed
      queue := a.queue.map fun w =>
        if w.req.requester.val == k.owner && w.req.lock != .none then
          { w with req := { w.req with lock := .none }, expired := true }
        else w }))) ∧
  (∀ (i : Fin 4) (refresh : Bool) (flips : EccFlips) (s : State) (w : Waiting), s.mem.selfRefresh = false →
    refreshing (portAt s i) (nowTick s) = false →
    emergencyDue (portAt (commitShadows i s) i) (nowTick s) (fun r => r == (if refresh then 21 else 20)) = some w →
    exec (.emergencyTake i refresh flips) s = .next (takeEmergency i w flips (commitShadows i s))) ∧
  (∀ (i : Fin 4) (rank : Fin 2) (s : State), s.mem.trained = true → s.mem.selfRefresh = false →
    let r := 2 * i.val + rank.val
    rankThere s.mem.inForce r = true → s.mem.refreshNext.getD r 0 ≤ s.time.clock →
    let w := newWaiting s ⟨21, .arrival, 64, false, BitVec.ofNat 38 rank.val, .none, false⟩
    let s1 := setArb s false i fun a => { a with queue := a.queue ++ [w] }
    let s2 := { s1 with mem := { s1.mem with
      refreshNext := setAt s1.mem.refreshNext r (s.time.clock + trefi (s.mem.band.getD r 0)) } }
    exec (.refreshDue i rank) s =
      .next (if arbIdle (portAt s i) (nowTick s) then takeEmergency i w noFlips s2 else s2)) ∧
  (∀ (r : Fin 32) (s : State), ∃ t : State, exec (.lockBroken r) s = .next t ∧
    (∀ a ∈ t.fabric.ports, ∀ w ∈ a.queue, w.req.requester.val ≠ r.val) ∧
    (∀ a ∈ t.fabric.clusters, ∀ w ∈ a.queue, w.req.requester.val ≠ r.val) ∧
    t.fabric.faulty = s.fabric.faulty.filter (· != r.val) ∧ t.mem = s.mem ∧ t.objs = s.objs)

/-- Admitted: diag.avs_config writes floor, hysteresis, idle voltage and the switch, commands 0.90 V with AVS off, and
reports what lies below the new floor; diag.slack_query answers 136 bytes. At the end of a window of 1,024 lines the
bar's minimum is kept, its windows are counted, the busy fraction is a free value, and SLACK_LOW, the FS's step and
AVS_LIMIT follow; without a run that holds the voltage VDD_F falls by 5 mV towards IDLE_MV. (R17, R409, R410, R411,
13_deadline_arbitration) -/
def Obligations.VoltageComplete : Prop :=
  (∀ (m : Msg) (s : State), admitted opDiagAvsConfig m s = true →
    let on := bit (byteAt m.payload 6) 0
    let s1 := commandVdd (if on then s.fabric.vddMv else 900)
      { s with fabric := { s.fabric with floor := u16 m.payload 0, hyst := u16 m.payload 2
                                         idleMv := u16 m.payload 4, avsOn := on } }
    Completes (.diagAvsConfig m) opDiagAvsConfig m s
      { state := limitReport ((activeSlacks s1).foldl (fun s e => slackReport e.1 s) s1) }) ∧
  (∀ (m : Msg) (s : State), admitted opDiagSlackQuery m s = true →
    ∃ b : Bytes, b.length = 136 ∧ Completes (.diagSlackQuery m) opDiagSlackQuery m s { state := s, payload := b }) ∧
  (∀ (b : Fin 8) (s : State) (k : Int), (barAt s b).slackMin = some k → 1024 ≤ (barAt s b).slackLines →
    let s1 := { s with fresh := s.fresh + 1 }
    let s2 := setBar s1 b fun bar => { bar with
      slackLast := some k, slackWorst := some (match bar.slackWorst with | none => k | some w => min w k)
      slackMin := none, slackLines := 0, busy := (takeFree 16 s).1, slackWindows := bar.slackWindows + 1 }
    let low : Bool := (leastSlack s2).any fun e => decide (e.2 < (s2.fabric.floor : Int))
    let high : Bool := (leastSlack s2).any fun e => decide ((s2.fabric.floor : Int) + s2.fabric.hyst ≤ e.2)
    let s3 := setBar s2 b fun bar => { bar with slackHigh := if high then bar.slackHigh + 1 else 0 }
    let s4 := { s3 with fabric := { s3.fabric with lowRun := if low then s3.fabric.lowRun + 1 else 0 } }
    exec (.slackWindowEnd b) s = .next (limitReport (avsStep (slackReport b s4)))) ∧
  (∀ s : State, voltageHeld s = false → s.fabric.avsOn = true → s.fabric.idleMv < s.fabric.vddMv →
    exec .avsIdleStep s = .next (setVdd (max s.fabric.idleMv (s.fabric.vddMv - 5)) s))

/-- Admitted: sys.eth_config keeps the new configuration for the port's next tick and sys.eth_query answers 48 bytes.
A frame on a port that is up is counted as an FCS error, discarded, or received; a change of the link or an address
conflict is told once; fragments older than 100 ms are dropped; a valid HELLO is answered by a REPLY, a valid CONFIRM
opens the session, and a handshake older than 1 s is dropped. (R62, R63, R64, R65, R70, R412, R413, R414, R415, R418,
14_time_and_ethernet) -/
def Obligations.EthernetComplete : Prop :=
  (∀ (m : Msg) (s : State), admitted opSysEthConfig m s = true →
    Completes (.sysEthConfig m) opSysEthConfig m s
      { state := setEth s (byteAt m.payload 0) fun e => { e with pending := some (m.payload, s.time.clock) } }) ∧
  (∀ (m : Msg) (s : State), admitted opSysEthQuery m s = true →
    ∃ b : Bytes, b.length = 48 ∧ Completes (.sysEthQuery m) opSysEthQuery m s { state := s, payload := b }) ∧
  (∀ (p : Fin 2) (f : EthFrame) (s : State), (ethAt s p).up = true →
    (f.fcsOk = false → exec (.ethFrameReceive p f) s = .next (setEth s p fun e => { e with fcsErr := e.fcsErr + 1 })) ∧
    (f.fcsOk = true → frameAccepted s p f = false →
      exec (.ethFrameReceive p f) s = .next (setEth s p fun e => { e with discarded := e.discarded + 1 })) ∧
    (f.fcsOk = true → frameAccepted s p f = true → 
      let s1 := setEth s p (tookFrame f.kind (routerSeen (ethAt s p) f.kind))
      (f.frag = none → exec (.ethFrameReceive p f) s = .next s1) ∧
      (∀ g : Fragment, f.frag = some g → exec (.ethFrameReceive p f) s = .next (takeFragment p g s1)))) ∧
  (∀ (p : Fin 2) (s : State),
    (∀ (up g : Bool), (ethAt s p).up = true → (ethAt s p).flags.getLsbD 4 = true →
      (if g then (ethAt s p).dupGlobal else (ethAt s p).dupLocal) = false →
      exec (.ethLink p up (some g)) s = .next (ethLinkEvent p 2 (setEth s p (dropAddress g)))) ∧
    (exec (.ethLink p false none) s = .next (linkDown p s)) ∧
    ((ethAt s p).up = false → (ethAt s p).mode ≠ 0 →
      exec (.ethLink p true none) s = .next (ethLinkEvent p 1 (setEth s p portUp)))) ∧
  (∀ s : State, exec .fragmentTimeout s =
    .next { s with eth := { s.eth with frags := s.eth.frags.filter fun r => s.time.clock < r.since + 100000000 } }) ∧
  (∀ (p : Fin 2) (v6 : Bool) (body : List Byte) (s : State), s.mbx.ethEnable = true → s.mbx.ready = true →
    portReached (ethAt s p) v6 = true → (recentHellos s).length < 10 → body.length = 132 → byteAt body 0 = 4 →
    (hostKey s (byteAt body 129)).isSome = true → u16 body 130 = 0 → s.eth.sessions.length < 4 →
    ∃ (t u : State) (reply : Bytes), exec (.hello p v6 body) s = .next t ∧
      t = sendUdp p v6 (transportHeader 0 0x02 0 0 ++ reply) u ∧
      u.eth.handshakes = s.eth.handshakes ++
        [⟨BitVec.ofNat 32 s.eth.nextSession, p.val, v6, byteAt body 129, body, reply, s.time.clock⟩] ∧
      u.eth.sessions = s.eth.sessions ∧ u.eth.out = s.eth.out ∧ u.ports = s.ports ∧ t.objs = s.objs ∧ t.mem = s.mem) ∧
  (∀ (id : BitVec 32) (body : List Byte) (s : State) (h : Handshake) (k : HostKey),
    s.eth.handshakes.find? (fun h => h.session == id) = some h → body.length = 96 → s.mbx.ethEnable = true →
    s.time.clock ≤ h.since + 1000000000 → s.eth.sessions.length < 4 → hostKey s h.keyIdx = some k →
    Config.ecdsaVerify k.key (Config.sha384 (h.hello ++ h.reply)) body = true →
    ∃ t : State, exec (.confirm id body) s = .next t ∧ (t.eth.sessions.map fun q => q.session) =
      (s.eth.sessions.map fun q => q.session) ++ [id]) ∧
  (∀ (id : BitVec 32) (s : State), exec (.handshakeTimeout id) s = .next { s with eth := { s.eth with
    handshakes := s.eth.handshakes.filter fun h => h.session != id || s.time.clock ≤ h.since + 1000000000 } })

/-- Admitted: time.ptp_config writes the PTP settings, with the loss of the master where port, transport or domain
change; time.servo_config writes the servo's settings; time.set in FREE_RUN or HOLDOVER, where a step is permitted,
steps device time to the time given; time.query answers 64 bytes. (R426, R437, 14_time_and_ethernet) -/
def Obligations.TimeMessageComplete : Prop :=
  (∀ (m : Msg) (s : State), admitted opTimePtpConfig m s = true →
    let b := m.payload
    let on : Bool := byteAt b 0 ≤ 1
    let port := if byteAt b 0 ≤ 1 then some (byteAt b 0) else none
    let same : Bool := s.ptp.port = port && s.ptp.transport == byteAt b 2 && s.ptp.domain == byteAt b 3
    let s1 := if same then s else loseMaster s
    let p := { s1.ptp with
      port := port, p2p := bit (byteAt b 1) 0, oneStep := bit (byteAt b 1) 1, slaveOnly := bit (byteAt b 1) 2
      failover := bit (byteAt b 1) 3
      transport := byteAt b 2, domain := byteAt b 3, logSync := s8 b 4, logAnnounce := byteAt b 5, logMinDelay := s8 b 6
      announceTimeout := byteAt b 7, priority1 := byteAt b 8, priority2 := byteAt b 9, clockClass := byteAt b 10
      syncTimeout := u16 b 12, asymmetry := s32 b 16 }
    let p1 := if same then p else { p with
      gm := none, gmRank := [], syncAt := none, announceAt := some s.time.clock, portState := if on then 4 else 1 }
    Completes (.timePtpConfig m) opTimePtpConfig m s
      { state := if on then { s1 with ptp := p1 } else servoTo .freeRun 0 { s1 with ptp := p1 } }) ∧
  (∀ (m : Msg) (s : State), admitted opTimeServoConfig m s = true →
    let b := m.payload
    Completes (.timeServoConfig m) opTimeServoConfig m s { state := { s with time := { s.time with
      kp := u16 b 0, ki := u16 b 2, stepNs := u32 b 4, maxSlewPpb := u32 b 8, lockNs := u16 b 12, lockCount := byteAt b 14
      acceptCount := byteAt b 15, acceptSpread := u32 b 16, holdoverAvgS := u16 b 20
      stepInRun := bit (byteAt b 22) 0 } } }) ∧
  (∀ (m : Msg) (s : State), admitted opTimeSet m s = true → s.time.servo ≠ .acquiring → s.time.servo ≠ .locked →
    stepPermitted s = true →
    let s1 := stepTime ((timeAt m.payload 0 : Int) - s.time.te) s
    Completes (.timeSet m) opTimeSet m s { state := { s1 with time := { s1.time with frac := 0 } } } ∧
      s1.time.te = timeAt m.payload 0) ∧
  (∀ (m : Msg) (s : State), admitted opTimeQuery m s = true →
    ∃ b : Bytes, b.length = 64 ∧ Completes (.timeQuery m) opTimeQuery m s { state := s, payload := b })

/-- A Sync from the chosen grandmaster is a sample of an accepted master or of a candidate; an Announce is judged; a
Sync or Announce that stays away for its timeout loses the master; what PTP has to send is sent; the time word sent
last, with a good CRC, sets field device time to the word plus the latency, held near TE time (log 133), and as a jump
under a new epoch; an echo is one of the last 64; the time channel lost for 10 ms ends the lock. (R416, R422, R423,
R424, R425, R427, R428, R429) -/
def Obligations.TimeStepComplete : Prop :=
  (∀ (gm : BitVec 64) (o : Int) (s : State), s.ptp.port ≠ none → s.ptp.gm = some gm →
    let s1 := { s with ptp := { s.ptp with syncAt := some s.time.clock }, time := { s.time with lastOffset := o } }
    (s.time.servo = .acquiring ∨ s.time.servo = .locked → exec (.syncMessage gm o) s = .next (masterSample o s1)) ∧
    (s.time.servo = .freeRun ∨ s.time.servo = .holdover → exec (.syncMessage gm o) s = .next (candidateSample gm o s1))) ∧
  (∀ (gm : BitVec 64) (p1 cls p2 : Nat) (utc : Int) (s : State), s.ptp.port ≠ none →
    exec (.ptpMessage (.announce gm p1 cls p2 utc)) s = .next (takeAnnounce gm [p1, cls, p2, gm.toNat] utc s)) ∧
  (∀ (ns : Nat) (s : State), s.ptp.port ≠ none →
    exec (.ptpMessage (.delayResp ns)) s = .next { s with ptp := { s.ptp with pathDelay := ns } } ∧
    (s.ptp.portState = 6 → s.ptp.p2p = false →
      exec (.ptpMessage .delayReq) s = .next (ptpSend .delayResp false false 0 s.time.te s)) ∧
    (∀ (c : Int) (t2 t3 : Nat), s.ptp.p2p = true →
      exec (.ptpMessage (.pdelayReq c t2 t3)) s = .next (ptpPdelayResp c t2 t3 s))) ∧
  (∀ (gm : BitVec 64) (t : Nat) (s : State), s.ptp.port ≠ none → s.ptp.gm = some gm → s.ptp.syncAt = some t →
    t + s.ptp.syncTimeout * pow2s s.ptp.logSync ≤ s.time.clock → exec .syncTimeout s = .next (loseMaster s)) ∧
  (∀ (t : Nat) (s : State), s.ptp.port ≠ none → s.ptp.announceAt = some t →
    t + s.ptp.announceTimeout * pow2s s.ptp.logAnnounce ≤ s.time.clock →
    let s1 := if s.ptp.gm = none then s else loseMaster s
    exec .announceTimeout s = .next { s1 with ptp := { s1.ptp with gm := none, gmRank := [], announceAt := none
                                                                   syncAt := none
                                                                   portState := if s.ptp.slaveOnly then 4 else 6 } }) ∧
  (∀ s : State, s.ptp.port ≠ none → s.ptp.portState = 8 → s.ptp.p2p = false →
    s.ptp.sentAt.getD 2 0 + pow2s s.ptp.logMinDelay ≤ s.time.clock →
    let s1 := ptpSend .delayReq false false 0 0 s
    exec .ptpTransmitInterval s =
      .next { s1 with ptp := { s1.ptp with sentAt := setAt s1.ptp.sentAt 2 s.time.clock } }) ∧
  (∀ s : State, s.power.hostReset = false → s.time.wordSentAt + 1000 ≤ s.time.clock →
    exec .timeWordSend s =
      .next { s with time := { s.time with word := some (s.time.te, s.time.epoch), wordSentAt := s.time.clock } }) ∧
  (∀ (ns epoch : Nat) (s : State), s.power.fieldReset = false → s.time.word = some (ns, epoch) →
    let s0 := { s with time := { s.time with word := none } }
    let at_ := wordTime ns s
    let s1 := if epoch ≠ s.time.epoch then s0
      else if epoch = s.time.fieldEpoch ∧ distInt (at_ : Nat) s.time.field ≤ 208 then
        { s0 with time := { s0.time with field := at_ } }
      else jumpField at_ s0
    exec (.timeWordReceive true) s =
      .next { s1 with time := { s1.time with
        fieldEpoch := epoch, wordAt := s.time.clock, fieldY := if s.time.locked then s.time.y else s.time.fieldY } } ∧
    exec (.timeWordReceive false) s = .next s0) ∧
  (∀ (round turn : Nat) (s : State), ∃ t : State, exec (.heartbeatEcho round turn) s = .next t ∧
    t.time.echoes = (echoLatency round turn :: s.time.echoes).take 64 ∧ t.time.echoAt = s.time.clock ∧ t.time.lost = false ∧
    (s.time.locked = true → t.time.locked = true) ∧ t.objs = s.objs ∧ t.mem = s.mem) ∧
  (∀ s : State, s.time.lost = false →
    s.time.wordAt + 10000000 ≤ s.time.clock ∨ s.time.echoAt + 10000000 ≤ s.time.clock →
    let s1 := { s with time := { s.time with lost := true, locked := false, echoRun := 0 } }
    exec .saddleTimeLoss s = .next (noteStatus s (
      if s.time.locked then hostEvent 0x0C04 0 (le 1 0 ++ zeros 3 ++ le 4 (saddleLatency s)) s1 else s1)))

/-- Admitted, with room in the table and with the states their rules ask for: time.trigger_create and
time.timer_create make the object; time.trigger_arm with a start at least 1 µs ahead arms it, a single pulse that is
late is given at once and answered LATE, a periodic one starts at the first pulse that is 1 µs ahead; disarm, stop,
destroy and query do as R433, R434 and R438 say; a pulse or an expiry that is due is given; an accepted edge is
recorded; capture_config and capture_read complete. (R76, R221, R430, R431, R432, R433, R434, R435, R436, R438, R439,
14_time_and_ethernet) -/
def Obligations.TriggerComplete : Prop :=
  (∀ (m : Msg) (s : State) (i : Nat) (t : ObjTable Trigger), admitted opTimeTriggerCreate m s = true →
    let b := m.payload
    s.objs.triggers.create
      { kind := .time (byteAt b 0) (bit (byteAt b 1) 0) (u32 b 4) (u64 b 8) (u32 b 16), armed := false, value := 0
        hits := 0, armHits := 0, skipped := 0, lastHit := 0, next16 := 0, eventAts := [] } = some (i, t) →
    Completes (.timeTriggerCreate m) opTimeTriggerCreate m s
      { state := { s with objs := { s.objs with triggers := t } }, handle := some (t.handle tyTrigger i) }) ∧
  (∀ (m : Msg) (s : State) (t : Trigger) (out width period count : Nat) (event : Bool),
    triggerOf s m.handle = some t → t.kind = .time out event width period count →
    let start := timeAt m.payload 0
    let now := outputTime s out
    let t0 := { t with armed := true, hits := 0, skipped := 0, next16 := start * 65536, late := false }
    (admitted opTimeTriggerArm m s = true → now + 1000 ≤ start →
      Completes (.timeTriggerArm m) opTimeTriggerArm m s { state := setTrigger s m.handle fun _ => t0 }) ∧
    (admitted opTimeTriggerArm m s = true → start < now + 1000 → period = 0 →
      Completes (.timeTriggerArm m) opTimeTriggerArm m s
        { state := givePulse (hIdx m.handle) (setTrigger s m.handle fun _ => { t0 with late := true })
          status := stLate, payload := le 4 0 }) ∧
    (admitted opTimeTriggerArm m s = true → start < now + 1000 → period ≠ 0 →
      let k := ceilDiv ((now + 1000 - start) * 65536) period
      Completes (.timeTriggerArm m) opTimeTriggerArm m s
        { state := setTrigger s m.handle fun _ =>
            { t0 with skipped := k, next16 := (start * 65536) + k * period, armed := count == 0 || k < count }
          status := stLate, payload := le 4 (min k 0xFFFFFFFF) }) ∧
    (admitted opTimeTriggerDisarm m s = true →
      Completes (.timeTriggerDisarm m) opTimeTriggerDisarm m s
        { state := endPulses (hIdx m.handle) (setTrigger s m.handle fun t => { t with armed := false, late := false }) }) ∧
    (admitted opTimeTriggerDestroy m s = true → t.armed = false →
      let s1 := endPulses (hIdx m.handle) s
      Completes (.timeTriggerDestroy m) opTimeTriggerDestroy m s
        { state := { s1 with objs := { s1.objs with triggers := s1.objs.triggers.release (hIdx m.handle) } } }) ∧
    (admitted opTimeTriggerQuery m s = true → t.armed = true →
      Completes (.timeTriggerQuery m) opTimeTriggerQuery m s
        { state := s, payload := le 1 1 ++ zeros 3 ++ le 4 t.hits ++ le 4 t.skipped ++
            le 8 (t.next16 / 65536 / 1000000000) ++ le 4 (t.next16 / 65536 % 1000000000) }) ∧
    (admitted opTimeTriggerQuery m s = true → t.armed = false →
      ∃ b : Bytes, b.length = 24 ∧
        Completes (.timeTriggerQuery m) opTimeTriggerQuery m s { state := { s with fresh := s.fresh + 1 }, payload := b })) ∧
  (∀ (k : Fin 128) (s : State) (t : Trigger) (out width period count : Nat) (event : Bool),
    s.objs.triggers.at? k = some t → t.kind = .time out event width period count → t.armed = true →
    t.next16 / 65536 ≤ outputTime s out →
    exec (.triggerPulse k) s = .next (givePulse k s)) ∧
  (∀ (k : Fin 128) (s : State),
    let s1 := expirePulse k s
    exec (.triggerPulseEnd k) s = .next { s1 with time := { s1.time with
      hostPulses := s1.time.hostPulses.map fun l => l.filter fun e => e.1 != k.val || s.time.clock < e.2 } }) ∧
  (∀ (m : Msg) (s : State) (i : Nat) (tab : ObjTable Timer), admitted opTimeTimerCreate m s = true →
    let b := m.payload
    let late := timeAt b 0 < s.time.field + 1000
    let k := if late then ceilDiv ((s.time.field + 1000 - timeAt b 0) * 65536) (u64 b 16) else 0
    s.objs.timers.create
      { running := u32 b 12 == 0 || k < u32 b 12, next16 := timeAt b 0 * 65536 + k * u64 b 16, period16 := u64 b 16
        count := u32 b 12, expired := 0, skipped := k } = some (i, tab) →
    Completes (.timeTimerCreate m) opTimeTimerCreate m s
      { state := { s with objs := { s.objs with timers := tab } }, handle := some (tab.handle tyTimer i)
        status := if late then stLate else stOk, payload := if late then le 4 (min k 0xFFFFFFFF) else [] }) ∧
  (∀ (m : Msg) (s : State),
    (admitted opTimeTimerStop m s = true → Completes (.timeTimerStop m) opTimeTimerStop m s
      { state := setTimer s m.handle fun t => { t with running := false, late := false } }) ∧
    (∀ t : Timer, admitted opTimeTimerDestroy m s = true → timerOf s m.handle = some t → t.running = false →
      Completes (.timeTimerDestroy m) opTimeTimerDestroy m s
        { state := { s with objs := { s.objs with timers := s.objs.timers.release (hIdx m.handle) } } })) ∧
  (∀ (k : Fin 32) (s : State) (t : Timer), s.objs.timers.at? k = some t → t.running = true →
    t.next16 / 65536 ≤ s.time.field → exec (.timerExpired k) s = .next (expireTimer k t s)) ∧
  (∀ (i : Fin 6) (falling : Bool) (held : Nat) (s : State),
    let c := captureAt s i
    edgeSelected c.edges falling = true → 5 * c.filter ≤ held → (∀ t, c.edgeAt = some t → t + 100 ≤ s.time.clock - held) →
    c.events = false → c.records.length < 64 → c.dropped = 0 →
    exec (.capture i falling held) s = .next (setCapture s i fun c => { c with
      records := c.records ++ [⟨(if i.val < 4 then s.time.field else s.time.te) - held, c.seq, falling,
        if i.val < 4 then s.time.fieldEpoch else s.time.epoch⟩]
      seq := (c.seq + 1) % 65536, eventAts := c.eventAts.filter fun e => s.time.clock < e + 1000000000
      edgeAt := some (s.time.clock - held) })) ∧
  (∀ (m : Msg) (s : State),
    (admitted opTimeCaptureConfig m s = true → Completes (.timeCaptureConfig m) opTimeCaptureConfig m s
      { state := setCapture s (byteAt m.payload 0) fun c => { c with
          edges := byteAt m.payload 1, filter := byteAt m.payload 2, events := bit (byteAt m.payload 3) 0 } }) ∧
    (admitted opTimeCaptureRead m s = true →
      let l := (captureAt s (byteAt m.payload 0)).records
      Completes (.timeCaptureRead m) opTimeCaptureRead m s
        { state := reportLost (byteAt m.payload 0) (setCapture s (byteAt m.payload 0) fun c => { c with records := [] })
          payload := le 4 l.length ++ l.flatMap CaptureRec.bytes }))

/-- Admitted, sys.saddle_query answers 48 bytes. While both ends run: a frame of a class that the channel does not
carry changes nothing; a good frame of a channel in service is counted; a bad one is sent again, and the 16th resend
within 1 ms removes the channel; a failed idle check removes a channel in service; a removed one that has passed for 1
s returns; a beat is taken. With the conditions of R31 and R33: the host side is lost and active runs end at their
repeats; it is back; the field is unreachable; it is reachable again, and what a field-die reset did is reported.
(R11, R31, R32, R33, R75, R361, R441, R443, R462, R490, R528, 15_barrier_saddle_and_interlocks) -/
def Obligations.SaddleComplete : Prop :=
  (∀ (m : Msg) (s : State), admitted opSysSaddleQuery m s = true →
    ∃ b : Bytes, b.length = 48 ∧ Completes (.sysSaddleQuery m) opSysSaddleQuery m s { state := s, payload := b }) ∧
  (∀ (ret : Bool) (k : Fin 14) (i n : Nat) (cls : SaddleClass) (s : State), channelIndex ret k = some i →
    saddleUp s = true →
    (carries ret cls = false → ∀ ok : Bool, exec (.saddleFrame ret k cls n ok) s = .next s) ∧
    (channelOn s ret k = true → carries ret cls = true → exec (.saddleFrame ret k cls n true) s = .next { s with saddle :=
      if ret then { s.saddle with retBytes := (s.saddle.retBytes + n) % 2 ^ 64, frameRet := s.time.clock }
      else { s.saddle with fwdBytes := (s.saddle.fwdBytes + n) % 2 ^ 64, frameFwd := s.time.clock } }) ∧
    (channelOn s ret k = true → carries ret cls = true →
      let l := s.time.clock :: (s.saddle.resendAt.getD i []).filter fun t => s.time.clock < t + 1000000
      let s1 := { s with saddle := { s.saddle with
        resendAt := setAt s.saddle.resendAt i l, resends := (s.saddle.resends + 1) % 2 ^ 32 } }
      exec (.saddleFrame ret k cls n false) s =
        .next (if 16 ≤ l.length then noteStatus s (turnChannel ret k false s1) else s1)) ∧
    (channelOn s ret k = true →
      exec (.idlePatternCheck ret k false) s = .next (noteStatus s (turnChannel ret k false s))) ∧
    (channelOn s ret k = false → ∀ pass : Bool,
      let since := if pass then some ((s.saddle.cleanSince.getD i none).getD s.time.clock) else none
      exec (.idlePatternCheck ret k pass) s =
        .next { s with saddle := { s.saddle with cleanSince := setAt s.saddle.cleanSince i since } }) ∧
    (∀ t : Nat, channelOn s ret k = false → s.saddle.cleanSince.getD i none = some t →
      t + 1000000000 ≤ s.time.clock →
      exec (.channelReturn ret k) s = .next (noteStatus s (deliverHeld (turnChannel ret k true s))))) ∧
  (∀ (t24 t25 : Int) (s : State), saddleUp s = true → ∃ a b : State,
    exec (.saddleHeartbeat false t24 t25) s = .next a ∧ a.thermal.hostReadings = [t24, t25] ∧
      a.saddle.hbH2F = true ∧ a.saddle.beatH2F = s.time.clock ∧ a.objs = s.objs ∧
    exec (.saddleHeartbeat true t24 t25) s = .next b ∧ b.saddle.hbF2H = true ∧ b.saddle.beatF2H = s.time.clock ∧
      b.thermal = s.thermal ∧ b.objs = s.objs) ∧
  (∀ s : State, s.saddle.hostLost = false → s.power.fieldReset = false →
    s.saddle.beatH2F + 10000000 ≤ s.time.clock → s.time.wordAt + 10000000 ≤ s.time.clock →
    s.saddle.frameFwd + 10000000 ≤ s.time.clock →
    let s1 := { s with saddle := { s.saddle with hostLost := true, hbH2F := false, runH2F := none } }
    let runs := s1.objs.runs.mapLive fun r => if r.state.active then runOut s1 r else r
    exec .hostSideLost s = .next (noteStatus s { s1 with objs := { s1.objs with runs := runs } })) ∧
  (∀ s : State, s.saddle.hostLost = true → beatsFor1ms s.time.clock s.saddle.beatH2F s.saddle.runH2F = true →
    exec .hostSideBack s = .next (noteStatus s (flushWaiting (deliverHeld
      { s with saddle := { s.saddle with hostLost := false } })))) ∧
  (∀ s : State, s.saddle.fieldLost = false →
    let silent : Bool := decide (s.saddle.beatF2H + 10000000 ≤ s.time.clock) &&
      decide (s.saddle.frameRet + 10000000 ≤ s.time.clock)
    silent = true ∨ s.saddle.forward.any id = false ∨ s.saddle.approved = false →
    exec .fieldUnreachable s = .next (noteStatus s { s with saddle := { s.saddle with
      fieldLost := true, hbF2H := s.saddle.hbF2H && !silent
      runF2H := if silent then none else s.saddle.runF2H } })) ∧
  (∀ s : State, s.saddle.fieldLost = true ∨ s.power.reportField.isSome = true → s.mbx.ready = true →
    saddleUp s = true → beatsFor1ms s.time.clock s.saddle.beatF2H s.saddle.runF2H = true →
    s.saddle.forward.any id = true → s.saddle.ret.any id = true → s.saddle.approved = true →
    exec .fieldReachable s =
      .next (noteStatus s (reportFieldReset { s with saddle := { s.saddle with fieldLost := false } })))

/-- Admitted: sys.interlock_config of an unlocked matrix writes inputs and rows; sys.interlock_lock answers the hash
of the configuration and, the first time, locks it; sys.interlock_rearm clears the latches of healthy inputs named and
answers them; sys.interlock_query answers 24 bytes and 2 for each row. An accepted change of a configured healthy loop
out of its range trips the input; a loop in its narrowed range for 10 ms makes it healthy. (R452, R453, R455, R456,
R457, R458, 15_barrier_saddle_and_interlocks) -/
def Obligations.InterlockComplete : Prop :=
  (∀ (m : Msg) (s : State), admitted opSysInterlockConfig m s = true → s.ilk.locked = false →
    Completes (.sysInterlockConfig m) opSysInterlockConfig m s { state := { s with ilk := { s.ilk with
      inputs := s.ilk.inputs.zipIdx.map (configureInput m.payload)
      rows := (List.range 8).map fun r => BitVec.ofNat 16 (u16 m.payload (64 + 2 * r))
      config := m.payload } } }) ∧
  (∀ (m : Msg) (s : State), admitted opSysInterlockLock m s = true →
    let h := Config.sha384 s.ilk.config
    (s.ilk.locked = true → Completes (.sysInterlockLock m) opSysInterlockLock m s { state := s, payload := leB 48 h }) ∧
    (s.ilk.locked = false →
      let m2 := Config.sha384 (leB 48 (s.cairn.m.getD 2 0) ++ leB 48 h)
      Completes (.sysInterlockLock m) opSysInterlockLock m s
        { state := noteFireEn 1 s { s with
            ilk := { s.ilk with locked := true, lockHash := h }
            cairn := { s.cairn with m := setAt s.cairn.m 2 m2 } }
          payload := leB 48 h })) ∧
  (∀ (m : Msg) (s : State), admitted opSysInterlockRearm m s = true →
    let clear := (List.range 16).filter fun i =>
      bit (u16 m.payload 0) i && (ilkAt s i).latched && (ilkAt s i).healthy
    let s1 := clear.foldl (fun s i =>
      ilkEvent i 0 true s.time.field s (setIlk s i fun q => { q with latched := false })) s
    let s2 := { s1 with ilk := { s1.ilk with cairnRearms := s1.ilk.cairnRearms + clear.length } }
    let s3 := auditRuns (fun _ => true) (fun a => { a with rearms := a.rearms + clear.length }) s2
    Completes (.sysInterlockRearm m) opSysInterlockRearm m s
      { state := noteFireEn 1 s s3, payload := le 2 (sumOf (clear.map fun i => 2 ^ i)) }) ∧
  (∀ (m : Msg) (s : State), admitted opSysInterlockQuery m s = true → ∃ b : Bytes, b.length = 24 + 2 * s.ilk.rows.length ∧
    Completes (.sysInterlockQuery m) opSysInterlockQuery m s { state := s, payload := b }) ∧
  (∀ (i : Fin 16) (ohms held : Nat) (s : State),
    let q := ilkAt s i
    let short : Bool := q.type == 1 && ohms < 700
    q.type ≠ 0 → loopHealthy q.type ohms = false → 100 * q.filter ≤ held →
    (q.healthy = false → exec (.interlock i ohms held) s =
      .next (setIlk s i fun q => { q with goodSince := none })) ∧
    (q.healthy = true →
      let s1 := setIlk s i fun q =>
        { q with healthy := false, goodSince := none, short := short, latched := q.latched || q.latch }
      let s2 := { s1 with ilk := { s1.ilk with
        trips := (s1.ilk.trips + 1) % 2 ^ 32, cairnTrips := s1.ilk.cairnTrips + 1 } }
      let s3 := auditRuns (fun _ => true) (fun a => { a with trips := a.trips + 1 }) s2
      exec (.interlock i ohms held) s = .next (noteFireEn 1 s
        (ilkEvent i (if short then 2 else 1) false (s.time.field - held) s s3)))) ∧
  (∀ (i : Fin 16) (ohms : Nat) (s : State), (ilkAt s i).type ≠ 0 → (ilkAt s i).healthy = false →
    loopSettled (ilkAt s i).type ohms = true →
    ((ilkAt s i).goodSince = none → exec (.interlockHealthy i ohms) s =
      .next (setIlk s i fun q => { q with goodSince := some s.time.clock })) ∧
    (∀ t : Nat, (ilkAt s i).goodSince = some t → t + 10000000 ≤ s.time.clock →
      let s1 := setIlk s i fun q => { q with healthy := true }
      let s2 := { s1 with ilk := { s1.ilk with cairnHealths := s1.ilk.cairnHealths + 1 } }
      exec (.interlockHealthy i ohms) s = .next (noteFireEn 1 s (ilkEvent i 0 false s.time.field s s2))))

/-- Admitted: sys.temp_config of a sensor that may be ignored as asked writes it and evaluates the step;
sys.temp_query answers 128 bytes; sys.thermal_head writes the limits of the bars named; sys.thermal_resume of cooled
heads clears their cause 6. The sensors of a round that are due are read and the step evaluated, in thermal-off only
the cool time; a comparator of a sensor that works switches the device off and resets it; after 1 s of cool zones it
restarts. (R461, R464, R466, R467, R468, R470, R471, R473, R474, 16_thermal) -/
def Obligations.TemperatureComplete : Prop :=
  (∀ (m : Msg) (s : State), admitted opSysTempConfig m s = true →
    let b := m.payload
    let i := byteAt b 0
    let ignore := bit (byteAt b 2) 0
    (ignore = true → onDie i = true → (sensorAt s (partnerOf i)).failed = false) →
    exec (.sysTempConfig m) s = .next (noteStatus s (answer 0x0140 m (newPlace s) stOk none [] none
      (evaluateStep (setSensor s i fun q => { q with
        kind := byteAt b 1, ignore := ignore, hyst := byteAt b 3
        limits := (List.range 4).map fun k => limitOf (s16 b (4 + 2 * k))
        ideality := u16 b 12, beta := u16 b 14, r25 := u32 b 16
        failed := q.failed && (onDie i || q.kind == byteAt b 1) }))))) ∧
  (∀ (m : Msg) (s : State), admitted opSysTempQuery m s = true →
    ∃ b : Bytes, b.length = 128 ∧ Completes (.sysTempQuery m) opSysTempQuery m s { state := s, payload := b }) ∧
  (∀ (m : Msg) (s : State), admitted opSysThermalHead m s = true →
    let limit := if u16 m.payload 2 = 0x7FFF then none else some (s16 m.payload 2)
    let set : Bar → Bar := fun x => { x with headLimit := limit, autoResume := bit (byteAt m.payload 1) 0 }
    Completes (.sysThermalHead m) opSysThermalHead m s { state := { s with
      bars := s.bars.zipIdx.map fun e => if bit (byteAt m.payload 0) e.2 then set e.1 else e.1 } }) ∧
  (∀ (m : Msg) (s : State), admitted opSysThermalResume m s = true →
    let b := byteAt m.payload 0
    let hot := ((List.range 32).filter (bit (u32 m.payload 4))).filter fun i => (headAt s b i).causes.contains 6
    (∀ i ∈ hot, cooled (barAt s b) (headAt s b i) = true) →
    Completes (.sysThermalResume m) opSysThermalResume m s
      { state := hot.foldl (fun s i => withCauses b i (fun l => l.filter (· != 6)) s) s }) ∧
  (∀ (l : List (Fin 26 × SensorSample)) (s : State),
    let read := roundReadings l s
    let both := fun (z : Nat) => read.any (fun e => e.1 == 16 + 2 * z) && read.any fun e => e.1 == 17 + 2 * z
    let s1 := read.foldl (fun s e => takeReading e.1 e.2.1 e.2.2 s) s
    (s.thermal.off = true →
      let since := if zonesCool s1 then some (s.thermal.coolSince.getD s.time.clock) else none
      exec (.sensorRound l) s = .next { s1 with thermal := { s1.thermal with coolSince := since } }) ∧
    (s.thermal.off = false →
      let s2 := (List.range 5).foldl (fun s z => if both z then compareZone z s else s) s1
      exec (.sensorRound l) s = .next (noteStatus s (evaluateStep (readSupplies s2))))) ∧
  (∀ (i : Fin 26) (s : State), onDie i = true → (sensorAt s i).failed = false → s.thermal.off = false →
    let s1 := { s with thermal := { s.thermal with
      off := true, offCount := (s.thermal.offCount + 1) % 2 ^ 32, offZone := sensorZone i, offSensor := i.val
      offTime := s.time.te, coolSince := none } }
    let s2 := resetBoth (noteFireEn 2 s (auditRuns (fun _ => true) (fun a => { a with thermalOffs := a.thermalOffs + 1 }) s1))
    exec (.comparatorTrip i) s = .next (noteStatus s { s2 with power := { s2.power with
      domainsOn := 0x41, domainsReset := 0xFFFFFFF, symbolDue := none } })) ∧
  (∀ (t : Nat) (s : State), s.thermal.off = true → s.thermal.coolSince = some t → t + 1000000000 ≤ s.time.clock →
    let s1 := resetBoth (recordReset 15 0 s)
    exec .thermalOffRestart s = .next (noteStatus s { s1 with
      win := { s1.win with cause := 15, reach := 0 }
      thermal := { s1.thermal with off := false, coolSince := none, report := true }
      power := { s1.power with domainsOn := 0xFFFFFFF, symbolDue := some 15 } }))

/-- Admitted: sys.reset keeps the scope for 1 ms later, widened by an earlier one; sys.boot_query answers 96 bytes,
sys.power_query 40, sys.option_read 68; sys.option_write in the temperature window writes the copy not in use.
Supplies good, brown-out, RST_N, FRST_N, loss and return of a reference, clock failures and the FS watchdog reset what
R486 names; a die whose conditions hold is released; AO-H's symbol and the option copy go to the field die. (R475,
R477, R482, R483, R484, R485, R486, R489, R493, R497, R498, R502) -/
def Obligations.ResetComplete : Prop :=
  (∀ (m : Msg) (s : State), admitted opSysReset m s = true →
    (byteAt m.payload 0 = 3 → s.cps.standby = .ready) →
    let asked := match s.power.softReset with
      | none => (byteAt m.payload 0, s.time.clock + 1000000)
      | some (old, t) => (unionReach old (byteAt m.payload 0), t)
    Completes (.sysReset m) opSysReset m s { state := { s with
        power := { s.power with softReset := some asked }
        cairn := { s.cairn with resetCalls := (byteAt m.payload 0, some m.inst) :: s.cairn.resetCalls } } }) ∧
  (∀ (scope t : Nat) (s : State), s.power.softReset = some (scope, t) → t ≤ s.time.clock →
    exec .softwareReset s =
      .next (noteStatus s (resetScope 9 scope { s with power := { s.power with softReset := none } }))) ∧
  (∀ (m : Msg) (s : State),
    (admitted opSysBootQuery m s = true →
      ∃ b : Bytes, b.length = 96 ∧ Completes (.sysBootQuery m) opSysBootQuery m s { state := s, payload := b }) ∧
    (admitted opSysPowerQuery m s = true →
      ∃ b : Bytes, b.length = 40 ∧ Completes (.sysPowerQuery m) opSysPowerQuery m s { state := s, payload := b }) ∧
    (admitted opSysOptionRead m s = true →
      let c := s.power.copies.getD (byteAt m.payload 0) ⟨[], 0⟩
      Completes (.sysOptionRead m) opSysOptionRead m s { state := s, payload := fit 64 c.bytes ++ le 4 c.writes }) ∧
    (admitted opSysOptionWrite m s = true → storeWindow s = true →
      let k := s.power.optCopy
      let used := if k = 3 then ({} : Power).options else (s.power.copies.getD k ⟨[], 0⟩).bytes.take 56
      let seq := s.power.optSeq + 1
      let body := patchBytes used (byteAt m.payload 0) (m.payload.drop 4) ++ leB 4 seq
      let target := if k = 0 then 1 else 0
      let copy := body ++ leB 4 (crc32c body)
      Completes (.sysOptionWrite m) opSysOptionWrite m s
        { state := hostEvent 0x0112 0 (le 1 target ++ zeros 3 ++ leB 4 seq) { s with power := { s.power with
            copies := modAt s.power.copies target fun c => ⟨copy, c.writes + 1⟩
            writePending := true, opt3Pending := energyOf (byteAt body 3) != s.power.energyClass } } })) ∧
  (∀ (field : Bool) (s : State), s.power.noSupply.getD (flag field) false = true →
    let good := (suppliesOf field).foldl (fun l i => setAt l i (nominal s i)) s.power.supply
    let s1 := { s with power := { s.power with
      supply := good, noSupply := setAt s.power.noSupply (flag field) false } }
    let s2 := (suppliesOf field).foldl (fun s i => readSupply i s) s1
    let s3 := fieldSource 2 s2
    exec (.supplyGood field) s = .next (noteStatus s (
      if field then { s3 with power := { s3.power with copyArrived := false, fieldPowerOn := true } }
      else powerOnHost s2))) ∧
  (∀ (i : Fin 12) (mv : Nat) (s : State), mv < brownOutBelow.getD i 0 →
    let s1 := readSupply i { s with power := { s.power with supply := setAt s.power.supply i mv } }
    let d := flag (decide (5 ≤ i.val))
    let s2 := { s1 with power := { s1.power with noSupply := setAt s1.power.noSupply d true } }
    s1.power.noSupply.getD d false = false → s.power.noSupply.getD d false = false →
    exec (.brownOut i mv) s = .next (noteStatus s (
      if 5 ≤ i.val then fieldSource 4 s2 else resetHost false (recordReset 3 1 s2)))) ∧
  (∀ s : State, s.power.rstLow = false →
    let s1 := resetBoth (recordReset 5 0 { s with power := { s.power with rstLow := true } })
    (∀ n : Nat, 4 ≤ n → exec (.rstN true n) s = .next (noteStatus s { s1 with power := { s1.power with symbolDue := none } })) ∧
    (∀ n : Nat, n < 4 → exec (.rstN true n) s = .next s) ∧
    (∀ n : Nat, 4 ≤ n → s.power.frstLow = false → exec (.frstN true n) s =
      .next (noteStatus s (fieldSource 6 { s with power := { s.power with frstLow := true } })))) ∧
  (∀ s : State,
    (∀ n : Nat, exec (.rstN false n) s = .next { s with power := { s.power with rstLow := false } } ∧
      exec (.frstN false n) s = .next { s with power := { s.power with frstLow := false } }) ∧
    (∀ field : Bool, exec (.referenceLoss field) s = .next (noteStatus s (loseReference field s))) ∧
    exec (.clockFailure 0) s = .next (noteStatus s (loseReference false s)) ∧
    exec (.clockFailure 7) s = .next (noteStatus s (loseReference true s)) ∧
    exec (.clockFailure 2) s = .next s ∧ exec (.clockFailure 13) s = .next s ∧
    (s.power.hostReset = false → exec (.clockFailure 3) s = .next (linkDown 0 s) ∧
      exec (.clockFailure 4) s = .next (linkDown 1 s) ∧
      ∀ d : Fin 14, d = 1 ∨ d = 5 ∨ d = 6 →
        let s1 := resetHost false (recordReset 11 0 s)
        exec (.clockFailure d) s = .next (noteStatus s { s1 with power := { s1.power with symbolDue := some 11 } })) ∧
    (s.power.fieldReset = false → ∀ d : Fin 14, 8 ≤ d.val → d.val ≤ 12 →
      exec (.clockFailure d) s = .next (noteStatus s (fieldSource 12 s)))) ∧
  (∀ s : State, s.power.refLost.getD 1 false = true →
    exec (.referenceReturn true) s = .next (noteStatus s (resetField false { s with power := { s.power with
      refLost := setAt s.power.refLost 1 false, refSince := setAt s.power.refSince 1 (some s.time.clock) } }))) ∧
  (∀ s : State, s.power.refLost.getD 0 false = true →
    let s1 := resetHost false { s with power := { s.power with
      refLost := setAt s.power.refLost 0 false, refSince := setAt s.power.refSince 0 (some s.time.clock) } }
    exec (.referenceReturn false) s =
      .next (noteStatus s { s1 with power := { s1.power with symbolDue := some 11 } })) ∧
  (∀ (lockup : Bool) (s : State), s.power.fieldReset = false → s.cps.halted.getD 2 false = false →
    exec (.fsWatchdog lockup) s = .next (noteStatus s (fieldSource (if lockup then 14 else 8) s))) ∧
  (∀ s : State,
    (hostReleasable s = true → exec (.resetRelease false) s = .next (noteStatus s (releaseHost s))) ∧
    exec (.resetRelease true) s = .next (noteStatus s (releaseField s)) ∧
    (s.power.hostReset = true → s.power.noSupply.getD 0 false = false → s.power.refLost.getD 0 false = false →
      s.thermal.off = false → exec .fieldResetSymbol s = .next (noteStatus s (sendSymbol s))) ∧
    (s.power.hostReset = false → s.power.symbolDue = none → s.power.copyArrived = false →
      s.power.noSupply.getD 1 false = false → s.power.fieldPowerOn = false →
      exec .optionCopy s = .next (noteStatus s (releaseField
        { s with power := { s.power with copyArrived := true } }))) ∧
    (s.power.hostReset = false → s.power.symbolDue = none → s.power.copyArrived = false →
      s.power.noSupply.getD 1 false = false → s.power.fieldPowerOn = true →
      exec .optionCopy s = .next (noteStatus s (releaseField { s with power := { s.power with
        energyClass := energyOf (byteAt s.power.options 3), fieldPowerOn := false, opt3Pending := false
        copyArrived := true } }))))

/-- While the host die is out of reset and CP0 is not released, measured boot releases it: with the recovery code
where no bank is left, with the image of the chosen bank where it is good, measured into M0; a bad image rejects its
bank. With Saddle up the field image of the running bank is approved and measured into M1, or the bank rejected. OPT5
seconds after release without a mailbox reject the bank. Then the mailbox is ready and the boot record is written.
(R474, R499, R520, R521, R522, R523, R524, R527) -/
def Obligations.BootComplete : Prop :=
  (∀ (check : ImageCheck) (s : State), s.power.hostReset = false → s.cps.released = false →
    (chooseBank s = none → exec (.measuredBoot check) s = .next (noteStatus s
      { s with cairn := { s.cairn with recovery := true }, cps := { s.cps with released := true } })) ∧
    (∀ k : Nat, chooseBank s = some k → imageGood check (bankAt s 0 k) (s.cairn.counters.getD 0 0) = true →
      let b := bankAt s 0 k
      let s1 := { s with cairn := { s.cairn with bank := k }, cps := { s.cps with released := true } }
      exec (.measuredBoot check) s =
        .next (noteStatus s (extend 0 (Config.sha384 (b.bytes b.imageBytes)) (extend 0 b.headerHash s1)))) ∧
    (∀ k : Nat, chooseBank s = some k → imageGood check (bankAt s 0 k) (s.cairn.counters.getD 0 0) = false →
      exec (.measuredBoot check) s = .next (noteStatus s (rejectBank k 0 s)))) ∧
  (∀ (check : ImageCheck) (s : State), saddleUp s = true → s.saddle.forward.any id = true → s.saddle.ret.any id = true →
    s.cps.released = true → s.cairn.recovery = false → s.saddle.approved = false →
    let b := bankAt s 1 s.cairn.bank
    (imageGood check b (s.cairn.counters.getD 1 0) = true →
      let s1 := { commandVdd 900 s with
        saddle := { s.saddle with approved := true }
        mem := { s.mem with resetN := true }
        win := if s.mbx.ready then { s.win with fieldFw := BitVec.ofNat 32 b.fwVersion } else s.win }
      exec (.fieldImageApproval check) s =
        .next (noteStatus s (extend 1 (Config.sha384 (b.bytes b.imageBytes)) (extend 1 b.headerHash s1)))) ∧
    (imageGood check b (s.cairn.counters.getD 1 0) = false →
      exec (.fieldImageApproval check) s = .next (noteStatus s (rejectBank s.cairn.bank 1 s)))) ∧
  (∀ s : State, s.power.hostReset = false → s.mbx.ready = false → s.cairn.recovery = false →
    s.power.hostReleaseAt + 1000000000 * byteAt s.power.options 5 ≤ s.time.clock →
    (s.cps.released = true → exec .bootTimeout s = .next (noteStatus s (rejectBank s.cairn.bank 0 s))) ∧
    (∀ k : Nat, s.cps.released = false → chooseBank s = some k →
      exec .bootTimeout s = .next (noteStatus s (rejectBank k 0 s)))) ∧
  (∀ s : State, s.power.hostReset = false → s.cps.released = true → s.mbx.ready = false →
    let s1 := { s with
      mbx := { s.mbx with ready := true }
      power := { s.power with mbxReadyMs := (s.time.clock - s.power.hostReleaseAt) / 1000000 }
      win := { s.win with
        hostFw := if s.cairn.recovery then 0 else BitVec.ofNat 32 (bankAt s 0 s.cairn.bank).fwVersion
        fieldFw := if s.saddle.approved then BitVec.ofNat 32 (bankAt s 1 s.cairn.bank).fwVersion else 0 } }
    exec .mailboxReady s =
      .next (noteStatus s (reportThermalOff (bootRecord (advanceCounter 1 (advanceCounter 0 s1))))))

/-- Admitted: sys.failover_config writes the automatic return and sys.failover_query answers 32 bytes. A beat of a
running CP is kept with its fault and number; three missing on both paths, or a watchdog, declare the CP failed; the
standby held in reset starts its test, a passed test goes on to the snapshot, the snapshot to READY; at a quiet point
CP0 takes its role back. (R492, R503, R504, R505, R506, R510, R511, 18_failover_resilience) -/
def Obligations.FailoverComplete : Prop :=
  (∀ (m : Msg) (s : State), admitted opSysFailoverConfig m s = true →
    exec (.sysFailoverConfig m) s = .next (noteStatus s (answer 0x0151 m (newPlace s) stOk none [] none
      { s with cps := { s.cps with autoReturn := bit (byteAt m.payload 0) 0 } }))) ∧
  (∀ (m : Msg) (s : State), admitted opSysFailoverQuery m s = true →
    ∃ b : Bytes, b.length = 32 ∧ Completes (.sysFailoverQuery m) opSysFailoverQuery m s { state := s, payload := b }) ∧
  (∀ (cp : Fin 2) (wire : Bool) (seq : BitVec 4) (fault : Bool) (s : State), cpRuns s cp = true →
    ∃ t : State, exec (.heartbeat cp wire seq fault) s = .next t ∧
      (wire = true → t.cps.beatWire = setAt s.cps.beatWire cp (some s.time.clock) ∧
        t.cps.faultWire = setAt s.cps.faultWire cp fault ∧ t.cps.seqWire = setAt s.cps.seqWire cp seq) ∧
      (wire = false → t.cps.beatMbx = setAt s.cps.beatMbx cp (some s.time.clock) ∧
        t.cps.faultMbx = setAt s.cps.faultMbx cp fault ∧ t.cps.seqMbx = setAt s.cps.seqMbx cp seq) ∧
      t.cps.active = s.cps.active ∧ t.cps.standby = s.cps.standby ∧ t.objs = s.objs) ∧
  (∀ (cp : Fin 2) (s : State), cpRuns s cp = true → 3 ≤ missing s (s.cps.beatMbx.getD cp none) →
    3 ≤ missing s (s.cps.beatWire.getD cp none) →
    exec (.cpDeclaration cp) s = .next (noteStatus s (declareCp cp 1 7 s))) ∧
  (∀ (cp : Fin 2) (lockup : Bool) (s : State), cpRuns s cp = true → s.cps.halted.getD cp false = false →
    exec (.cpWatchdog cp lockup) s =
      .next (noteStatus s (declareCp cp (if lockup then 4 else 3) (if lockup then 13 else 7) s))) ∧
  (∀ s : State, s.power.hostReset = false → s.cps.released = true → s.cairn.recovery = false → s.cps.standby = .reset →
    exec .cpStandby s = .next (noteStatus s (standbyEvent (1 - s.cps.active) 0 .selftest s))) ∧
  (∀ s : State, s.cps.standby = .selftest →
    let s1 := { s with cps := { s.cps with tests := (s.cps.tests + 1) % 2 ^ 32 } }
    exec (.standbySelftestDone true) s = .next (noteStatus s (standbyEvent (1 - s.cps.active) 0 .syncing s1)) ∧
    exec (.standbySelftestDone false) s = .next (noteStatus s (standbyEvent (1 - s.cps.active) 2 .removed s))) ∧
  (∀ s : State, s.cps.standby = .syncing →
    exec .snapshotComplete s = .next (noteStatus s (standbyEvent (1 - s.cps.active) 0 .ready s))) ∧
  (∀ s : State, s.cps.active = 1 → s.cps.standby = .ready → s.cps.autoReturn = true → cpBusy s = false →
    ringHeld s 3 = 0 → exec .quietPointReturn s = .next (noteStatus s (switchTo 0 5 .ready s)))

/-- Admitted and with the conditions of R517, R527, R529, R531 and R532 met: audit.open and audit.close make and end a
session; audit.read, audit.ack and audit.quote do as R527 and R529 say; audit.key_enrol stores a key;
audit.debug_challenge gives a challenge, audit.debug_open opens a session signed over it, audit.debug_close closes it;
both expire; a request of the debugger inside what is open acts. (R399, R493, R517, R523, R527, R529, R530, R531,
R532, 19_security_and_audit) -/
def Obligations.AuditComplete : Prop :=
  (∀ (m : Msg) (s : State) (i : Nat) (t : ObjTable AuditSession), admitted opAuditOpen m s = true →
    s.objs.sessions.create { lanes := byteAt m.payload 0, sums := {}, firstLine := 0, lastLine := 0, repeats := 0 } =
      some (i, t) →
    Completes (.auditOpen m) opAuditOpen m s
      { state := { s with objs := { s.objs with sessions := t } }, handle := some (t.handle tyAudit i) }) ∧
  (∀ (m : Msg) (s : State) (q : AuditSession), admitted opAuditClose m s = true → auditOf s m.handle = some q →
    let flags := 2 * flag (q.sums.debug || s.cairn.dbg.isSome) + 4 * flag (q.sums.hostLost || s.saddle.hostLost)
    let s1 := writeRecord 2 m.handle flags 0 (runBody 0 0 0 q.firstLine q.lastLine q.repeats q.sums [] true s) s
    Completes (.auditClose m) opAuditClose m s
      { state := { s1 with objs := { s1.objs with sessions := s1.objs.sessions.release (hIdx m.handle) } }
        payload := le 8 (s.cairn.nextRec + s.cairn.due.length) }) ∧
  (∀ (m : Msg) (s : State), admitted opAuditRead m s = true →
    (u64 m.payload 0 = 2 ^ 64 - 1 →
      Completes (.auditRead m) opAuditRead m s { state := s, payload := Config.certificate }) ∧
    (∀ e : Nat × Bytes, u64 m.payload 0 ≠ 2 ^ 64 - 1 → u64 m.payload 0 < s.cairn.nextRec →
      (s.cairn.ring.find? fun e => e.1 == u64 m.payload 0) = some e →
      Completes (.auditRead m) opAuditRead m s { state := s, payload := e.2 })) ∧
  (∀ (m : Msg) (s : State), admitted opAuditAck m s = true →
    let n := min (u64 m.payload 0 + 1) s.cairn.nextRec
    Completes (.auditAck m) opAuditAck m s
      { state := enterDue 64 { s with cairn := { s.cairn with acked := max s.cairn.acked n } } }) ∧
  (∀ (m : Msg) (s : State), admitted opAuditQuote m s = true →
    let what := ((List.range 4).flatMap fun k => leB 48 (s.cairn.m.getD k 0)) ++
      le 8 (s.time.te / 1000000000) ++ le 4 (s.time.te % 1000000000)
    Completes (.auditQuote m) opAuditQuote m s
      { state := s, payload := what ++ leB 96 (Config.ecdsaSign (Config.sha384 (m.payload ++ what))) }) ∧
  (∀ (m : Msg) (s : State), admitted opAuditKeyEnrol m s = true →
    let b := m.payload
    (s.cairn.keys.all (·.isNone) = true ∨ ∃ k : HostKey, s.cairn.keys.getD (byteAt b 101) none = some k ∧
      Config.ecdsaVerify k.key (Config.sha384 (b.take 105)) (slice b 105 96) = true) →
    Completes (.auditKeyEnrol m) opAuditKeyEnrol m s { state := { s with cairn := { s.cairn with
      keys := setAt s.cairn.keys (byteAt b 0) (some ⟨slice b 4 97, byteAt b 1⟩) } } }) ∧
  (∀ (m : Msg) (s : State), admitted opAuditDebugChallenge m s = true →
    Completes (.auditDebugChallenge m) opAuditDebugChallenge m s
      { state := { s with
          fresh := s.fresh + 1, cairn := { s.cairn with challenge := some (Config.random s.fresh, s.time.clock) } }
        payload := leB 48 (Config.random s.fresh) }) ∧
  (∀ (m : Msg) (s : State) (c : BitVec 384) (t : Nat), admitted opAuditDebugOpen m s = true →
    let b := m.payload
    let h := Config.sha384 (leB 48 c ++ slice b 0 1 ++ slice b 2 2)
    s.cairn.challenge = some (c, t) → s.time.clock < t + 60000000000 →
    Config.ecdsaVerify (leB 97 (Config.debugKey (byteAt b 4))) h (slice b 8 96) = true →
    let d : DebugSession := ⟨byteAt b 0, u16 b 2, s.time.clock + 1000000000 * u16 b 2⟩
    let s1 := extend 3 h (closeDebug s)
    Completes (.auditDebugOpen m) opAuditDebugOpen m s
      { state := debugEvent true d (markDebug { s1 with cairn := { s1.cairn with challenge := none, dbg := some d } }) }) ∧
  (∀ (m : Msg) (s : State), admitted opAuditDebugClose m s = true →
    Completes (.auditDebugClose m) opAuditDebugClose m s { state := closeDebug s }) ∧
  (∀ (s : State) (d : DebugSession), s.cairn.dbg = some d → d.until_ ≤ s.time.clock →
    exec .debugSessionExpiry s = .next (closeDebug s)) ∧
  (∀ (s : State) (c : BitVec 384) (t : Nat), s.cairn.challenge = some (c, t) → t + 60000000000 ≤ s.time.clock →
    exec .debugChallengeExpiry s = .next { s with cairn := { s.cairn with challenge := none } }) ∧
  (∀ s : State,
    (debugLevel s = 2 → exec (.debugRequest .attach) s =
      .next { extend 3 (Config.random s.fresh) s with fresh := s.fresh + 1 }) ∧
    (∀ e : Fin 3, debugMay e s = true → (e = 2 → dbgCarried s = true) →
      exec (.debugRequest (.halt e)) s = .next { s with cps := { s.cps with halted := setAt s.cps.halted e true } } ∧
      exec (.debugRequest (.resume e)) s = .next { s with cps := { s.cps with halted := setAt s.cps.halted e false } }) ∧
    (∀ (write : Bool) (segment : Nat), debugMay 3 s = true → dbgCarried s = true →
      fsRuns s = true →
      exec (.debugRequest (.portAccess write segment)) s = .next (debugAccess write segment s)) ∧
    (∀ scope : Fin 4, debugMay 4 s = true →
      exec (.debugRequest (.resetScope scope)) s = .next (noteStatus s (resetScope 10 scope
        { s with cairn := { s.cairn with resetCalls := (scope.val, none) :: s.cairn.resetCalls } }))))

/-- Admitted: audit.fw_begin of a die not yet begun erases its target bank and answers ACCEPTED; audit.fw_data
programs the bytes it carries; audit.fw_seal of two images that verify seals field, then host, with the next seal
number, and of any that do not ends SIGNATURE; audit.fw_query answers 49 bytes. (R518, R519, R525, R526,
19_security_and_audit) -/
def Obligations.UpdateComplete : Prop :=
  (∀ (m : Msg) (s : State), admitted opAuditFwBegin m s = true →
    (s.cairn.update.any fun e => e.1 == byteAt m.payload 0) = false →
    let s1 := setBank s (byteAt m.payload 0) (targetBank s) fun _ => {}
    Completes (.auditFwBegin m) opAuditFwBegin m s
      { state := { s1 with cairn := { s1.cairn with
          update := s1.cairn.update ++ [(byteAt m.payload 0, u32 m.payload 4)], updateBank := some (targetBank s) } }
        status := stAccepted, final := some 0 }) ∧
  (∀ (m : Msg) (s : State), admitted opAuditFwData m s = true →
    (s.cairn.update.any fun e => e.1 == byteAt m.payload 0) = true →
    Completes (.auditFwData m) opAuditFwData m s
      { state := setBank s (byteAt m.payload 0) (targetBank s) fun k =>
          { k with image := (u32 m.payload 4, m.payload.drop 8) :: k.image } }) ∧
  (∀ (m : Msg) (s : State) (k : Nat), admitted opAuditFwSeal m s = true → s.cairn.updateBank = some k →
    let idle := { s with cairn := { s.cairn with update := [], updateBank := none } }
    (imageVerified s 0 = true → imageVerified s 1 = true →
      let s1 := setBank (setBank idle 1 k (sealImage (nextSeal s))) 0 k (sealImage (nextSeal s))
      Completes (.auditFwSeal m) opAuditFwSeal m s
        { state := hostEvent 0x0D03 0 (le 1 k ++ le 1 0 ++ le 1 0) (hostEvent 0x0D03 0 (le 1 k ++ le 1 1 ++ le 1 0) s1)
          status := stAccepted, final := some stOk }) ∧
    (imageVerified s 0 = false ∨ imageVerified s 1 = false →
      Completes (.auditFwSeal m) opAuditFwSeal m s
        { state := { idle with cairn := { idle.cairn with sealRejected := true } }
          status := stAccepted, final := some stSignature })) ∧
  (∀ (m : Msg) (s : State), admitted opAuditFwQuery m s = true →
    ∃ b : Bytes, b.length = 49 ∧ Completes (.auditFwQuery m) opAuditFwQuery m s { state := s, payload := b })

/-- While the host die is out of reset, each write of the window does exactly what its register says: MBX_CTRL, a
command ring's producer index, a consumer index, a base or status-block register, the W1C bits of MBX_STATUS, WIN_ERR,
RESET_SEEN and INT_STATUS, INT_MASK, and any whole aligned register by its offset, 8 bytes as two registers in rising
order, everything else discarded with PARTIAL. While it is in reset no write arrives. A holdoff that has ended sends
its vector's message where its bit is set. PERST_N stops the mailbox and resets the registers of BAR0, those of the
rings once it has drained. (R36, R38, R39, R40, R62, R487, R533, R534, R537, R539, 20_register_window_and_reset_state)
-/
def Obligations.WindowComplete : Prop :=
  (∀ (v w : BitVec 32) (n : Fin 4) (t : Bool) (reg : SetupReg) (o : BitVec 16) (size : Nat) (x : BitVec 64) (s : State),
    s.power.hostReset = false →
    exec (.mbxEnable v) s = .next (writeMbxCtrl v s) ∧ exec (.mbxDisable v) s = .next (writeMbxCtrl v s) ∧
    exec (.mbxEthEnable v) s = .next (writeMbxCtrl v s) ∧ exec (.doorbell n v) s = .next (writePi n v s) ∧
    exec (.consumerIndexWrite t v) s = .next (writeCi t v s) ∧
    exec (.ringSetupWrite reg v) s = .next (writeSetup reg v s) ∧
    exec (.mbxStatusClear v) s = .next { s with mbx := { s.mbx with
      setupErr := s.mbx.setupErr && !v.getLsbD 2, ringErr := s.mbx.ringErr && !v.getLsbD 3 } } ∧
    exec (.winErrClear v) s = .next { s with win := { s.win with
      partialErr := s.win.partialErr && !v.getLsbD 0, undefinedErr := s.win.undefinedErr && !v.getLsbD 1 } } ∧
    exec (.resetSeenClear v w) s = .next { s with win := { s.win with
      seen := (s.win.seen &&& ~~~(v &&& 0x1FFFE)) ||| (w &&& 0x1FFFE) } } ∧
    exec (.intStatusClear v w) s = .next (clearIntStatus v w s) ∧ exec (.intMaskWrite v) s = .next (writeIntMask v s) ∧
    exec (.registerWrite o size x) s = .next (
      if size = 4 ∧ o.toNat % 4 = 0 then writeWord o.toNat (x.setWidth 32) s
      else if size = 8 ∧ o.toNat % 4 = 0 then
        writeWord (o.toNat + 4) ((x >>> 32).setWidth 32) (writeWord o.toNat (x.setWidth 32) s)
      else discardWrite false o.toNat s)) ∧
  (∀ (v w : BitVec 32) (n : Fin 4) (t : Bool) (reg : SetupReg) (o : BitVec 16) (size : Nat) (x : BitVec 64) (s : State),
    s.power.hostReset = true →
    ∀ c ∈ [Instr.mbxEnable v, .mbxDisable v, .mbxEthEnable v, .doorbell n v, .consumerIndexWrite t v,
      .ringSetupWrite reg v, .mbxStatusClear v, .winErrClear v, .resetSeenClear v w, .intStatusClear v w,
      .intMaskWrite v, .registerWrite o size x], exec c s = .next s) ∧
  (∀ (k : Fin 2) (s : State), s.win.holdUntil.getD k 0 ≠ 0 → s.win.holdUntil.getD k 0 ≤ s.time.clock →
    let s1 := { s with win := { s.win with holdUntil := setAt s.win.holdUntil k 0 } }
    exec (.holdoffExpiry k) s =
      .next (if s.win.intStatus.getLsbD k ∧ vectorOpen s1 k then sendVector k s1 else s1)) ∧
  (∀ s : State,
    let s1 := writeMbxCtrl 0xC67C0000 (recordReset 16 5 s)
    let q := { s1.mbx with setupErr := false, ringErr := false, errRing := 0 }
    exec .perstN s = .next (noteStatus s { s1 with
      mbx := if q.running then { q with clearAtStop := true } else clearRings q
      win := { clearWindow s1.win with hostFw := s1.win.hostFw, fieldFw := s1.win.fieldFw } }))

/-- While the mailbox runs and a response can be reserved, the head of the chosen ring is fetched; a waiting message
that nothing holds starts; a fence that has waited another second is told of; an accepted message at its completion
point is done; the next event record goes to its instances; space in the Talus queue lets held records through; the FS
executes the message at the front of its queue. (R25, R41, R42, R49, R50, R53, R57, R59, R60, 02_mailbox_protocol) -/
def Obligations.FetchComplete : Prop :=
  (∀ (slots : List (List (List Byte))) (s : State) (r : Nat) (credits : List Nat), s.power.hostReset = false →
    s.mbx.running = true → s.mbx.draining = false → responseFree s = true → chooseRing s slots = some (r, credits) →
    exec (.commandFetch slots) s = .next (noteStatus s (fetchFrom (Fin.ofNat 4 r) credits slots s))) ∧
  (∀ (s : State) (e : InFlight), (s.mbx.inFlight.find? fun e => e.phase == .waiting && (heldBy s e).isEmpty) = some e →
    exec .fenceRelease s = .next (noteStatus s (tryStart e s))) ∧
  (∀ (s : State) (e : InFlight) (a : Ahead),
    (s.mbx.inFlight.find? fun e =>
      waitsAsFence e && e.since + 1000000000 * (e.warned + 1) ≤ s.time.clock && !(heldBy s e).isEmpty) = some e →
    oldest (heldBy s e) = some a →
    exec .fenceWait s = .next (hostEventTo (some e.msg.inst) 0x0103 a.handle (leB 4 a.seq ++ le 1 a.ring)
      { s with mbx := { s.mbx with
        inFlight := s.mbx.inFlight.map fun x => if x = e then { x with warned := x.warned + 1 } else x } })) ∧
  (∀ (s : State) (e : InFlight) (st : Nat), (s.mbx.inFlight.find? fun e => (finalStatus e).isSome) = some e →
    finalStatus e = some st →
    let s1 := doneEvent e.msg st s
    exec .messageCompletion s = .next (settleDrain { s1 with mbx := { s1.mbx with
      inFlight := s1.mbx.inFlight.filter (· != e) } })) ∧
  (∀ (s : State) (r : EventRec) (rest : List EventRec), s.mbx.ready = true → s.transit = r :: rest →
    let s1 : State := { s with transit := rest }
    let s2 := if goesTo r 0 then pcieRecord r s1 else s1
    exec .eventRecordWrite s = .next (settleDrain ((s.eth.sessions.filter fun q => goesTo r q.session.toNat).foldl
      (fun s q => sessionRecord q.session.toNat r s) s2))) ∧
  (∀ s : State, exec .talusLost s = .next (flushTalus 1026 s)) ∧
  (∀ (s : State) (op place : Nat) (m : Msg) (rest : List (Nat × Msg × Nat)) (d : OpDef), fsRuns s = true →
    s.saddle.fsQueue = (op, m, place) :: rest → opOf op = some d →
    exec .fmsCommandExecute s =
      .next (noteStatus s (runOp d m place { s with saddle := { s.saddle with fsQueue := rest } })))

/-- A datagram whose tag or counter is bad is counted and discarded. A good MESSAGE in turn is executed, with those
held behind it; an earlier one is answered from storage; an early one is held. EVENT_ACK advances the consumer index
and lets held records out, EVENT_RESEND sends again what is 50 ms old, CLOSE and 10 s of silence close the session, a
gap open for 50 ms drops what it holds. (R66, R67, R68, R69, 02_mailbox_protocol) -/
def Obligations.SessionComplete : Prop :=
  (∀ (id : BitVec 32) (c : Nat) (s : State) (q : Session), sessionAt s id.toNat = some q →
    ∀ ring : Fin 4, exec (.message id ring c none) s =
      .next (setSession id.toNat (fun q => { q with errors := q.errors + 1 }) s)) ∧
  (∀ (id : BitVec 32) (ring : Fin 4) (c : Nat) (b : List Byte) (s s1 : State) (q : Session),
    takeDatagram id c (some b) s = (s1, some b) → sessionAt s1 id.toNat = some q →
    let f := readFrame id.toNat ring b
    let n := f.msg.seq.toNat
    let next := q.nextSeq.getD ring 1
    (n = next → exec (.message id ring c (some b)) s =
      .next (noteStatus s (takeGap id.toNat ring 64 (takeSessionFrame id.toNat f s1)))) ∧
    (∀ e : Nat × Nat × Response, n < next → (q.stored.find? fun e => e.1 == ring.val && e.2.1 == n) = some e →
      next ≤ n + 1024 →
      exec (.message id ring c (some b)) s = .next (sendDatagram id.toNat 0x10 e.2.2.frame s1)) ∧
    (next < n → (q.gap.filter fun e => e.1 == ring.val).length < 64 →
      (q.gap.any fun e => e.1 == ring.val && e.2.1 == n) = false →
      exec (.message id ring c (some b)) s =
        .next (setSession id.toNat (fun q => { q with gap := q.gap ++ [(ring.val, n, b, s.time.clock)] }) s1))) ∧
  (∀ (id : BitVec 32) (ring : Fin 4) (s : State), exec (.seqGapTimeout id ring) s =
    .next (setSession id.toNat (fun q => { q with
      gap := q.gap.filter fun e => !(e.1 == ring.val && e.2.2.2 + 50000000 ≤ s.time.clock) }) s)) ∧
  (∀ (id : BitVec 32) (c : Nat) (b : List Byte) (s s1 : State) (q : Session),
    takeDatagram id c (some b) s = (s1, some b) → sessionAt s1 id.toNat = some q → b.length = 4 →
    let n := (u32 b 0 + 2 ^ 32 - q.talusCi) % 2 ^ 32
    (n ≤ q.unacked.length → exec (.eventAck id c (some b)) s = .next (flushSession id.toNat 1026
      (setSession id.toNat (fun q => { q with unacked := q.unacked.drop n, talusCi := u32 b 0 }) s1))) ∧
    exec (.close id c (some b)) s = .next (closeSession id.toNat 2 s1)) ∧
  (∀ (id : BitVec 32) (s : State) (q : Session), sessionAt s id.toNat = some q →
    let old := fun (e : TalusRec × Nat) => decide (e.2 + 50000000 ≤ s.time.clock)
    let s1 := q.unacked.zipIdx.foldl (fun s e => if old e.1 then
      sendDatagram id.toNat 0x11 (le 4 ((q.talusCi + e.2) % 2 ^ 32) ++ e.1.1.bytes) s else s) s
    exec (.eventResend id) s = .next (setSession id.toNat (fun q => { q with
      unacked := q.unacked.map fun e => if old e then (e.1, s.time.clock) else e }) s1) ∧
    (q.lastRx + 10000000000 ≤ s.time.clock →
      exec (.sessionIdleTimeout id) s = .next (closeSession id.toNat 3 s)))

/-- crc32c of the nine ASCII bytes 0x31 to 0x39 is 0xE3069283, the check value that R44 gives; of the empty list it is
0. (R44, 02_mailbox_protocol) -/
def Obligations.CrcCheckValue : Prop :=
  crc32c [0x31, 0x32, 0x33, 0x34, 0x35, 0x36, 0x37, 0x38, 0x39] = 0xE3069283 ∧ crc32c [] = 0

/-- For every opcode of 16 bits, version of 8 bits, message m with a payload of at most 4,072 bytes and whatever bytes
follow in the slot: reading the frame that R43 lays out for m gives that opcode, version and length, the message m
with every field of it, and a CRC that is right. (R43, R44, 02_mailbox_protocol) -/
def Obligations.FrameRoundTrip : Prop :=
  ∀ (op version : Nat) (m : Msg) (rest : Bytes), op < 2 ^ 16 → version < 2 ^ 8 → m.payload.length ≤ 4072 →
    readFrame m.inst m.ring (frameBytes op version m ++ rest) = ⟨op, version, m.payload.length, m, true⟩

/-- For every response whose opcode and status fit 16 bits and whose payload is at most 4,072 bytes: bytes 0 to 15 of
its frame hold opcode, version 1, ring, seq, handle, status and length where R45 puts them, its payload follows, and
the last 4 bytes are the CRC of all before. A Talus record is 32 bytes: code, sequence, source, time in nanoseconds
and seconds, web position and 8 bytes of args. (R44, R45, R58, 02_mailbox_protocol) -/
def Obligations.ResponseLayout : Prop :=
  (∀ r : Response, r.opcode < 2 ^ 16 → r.ring < 4 → r.status < 2 ^ 16 → r.payload.length ≤ 4072 →
    u16 r.frame 0 = r.opcode ∧ byteAt r.frame 2 = 1 ∧ byteAt r.frame 3 = r.ring ∧ w32 r.frame 4 = r.seq ∧
      w32 r.frame 8 = r.handle ∧ u16 r.frame 12 = r.status ∧ u16 r.frame 14 = r.payload.length ∧
      slice r.frame 16 r.payload.length = r.payload ∧ w32 r.frame (16 + r.payload.length) = crc32c r.body ∧
      r.body = r.frame.take (16 + r.payload.length) ∧ r.frame.length = 20 + r.payload.length) ∧
  (∀ t : TalusRec, t.bytes.length = 32 ∧ u16 t.bytes 0 = t.event.code % 65536 ∧ u16 t.bytes 2 = t.sequence % 65536 ∧
    w32 t.bytes 4 = t.event.source ∧ u32 t.bytes 8 = t.event.time % 1000000000 ∧
    u48 t.bytes 12 = t.event.time / 1000000000 % 2 ^ 48 ∧ u48 t.bytes 18 = t.event.web.getD 0xFFFFFFFFFFFF % 2 ^ 48 ∧
    slice t.bytes 24 8 = fit 8 t.event.args)

/-- For every answer to a message: the next state is the one before with the fields mbx, eth, win, transit, the FS's
command queue and the frames that the Ethernet ports have sent changed and no other (a session that runs out of
counters closes, and its commands leave that queue); of mbx nothing but RUNNING and its draining, the response ring
and its PI, the status block, what is written to host memory, the count of arrivals and the list of fetched messages,
and, where PERST_N has asked for it, the ring registers once the mailbox stops; of eth nothing but the sessions and
what they send; of win nothing but the interrupt bits, the PBA, the holdoff times and the messages sent. (R41, R45,
R49, R50, R51, 02_mailbox_protocol) -/
def Obligations.AnswerFrame : Prop :=
  ∀ (op status place : Nat) (m : Msg) (h : Option (BitVec 32)) (p : Bytes) (final : Option Nat) (s : State),
    let t := answer op m place status h p final s
    t = { s with
      mbx := t.mbx, eth := t.eth, win := t.win, transit := t.transit, ports := t.ports
      saddle := { s.saddle with fsQueue := t.saddle.fsQueue } } ∧
      (∀ k : Nat, ethAt t k = { ethAt s k with txFrames := (ethAt t k).txFrames, frames := (ethAt t k).frames }) ∧
      t.mbx = { s.mbx with
        running := t.mbx.running, draining := t.mbx.draining, responses := t.mbx.responses, pi := t.mbx.pi
        inFlight := t.mbx.inFlight, arrivals := t.mbx.arrivals, hostMem := t.mbx.hostMem, sbCmdCi := t.mbx.sbCmdCi
        sbRespPi := t.mbx.sbRespPi, sbEventPi := t.mbx.sbEventPi, sbActiveCp := t.mbx.sbActiveCp
        sbUpdates := t.mbx.sbUpdates, statusBlk := t.mbx.statusBlk, base := t.mbx.base, ci := t.mbx.ci
        talus := t.mbx.talus, clearAtStop := t.mbx.clearAtStop } ∧
      (s.mbx.clearAtStop = false → t.mbx.statusBlk = s.mbx.statusBlk ∧ t.mbx.base = s.mbx.base ∧
        t.mbx.ci = s.mbx.ci ∧ t.mbx.talus = s.mbx.talus ∧ t.mbx.clearAtStop = false) ∧
      t.eth = { s.eth with sessions := t.eth.sessions, out := t.eth.out } ∧
      t.win = { s.win with
        intStatus := t.win.intStatus, pba := t.win.pba, holdUntil := t.win.holdUntil, msixSent := t.win.msixSent }

/-- For every operation d of the opcode families, every message, state and place: if its checks or its own conditions
end in an error, the objects, the memory and the bars are as before; if it ends with a result whose status is none of
OK, ACCEPTED and LATE, no object is changed either; and the FS's queue turning it away, or its checks before that,
change no object. The same message, posted again unchanged in any later state t in which its cause is removed and
which takes it at once, is answered with its result. (R48) -/
def Obligations.ErrorsHaveNoEffect : Prop :=
  ∀ d ∈ opTable, ∀ (m : Msg) (place : Nat) (s : State),
    (∀ e : OpErr, opResult d m s = .error e →
      (runOp d m place s).objs = s.objs ∧ (runOp d m place s).mem = s.mem ∧ (runOp d m place s).bars = s.bars ∧
      (freshMessage d m s = true →
        (message d m s).objs = s.objs ∧ (message d m s).mem = s.mem ∧ (message d m s).bars = s.bars)) ∧
    (∀ r : OpOk, opResult d m s = .ok r → r.status ≠ stOk → r.status ≠ stAccepted → r.status ≠ stLate →
      (runOp d m place s).objs = s.objs) ∧
    (d.field = true → (startMessage d m place s).objs = s.objs) ∧
    (∀ t : State, freshMessage d m t = true → takes m t = true → direct d m t = true → ∀ r : OpOk,
      opResult d m t = .ok r →
      message d m t = answer d.code m (newPlace t) r.status r.handle r.payload r.final r.state)

/-- For every object table: a creation takes the slot that has been free the longest, gives it generation 0 on its
first use and else one more than before, 2,047 wrapping to 0, and touches no other slot; the handle then names the
object. Freeing the slot puts it last among the free ones, leaves its generation, and the handle names nothing; a new
object in the slot leaves the old handle naming nothing. (R72) -/
def Obligations.HandleLifetime : Prop :=
  ∀ (α : Type) (t t1 : ObjTable α) (a : α) (i ty : Nat), 0 < ty → ty ≤ 9 → i < 2 ^ 16 → t.create a = some (i, t1) →
    let h := t1.handle ty i
    t.free = i :: t1.free ∧
    (smFind t.gens i = none → t1.gen i = 0) ∧
    (∀ g : Nat, smFind t.gens i = some g → t1.gen i = if g = 2047 then 0 else (g + 1) % 2048) ∧
    (∀ j ≠ i, t1.at? j = t.at? j ∧ t1.gen j = t.gen j) ∧
    hType h = ty ∧ hIdx h = i ∧ t1.find ty h = some a ∧
    (t1.release i).free = t1.free ++ [i] ∧ (t1.release i).gen i = t1.gen i ∧ (t1.release i).find ty h = none ∧
    (∀ j ≠ i, (t1.release i).at? j = t1.at? j ∧ (t1.release i).gen j = t1.gen j) ∧
    (∀ (b : α) (t3 : ObjTable α), (t1.release i).create b = some (i, t3) → t3.find ty h = none)

/-- While the queue takes no record (it is full, or the rings do not run), a further record is held while fewer than
1,024 are, and else dropped and counted. When it takes records again with room for all, TALUS_LOST with the number
dropped as 64 bits comes first where any were, then the held records in their order, each numbered with the next value
of sequence; nothing is held or counted after. (R60) -/
def Obligations.TalusHolds : Prop :=
  (∀ (r : EventRec) (s : State), talusFree s = false →
    pcieRecord r s = if s.mbx.held.length < 1024 then { s with mbx := { s.mbx with held := s.mbx.held ++ [r] } }
      else { s with mbx := { s.mbx with dropped := s.mbx.dropped + 1 } }) ∧
  (∀ s : State, s.mbx.running = true → s.mbx.held.length ≤ 1024 → s.mbx.sequence < 65536 →
    s.mbx.talus.length + s.mbx.held.length + 1 ≤ 32768 →
    let t := flushTalus 1026 s
    let recs := (if s.mbx.dropped = 0 then [] else
      [(⟨0x0102, 0, s.time.te, none, le 8 s.mbx.dropped, none, false⟩ : EventRec)]) ++ s.mbx.held
    t.mbx.talus = s.mbx.talus ++ recs.zipIdx.map (fun e => ⟨(s.mbx.sequence + e.2) % 65536, e.1⟩) ∧
      t.mbx.held = [] ∧ t.mbx.dropped = 0 ∧ t.mbx.sequence = (s.mbx.sequence + recs.length) % 65536 ∧
      t.objs = s.objs ∧ t.mem = s.mem)

/-- For a waiting message e and an earlier fetched message a of the same instance, neither URGENT: e is held where e
or a carries FENCE, where one is a sync.fence that covers the ring of the other, and where both are on the same ring
and handle and are not both data blocks. FENCE_RELEASE with every waiting message held starts nothing and changes
nothing. (R52, R53, R54, R55, 02_mailbox_protocol) -/
def Obligations.FencesHold : Prop :=
  (∀ (s : State) (a e : InFlight), a ∈ s.mbx.inFlight → a.msg.inst = e.msg.inst → a.arrival < e.arrival →
    isUrgent a.msg = false → isUrgent e.msg = false →
    isFence e.msg = true ∨ isFence a.msg = true ∨
      (e.opcode = 0x0F01 ∧ (e.msg.ring = a.msg.ring ∨ bit (byteAt e.msg.payload 0) a.msg.ring.val = true)) ∨
      (a.opcode = 0x0F01 ∧ (a.msg.ring = e.msg.ring ∨ bit (byteAt a.msg.payload 0) e.msg.ring.val = true)) ∨
      (a.msg.ring = e.msg.ring ∧ a.msg.handle = e.msg.handle ∧ (isBlock a.opcode = false ∧ isBlock e.opcode = false)) →
    heldBy s e ≠ []) ∧
  (∀ s : State, (∀ e ∈ s.mbx.inFlight, e.phase = .waiting → heldBy s e ≠ []) → exec .fenceRelease s = .next s)

/-- Storing bytes b from packed-image offset o on: for every device address a that imageAddr gives for none of the
offsets o to o + b.length − 1, the byte at a is as before. Where the plate's extents differ, hold its lines, and no
segment is marked uncorrectable, reading the same offsets of a memory in its form gives b, and the form is kept. (R95,
R101, R103, R109, R113, 04_plates_and_image_store) -/
def Obligations.PlateStore : Prop :=
  (∀ (p : Plate) (m : Memory) (o : Nat) (b : Bytes) (a : Nat),
    (∀ k < b.length, imageAddr p (packedToImage p (o + k)) ≠ a) →
    cellRead (storePacked p b.length o b m).cells a = cellRead m.cells a) ∧
  (∀ (p : Plate) (m : Memory) (o : Nat) (b : Bytes), m.wf = true → m.poison = [] → m.bad = [] → p.extents.Nodup →
    0 < packedBytes p.format p.width → p.lines * strideOf p.format p.width ≤ p.extents.length * extentBytes →
    o + b.length ≤ p.lines * packedBytes p.format p.width →
    (storePacked p b.length o b m).wf = true ∧ readPacked p (storePacked p b.length o b m) o b.length = b)

/-- For every state and bar b: a permit that is high has the matrix locked, a row that names at least one input, and
every input that the row names healthy and not latched; a bar whose row names no input has a low permit; and FIRE_EN
is low without the permit. (R454) -/
def Obligations.PermitNeedsHealth : Prop :=
  ∀ (s : State) (b : Nat),
    (ilkPermit s b = true → s.ilk.locked = true ∧ (∃ i < 16, (s.ilk.rows.getD b 0).getLsbD i = true) ∧
      ∀ i < 16, (s.ilk.rows.getD b 0).getLsbD i = true → (ilkAt s i).healthy = true ∧ (ilkAt s i).latched = false) ∧
    ((∀ i < 16, (s.ilk.rows.getD b 0).getLsbD i = false) → ilkPermit s b = false) ∧
    (ilkPermit s b = false → fireEn s b = false)

/-- For every input and loop value outside its healthy range that has been stable for its filter time, and every state
with the 16 inputs: after INTERLOCK, the input is not healthy, it is latched where its configuration asks for it, and
FIRE_EN of every bar whose row names it is low; objects other than the runs and all memory are as before. (R452, R453,
R455, 15_barrier_saddle_and_interlocks) -/
def Obligations.TripLowersFireEn : Prop :=
  ∀ (i : Fin 16) (ohms held : Nat) (s : State), s.ilk.inputs.length = 16 → (ilkAt s i).type ≠ 0 →
    loopHealthy (ilkAt s i).type ohms = false → 100 * (ilkAt s i).filter ≤ held →
    ∃ t : State, exec (.interlock i ohms held) s = .next t ∧ (ilkAt t i).healthy = false ∧
      ((ilkAt s i).healthy = true → (ilkAt s i).latch = true → (ilkAt t i).latched = true) ∧
      (∀ b : Nat, (s.ilk.rows.getD b 0).getLsbD i = true → fireEn t b = false) ∧
      t.mem = s.mem ∧ t.objs = { s.objs with runs := t.objs.runs }

/-- For every arbiter, tick and list of requests: the request taken is of the list; its key, the deadline less OFFSET
less the present tick as a signed 32-bit number, is smallest; among equal keys its class is highest; among those it is
the lowest id above the id granted last, wrapping. There is a first one in every list that is not empty. An emergency
requester counts with no class in a tie (log 58). (R393, 13_deadline_arbitration) -/
def Obligations.ArbiterRanks : Prop :=
  ∀ (a : Arbiter) (t : BitVec 32) (l : List Waiting),
    (l ≠ [] → (firstRank a t l).isSome = true) ∧
    ∀ w : Waiting, firstRank a t l = some w → w ∈ l ∧
      arbKey a t w = (w.deadline - BitVec.ofNat 32 (prioOffset a w.req.requester.val) - t).toInt ∧
      ∀ v ∈ l, arbKey a t w ≤ arbKey a t v ∧
        (arbKey a t w = arbKey a t v → tieClass a v.req.requester.val ≤ tieClass a w.req.requester.val) ∧
        (arbKey a t w = arbKey a t v → tieClass a v.req.requester.val = tieClass a w.req.requester.val →
          (w.req.requester.val + 31 - a.lastId) % 32 ≤ (v.req.requester.val + 31 - a.lastId) % 32)

/-- After a reset of the field die, no object of types 1 to 7 and 9 is left, the generation of each slot that was in
use is one more, 2,047 wrapping to 0, and every other generation as before; the audit sessions keep their slots and
generations. (R75, 03_objects_and_handles) -/
def Obligations.FieldResetFrees : Prop :=
  (∀ (whole : Bool) (s : State),
    let o := (resetField whole s).objs
    o.plates = s.objs.plates.reset ∧ o.channels = s.objs.channels.reset ∧ o.runs = s.objs.runs.reset ∧
      o.streams = s.objs.streams.reset ∧ o.triggers = s.objs.triggers.reset ∧ o.camsets = s.objs.camsets.reset ∧
      o.calsets = s.objs.calsets.reset ∧ o.timers = s.objs.timers.reset ∧
      o.sessions.gens = s.objs.sessions.gens ∧ o.sessions.live.map (·.1) = s.objs.sessions.live.map (·.1)) ∧
  (∀ (α : Type) (t : ObjTable α), (t.live.map (·.1)).Nodup →
    t.reset.live = [] ∧ t.reset.free = t.free ++ t.live.map (·.1) ∧
    (∀ i : Nat, (t.at? i).isSome = true → t.reset.gen i = (t.gen i + 1) % 2048) ∧
    (∀ i : Nat, t.at? i = none → t.reset.gen i = t.gen i))

/-- After every reset that reaches the host die, whatever the state: SCRATCH, both version registers, WIN_ERR, the
status block address, INT_STATUS, INT_HOLDOFF and the MSI-X PBA read 0, MBX_CTRL 0xC67C0000, MBX_STATUS 0, INT_MASK
0xF, DEVICE_STATUS bits 0, 1 and 3 are 0, FAILOVER_STATUS 0x80; RESET_CAUSE, RESET_SEEN, HOST_RESETS, FIELD_RESETS,
SWITCHOVERS and LAST_GAP_NS are kept. A clear of RESET_SEEN changes nothing but RESET_SEEN, so neither the causes mask
nor RESET_REPORT; where a clear and a new reset of the same code coincide, the bit stays set (R537). (R537) -/
def Obligations.WindowResets : Prop :=
  (∀ (whole : Bool) (s : State),
    let t := resetHost whole s
    (∀ o ∈ [0x8, 0xC, 0x10, 0x14, 0x1004, 0x1008, 0x100C, 0x1200, 0x1208, 0xF800], readWord o t = 0) ∧
      readWord 0x1000 t = 0xC67C0000 ∧ readWord 0x1204 t = 0xF ∧ readWord 0x3000 t = 0x80 ∧
      readWord 0x4 t % 4 = 0 ∧ readWord 0x4 t / 8 % 2 = 0 ∧
      (∀ o ∈ [0x100, 0x104, 0x108, 0x10C, 0x3004, 0x3008], readWord o t = readWord o s)) ∧
  (∀ (v newer : BitVec 32) (s : State), s.power.hostReset = false → ∃ t : State,
    exec (.resetSeenClear v newer) s = .next t ∧ t = { s with win := { s.win with seen := t.win.seen } } ∧
      ∀ k : Nat, 1 ≤ k → k ≤ 16 →
        t.win.seen.getLsbD k = (s.win.seen.getLsbD k && !v.getLsbD k || newer.getLsbD k))

/-- State.reset lists no byte of memory, holds no record, response or message, waits for no command, and commands
VDD_F at 900 mV: it is Safe. The value 900 mV is that of R17's upper end, held with AVS off (log 21). (R17, R32, R41,
R48, R60) -/
def Obligations.ResetIsSafe : Prop :=
  Safe State.reset ∧ State.reset.mem.cells = [] ∧ State.reset.pending = [] ∧ State.reset.fabric.vddMv = 900

/-- For every state s that is Safe and every state t that step answers: t is Safe. So whatever commands come in
whatever order, the image memory keeps its canonical form, the response ring never holds more than 256 responses, the
Talus ring 32,768 records and the CP 1,024 more, the FS's queue 64 messages, the field die 4,096 records while the
host side is lost, and VDD_F is never commanded outside 0.70 to 0.90 V. (R17, R32, R41, R48, R60, R101) -/
def Obligations.StepKeepsSafe : Prop :=
  ∀ s t : State, Safe s → step s = .next t → Safe t
end

