-- ==== Sys2Proof/Laws/Bytes.lean ====
section
/-! SUPPORT. What byte strings, sparse tables and object tables do: a little-endian number written reads back as itself, a
table entry written reads back and leaves every other, and what creating and freeing an object changes. -/

namespace Sys2Proof.Laws

open Sys2Proof.Machine

/-! ### Little-endian numbers -/

@[simp] theorem le_length (n v : Nat) : (le n v).length = n := by
  induction n generalizing v with
  | zero => rfl
  | succ n ih => simp [le, ih]

@[simp] theorem leB_length (n : Nat) {w : Nat} (v : BitVec w) : (leB n v).length = n := le_length _ _

@[simp] theorem leS_length (n : Nat) (z : Int) : (leS n z).length = n := le_length _ _

@[simp] theorem zeros_length (n : Nat) : (zeros n).length = n := List.length_replicate

@[simp] theorem slice_length (b : Bytes) (i n : Nat) : (slice b i n).length = n := by
  simp only [slice, zeros, List.length_append, List.length_take, List.length_drop, List.length_replicate]; omega

@[simp] theorem fit_length (n : Nat) (b : Bytes) : (fit n b).length = n := slice_length b 0 n

/-- Bytes before an offset do not matter to what is read from it on. -/
theorem byteAt_append_right (a b : Bytes) (i : Nat) : byteAt (a ++ b) (a.length + i) = byteAt b i := by
  simp [byteAt, List.getElem?_append_right]

theorem byteAt_append_left (a b : Bytes) (i : Nat) (h : i < a.length) : byteAt (a ++ b) i = byteAt a i := by
  simp [byteAt, List.getElem?_append_left h]

theorem leAt_append_right (a b : Bytes) (n : Nat) (i : Nat) : leAt (a ++ b) (a.length + i) n = leAt b i n := by
  induction n generalizing i with
  | zero => rfl
  | succ n ih => simp only [leAt, byteAt_append_right, Nat.add_assoc, ih]

theorem leAt_append_left (a b : Bytes) (n i : Nat) (h : i + n ≤ a.length) : leAt (a ++ b) i n = leAt a i n := by
  induction n generalizing i with
  | zero => rfl
  | succ n ih => simp only [leAt]; rw [byteAt_append_left a b i (by omega), ih (i + 1) (by omega)]

/-- A number written little-endian reads back as itself, as far as its bytes hold it (R6). -/
theorem leAt_le (n v : Nat) (b : Bytes) : leAt (le n v ++ b) 0 n = v % 256 ^ n := by
  induction n generalizing v with
  | zero => simp [leAt, Nat.mod_one]
  | succ n ih =>
    have h0 : byteAt (le (n + 1) v ++ b) 0 = v % 256 := by simp [byteAt, le]
    have h1 : leAt (le (n + 1) v ++ b) 1 n = leAt (le n (v / 256) ++ b) 0 n := by
      have := leAt_append_right [BitVec.ofNat 8 v] (le n (v / 256) ++ b) n 0
      simpa [le] using this
    rw [leAt, h0, Nat.zero_add, h1, ih, Nat.pow_succ, Nat.mul_comm (256 ^ n), Nat.mod_mul]

/-- A number written at an offset. -/
theorem leAt_field (a b : Bytes) (i n v : Nat) (h : a.length = i) : leAt (a ++ (le n v ++ b)) i n = v % 256 ^ n := by
  subst h
  have := leAt_append_right a (le n v ++ b) n 0
  rw [Nat.add_zero] at this
  rw [this, leAt_le]

theorem leAt_lt (b : Bytes) (i n : Nat) : leAt b i n < 256 ^ n := by
  induction n generalizing i with
  | zero => simp [leAt]
  | succ n ih =>
    have h1 : byteAt b i < 256 := (b.getD i 0).isLt
    have h2 := ih (i + 1)
    rw [leAt, Nat.pow_succ]; omega

/-! ### Sparse tables -/

theorem smFind_smSet {α : Type} (t : SMap α) (i j : Nat) (a : α) :
    smFind (smSet t i a) j = if j = i then some a else smFind t j := by
  induction t with
  | nil => simp only [smSet, smFind, eq_comm]
  | cons e r ih =>
    obtain ⟨k, v⟩ := e
    simp only [smSet]
    by_cases h1 : k = i
    · rw [if_pos h1]; simp only [smFind]; grind
    · rw [if_neg h1]
      by_cases h2 : i < k
      · rw [if_pos h2]; simp only [smFind]; grind
      · rw [if_neg h2]; simp only [smFind, ih]; grind

theorem smFind_smDel {α : Type} (t : SMap α) (i j : Nat) : smFind (smDel t i) j = if j = i then none else smFind t j := by
  induction t with
  | nil => simp [smDel, smFind]
  | cons e r ih =>
    obtain ⟨k, v⟩ := e
    simp only [smDel, List.filter_cons, smFind] at *
    repeat' split
    all_goals simp_all [smFind]

theorem smGet_eq_smFind {α : Type} (t : SMap α) (d : α) (i : Nat) : smGet t d i = (smFind t i).getD d := by
  induction t with
  | nil => rfl
  | cons e r ih => obtain ⟨k, v⟩ := e; simp only [smGet, smFind]; split <;> simp [*]

/-! ### Object tables -/

/-- What a creation does (R72): the slot free the longest, its generation, nothing else. -/
theorem create_some {α : Type} {t t1 : ObjTable α} {a : α} {i : Nat} (h : t.create a = some (i, t1)) :
    ∃ g, t1 = ⟨smSet t.live i a, smSet t.gens i g, t.free.tail⟩ ∧ t.free = i :: t.free.tail ∧ g < 2048 ∧
      (smFind t.gens i = none → g = 0) ∧ (∀ g0, smFind t.gens i = some g0 → g = (g0 + 1) % 2048) := by
  unfold ObjTable.create at h
  split at h
  · cases h
  · rename_i j rest hf
    cases hs : smFind t.gens j <;> rw [hs] at h <;> simp only [Option.some.injEq, Prod.mk.injEq] at h <;>
      obtain ⟨rfl, rfl⟩ := h
    · exact ⟨0, by rw [hf]; rfl, by rw [hf]; rfl, by decide, by simp [hs], by simp [hs]⟩
    · exact ⟨_, by rw [hf]; rfl, by rw [hf]; rfl, Nat.mod_lt _ (by decide), by simp [hs], by simp [hs]⟩

/-- The fields of a handle made of them (R71). -/
theorem mkHandle_fields (ty g i : Nat) (ht : ty < 32) (hg : g < 2048) (hi : i < 65536) :
    hType (mkHandle ty g i) = ty ∧ hGen (mkHandle ty g i) = g ∧ hIdx (mkHandle ty g i) = i := by
  simp only [hType, hGen, hIdx, mkHandle, BitVec.toNat_ofNat]
  omega

end Sys2Proof.Laws
end

