-- ==== Sys2Proof/Laws/Memory.lean ====
section
/-! SUPPORT. The image memory: what one byte written changes, and that every operation keeps the canonical form (log 12). -/

namespace Sys2Proof.Laws

open Sys2Proof.Machine

/-- The form from a bound on is the form from any lower bound on. -/
theorem cellsOk_weaken {b c : Nat} {l : List Host.Cell} (h : cellsOk (some b) l = true) (hc : c ≤ b) :
    cellsOk (some c) l = true := by
  cases l with
  | nil => rfl
  | cons e r => simp only [cellsOk, Bool.and_eq_true, decide_eq_true_eq] at *; exact ⟨⟨by omega, h.1.2⟩, h.2⟩

theorem cellsOk_none {b : Nat} {l : List Host.Cell} (h : cellsOk (some b) l = true) : cellsOk none l = true := by
  cases l with
  | nil => rfl
  | cons e r => simp only [cellsOk, Bool.and_eq_true, Bool.true_and] at *; exact ⟨h.1.2, h.2⟩

/-- A byte at or below the bound is not listed. -/
theorem cellRead_below {b a : Nat} {l : List Host.Cell} (h : cellsOk (some b) l = true) (ha : a ≤ b) : cellRead l a = 0 := by
  induction l generalizing b with
  | nil => rfl
  | cons e r ih =>
    obtain ⟨k, v⟩ := e
    simp only [cellsOk, Bool.and_eq_true, decide_eq_true_eq] at h
    have hk : ¬k = a := by omega
    simp only [cellRead, hk, if_false]
    exact ih h.2 (by omega)

theorem cellsOk_cellWrite_from {b a : Nat} {v : Byte} {l : List Host.Cell} (h : cellsOk (some b) l = true) (ha : b < a) :
    cellsOk (some b) (cellWrite l a v) = true := by
  induction l generalizing b with
  | nil =>
    simp only [cellWrite]
    by_cases hv : v = 0
    · rw [if_pos hv]; rfl
    · rw [if_neg hv]; simp only [cellsOk, Bool.and_eq_true, decide_eq_true_eq, bne_iff_ne]; exact ⟨⟨ha, hv⟩, trivial⟩
  | cons e r ih =>
    obtain ⟨k, w⟩ := e
    have hh := h
    simp only [cellsOk, Bool.and_eq_true, decide_eq_true_eq] at h
    simp only [cellWrite]
    by_cases hk : k = a
    · rw [if_pos hk]
      by_cases hv : v = 0
      · rw [if_pos hv]; exact cellsOk_weaken h.2 (by omega)
      · rw [if_neg hv]; simp only [cellsOk, Bool.and_eq_true, decide_eq_true_eq, bne_iff_ne]; exact ⟨⟨ha, hv⟩, hk ▸ h.2⟩
    · rw [if_neg hk]
      by_cases hl : a < k
      · rw [if_pos hl]
        by_cases hv : v = 0
        · rw [if_pos hv]; exact hh
        · rw [if_neg hv]
          simp only [cellsOk, Bool.and_eq_true, decide_eq_true_eq, bne_iff_ne]
          exact ⟨⟨ha, hv⟩, ⟨hl, bne_iff_ne.1 h.1.2⟩, h.2⟩
      · rw [if_neg hl]
        simp only [cellsOk, Bool.and_eq_true, decide_eq_true_eq]
        exact ⟨h.1, ih h.2 (by omega)⟩

/-- One byte written keeps the form. -/
theorem cellsOk_cellWrite {a : Nat} {v : Byte} {l : List Host.Cell} (h : cellsOk none l = true) :
    cellsOk none (cellWrite l a v) = true := by
  cases l with
  | nil =>
    simp only [cellWrite]
    by_cases hv : v = 0
    · rw [if_pos hv]; rfl
    · rw [if_neg hv]; simp only [cellsOk, Bool.and_eq_true, bne_iff_ne]; exact ⟨⟨trivial, hv⟩, trivial⟩
  | cons e r =>
    obtain ⟨k, w⟩ := e
    have hh := h
    simp only [cellsOk, Bool.and_eq_true, Bool.true_and] at h
    simp only [cellWrite]
    by_cases hk : k = a
    · rw [if_pos hk]
      by_cases hv : v = 0
      · rw [if_pos hv]; exact cellsOk_none h.2
      · rw [if_neg hv]; simp only [cellsOk, Bool.and_eq_true, bne_iff_ne, Bool.true_and]; exact ⟨hv, hk ▸ h.2⟩
    · rw [if_neg hk]
      by_cases hl : a < k
      · rw [if_pos hl]
        by_cases hv : v = 0
        · rw [if_pos hv]; exact hh
        · rw [if_neg hv]
          simp only [cellsOk, Bool.and_eq_true, decide_eq_true_eq, bne_iff_ne, Bool.true_and]
          exact ⟨hv, ⟨hl, bne_iff_ne.1 h.1⟩, h.2⟩
      · rw [if_neg hl]
        simp only [cellsOk, Bool.and_eq_true, Bool.true_and]
        exact ⟨h.1, cellsOk_cellWrite_from h.2 (by omega)⟩

theorem cellRead_cellWrite_from {b : Nat} (l : List Host.Cell) (a c : Nat) (v : Byte) (h : cellsOk (some b) l = true) :
    cellRead (cellWrite l a v) c = if c = a then v else cellRead l c := by
  induction l generalizing b with
  | nil =>
    simp only [cellWrite]
    by_cases hv : v = 0
    · rw [if_pos hv, hv]; simp [cellRead]
    · rw [if_neg hv]; simp only [cellRead]; by_cases hc : c = a
      · rw [if_pos hc, if_pos hc.symm]
      · rw [if_neg hc, if_neg fun e => hc e.symm]
  | cons e r ih =>
    obtain ⟨k, w⟩ := e
    simp only [cellsOk, Bool.and_eq_true, decide_eq_true_eq] at h
    simp only [cellWrite]
    by_cases hk : k = a
    · subst hk
      rw [if_pos rfl]
      by_cases hc : c = k
      · subst hc
        by_cases hv : v = 0
        · rw [if_pos hv, if_pos rfl, hv]; exact cellRead_below h.2 (Nat.le_refl _)
        · rw [if_neg hv, if_pos rfl]; simp [cellRead]
      · have hc2 : ¬k = c := fun e => hc e.symm
        by_cases hv : v = 0
        · rw [if_pos hv, if_neg hc]; simp [cellRead, hc2]
        · rw [if_neg hv, if_neg hc]; simp [cellRead, hc2]
    · rw [if_neg hk]
      by_cases hl : a < k
      · rw [if_pos hl]
        by_cases hv : v = 0
        · rw [if_pos hv]
          by_cases hc : c = a
          · rw [if_pos hc, hc, hv]
            simp only [cellRead, hk, if_false]
            exact cellRead_below h.2 (by omega)
          · rw [if_neg hc]
        · rw [if_neg hv]; by_cases hc : c = a
          · subst hc; simp [cellRead]
          · have hc2 : ¬a = c := fun e => hc e.symm
            simp [cellRead, hc, hc2]
      · rw [if_neg hl]
        simp only [cellRead, ih h.2]
        by_cases hc : c = a
        · subst hc; simp [hk]
        · simp [hc]

/-- A byte written reads back, and every other byte as before. -/
theorem cellRead_cellWrite (l : List Host.Cell) (a c : Nat) (v : Byte) (h : cellsOk none l = true) :
    cellRead (cellWrite l a v) c = if c = a then v else cellRead l c := by
  cases l with
  | nil =>
    simp only [cellWrite]
    by_cases hv : v = 0
    · rw [if_pos hv, hv]; simp [cellRead]
    · rw [if_neg hv]; simp only [cellRead]; by_cases hc : c = a
      · rw [if_pos hc, if_pos hc.symm]
      · rw [if_neg hc, if_neg fun e => hc e.symm]
  | cons e r =>
    obtain ⟨k, w⟩ := e
    by_cases hk : k = 0
    · subst hk
      simp only [cellsOk, Bool.and_eq_true, Bool.true_and] at h
      simp only [cellWrite]
      by_cases ha : 0 = a
      · subst ha
        rw [if_pos rfl]
        by_cases hc : c = 0
        · subst hc
          by_cases hv : v = 0
          · rw [if_pos hv, if_pos rfl, hv]; exact cellRead_below h.2 (Nat.le_refl _)
          · rw [if_neg hv, if_pos rfl]; simp [cellRead]
        · have hc2 : ¬0 = c := fun e => hc e.symm
          by_cases hv : v = 0
          · rw [if_pos hv, if_neg hc]; simp [cellRead, hc2]
          · rw [if_neg hv, if_neg hc]; simp [cellRead, hc2]
      · rw [if_neg ha, if_neg (Nat.not_lt_zero a)]
        simp only [cellRead, cellRead_cellWrite_from r a c v h.2]
        by_cases hc : c = a
        · subst hc; simp [ha]
        · simp [hc]
    · refine cellRead_cellWrite_from (b := k - 1) _ a c v ?_
      simp only [cellsOk, Bool.and_eq_true, Bool.true_and, decide_eq_true_eq] at *
      exact ⟨⟨by omega, h.1⟩, h.2⟩

/-- Bytes written keep the form. -/
theorem cellsOk_cellsWrite {b : Bytes} {l : List Host.Cell} {a : Nat} (h : cellsOk none l = true) :
    cellsOk none (cellsWrite l a b) = true := by
  induction b generalizing l a with
  | nil => exact h
  | cons x r ih => exact ih (cellsOk_cellWrite h)

/-- Bytes written read back, and every other byte as before. -/
theorem cellRead_cellsWrite (b : Bytes) (l : List Host.Cell) (a c : Nat) (h : cellsOk none l = true) :
    cellRead (cellsWrite l a b) c = if a ≤ c ∧ c < a + b.length then b.getD (c - a) 0 else cellRead l c := by
  induction b generalizing l a with
  | nil =>
    have : ¬(a ≤ c ∧ c < a + ([] : Bytes).length) := by simp only [List.length_nil]; omega
    rw [if_neg this]; rfl
  | cons x r ih =>
    rw [cellsWrite, ih _ _ (cellsOk_cellWrite h), cellRead_cellWrite l a c x h]
    simp only [List.length_cons]
    by_cases h1 : a + 1 ≤ c ∧ c < a + 1 + r.length
    · have h2 : a ≤ c ∧ c < a + (r.length + 1) := by omega
      rw [if_pos h1, if_pos h2]
      have : c - a = c - (a + 1) + 1 := by omega
      rw [this, List.getD_cons_succ]
    · rw [if_neg h1]
      by_cases h3 : c = a
      · subst h3; rw [if_pos rfl, if_pos (by omega)]; simp
      · rw [if_neg h3, if_neg (by omega)]

/-- A store keeps the form of the image memory. -/
theorem memStore_wf {m : Memory} {a : Nat} {b : Bytes} (h : m.wf = true) : (memStore m a b).wf = true := by
  unfold memStore
  split
  · exact h
  · exact cellsOk_cellsWrite h

/-- The image memory after reset has the form. -/
theorem reset_mem_wf : State.reset.mem.wf = true := rfl

end Sys2Proof.Laws
end

