-- ==== Sys2Proof/Laws/Messages.lean ====
section
/-! SUPPORT. What the run of a message operation can do, said once: a good answer, an error that changes nothing but the
answer, or a message that is not taken. -/

namespace Sys2Proof.Laws

open Sys2Proof.Machine

/-- What an admitted message is: new, taken, run directly, with all the checks passed. -/
theorem admitted_iff {d : OpDef} {m : Msg} {s : State} : admitted d m s = true ↔
    freshMessage d m s = true ∧ takes m s = true ∧ direct d m s = true ∧ (opChecks d m s).isOk = true := by
  simp [admitted, and_assoc]

theorem takes_hostReset {m : Msg} {s : State} (h : takes m s = true) : s.power.hostReset = false := by
  simp only [takes, Bool.and_eq_true, Bool.not_eq_true'] at h
  exact h.1

theorem admitted_opChecks {d : OpDef} {m : Msg} {s : State} (h : admitted d m s = true) :
    opChecks d m s = .ok () := by
  have h4 := (admitted_iff.mp h).2.2.2
  cases hc : opChecks d m s with
  | error e => rw [hc] at h4; exact absurd h4 (by simp [Except.isOk, Except.toBool])
  | ok u => rfl

theorem opResult_of_admitted {d : OpDef} {m : Msg} {s : State} (h : admitted d m s = true) :
    opResult d m s = d.body m s := by
  simp [opResult, admitted_opChecks h, bind, Except.bind]

/-- A new message that nothing holds is run in the command that brings it. -/
theorem message_direct {d : OpDef} {m : Msg} {s : State} (h0 : freshMessage d m s = true) (h1 : takes m s = true)
    (h2 : direct d m s = true) : message d m s = runOp d m (newPlace s) s := by
  have hf : (s.mbx.inFlight.find? fun e =>
      e.opcode == d.code && e.msg == m && (e.phase == .waiting || e.phase == .forwarded)) = none := by
    rw [List.find?_eq_none]
    intro e he hc
    simp only [freshMessage, Bool.not_eq_true', List.any_eq_false] at h0
    exact h0 e he hc
  simp [message, takes_hostReset h1, hf, h1, takeNew, h2]

/-- A message that is admitted and whose operation succeeds is answered with its result. -/
theorem message_ok {d : OpDef} {m : Msg} {s : State} {r : OpOk} (h : admitted d m s = true) (hb : d.body m s = .ok r) :
    message d m s = answer d.code m (newPlace s) r.status r.handle r.payload r.final r.state := by
  obtain ⟨h0, h1, h2, -⟩ := admitted_iff.mp h
  simp [message_direct h0 h1 h2, runOp, opResult_of_admitted h, hb]

/-- A message whose operation fails is answered with the error, and its operation leaves the state as it was (R48). -/
theorem message_error {d : OpDef} {m : Msg} {s : State} {e : OpErr} (h0 : freshMessage d m s = true)
    (h1 : takes m s = true) (h2 : direct d m s = true) (he : opResult d m s = .error e) :
    message d m s = answer d.code m (newPlace s) e.status none e.payload none s := by
  simp [message_direct h0 h1 h2, runOp, he]

/-- A new message that is not taken changes nothing (R41). -/
theorem message_waits {d : OpDef} {m : Msg} {s : State} (h0 : freshMessage d m s = true) (h : takes m s = false) :
    message d m s = s := by
  have hf : (s.mbx.inFlight.find? fun e =>
      e.opcode == d.code && e.msg == m && (e.phase == .waiting || e.phase == .forwarded)) = none := by
    rw [List.find?_eq_none]
    intro e he hc
    simp only [freshMessage, Bool.not_eq_true', List.any_eq_false] at h0
    exact h0 e he hc
  cases hr : s.power.hostReset <;> simp [message, hr, hf, h]

end Sys2Proof.Laws
end

