-- ==== Sys2Proof/Laws/State.lean ====
section
/-! SUPPORT. What the shared updates of State write and what they leave, said once for each, so that no later proof unfolds
a record update. A lemma `<update>_frame` lists the fields that the update leaves; `<update>_<field>` says what it writes. -/

namespace Sys2Proof.Laws

open Sys2Proof.Machine

@[simp] theorem commandVdd_frame (s : State) (mv : Nat) :
    (commandVdd mv s).ident = s.ident ∧ (commandVdd mv s).mbx = s.mbx ∧ (commandVdd mv s).eth = s.eth ∧
    (commandVdd mv s).win = s.win ∧ (commandVdd mv s).objs = s.objs ∧ (commandVdd mv s).store = s.store ∧
    (commandVdd mv s).mem = s.mem ∧ (commandVdd mv s).bars = s.bars ∧ (commandVdd mv s).bench = s.bench ∧
    (commandVdd mv s).pos = s.pos ∧ (commandVdd mv s).sett = s.sett ∧ (commandVdd mv s).vision = s.vision ∧
    (commandVdd mv s).vd = s.vd ∧ (commandVdd mv s).ports = s.ports ∧ (commandVdd mv s).ptp = s.ptp ∧
    (commandVdd mv s).time = s.time ∧ (commandVdd mv s).saddle = s.saddle ∧ (commandVdd mv s).ilk = s.ilk ∧
    (commandVdd mv s).thermal = s.thermal ∧ (commandVdd mv s).cps = s.cps ∧ (commandVdd mv s).cairn = s.cairn ∧
    (commandVdd mv s).transit = s.transit ∧ (commandVdd mv s).fresh = s.fresh ∧ (commandVdd mv s).pending = s.pending := by
  exact ⟨rfl, rfl, rfl, rfl, rfl, rfl, rfl, rfl, rfl, rfl, rfl, rfl, rfl, rfl, rfl, rfl, rfl, rfl, rfl, rfl,
     rfl, rfl, rfl, rfl⟩

@[simp] theorem commandVdd_fabric (s : State) (mv : Nat) :
    (commandVdd mv s).fabric = { s.fabric with vddMv := mv, vddDriven := true } := rfl

@[simp] theorem commandVdd_power (s : State) (mv : Nat) :
    (commandVdd mv s).power = { s.power with supply := setAt s.power.supply 7 mv } := rfl

@[simp] theorem domainOff_frame (s : State) (n : Nat) :
    (domainOff n s).ident = s.ident ∧ (domainOff n s).mbx = s.mbx ∧ (domainOff n s).eth = s.eth ∧
    (domainOff n s).win = s.win ∧ (domainOff n s).objs = s.objs ∧ (domainOff n s).store = s.store ∧
    (domainOff n s).mem = s.mem ∧ (domainOff n s).bars = s.bars ∧ (domainOff n s).bench = s.bench ∧
    (domainOff n s).pos = s.pos ∧ (domainOff n s).sett = s.sett ∧ (domainOff n s).vision = s.vision ∧
    (domainOff n s).vd = s.vd ∧ (domainOff n s).fabric = s.fabric ∧ (domainOff n s).ports = s.ports ∧
    (domainOff n s).ptp = s.ptp ∧ (domainOff n s).time = s.time ∧ (domainOff n s).saddle = s.saddle ∧
    (domainOff n s).ilk = s.ilk ∧ (domainOff n s).thermal = s.thermal ∧ (domainOff n s).cps = s.cps ∧
    (domainOff n s).cairn = s.cairn ∧ (domainOff n s).transit = s.transit ∧ (domainOff n s).fresh = s.fresh ∧
    (domainOff n s).pending = s.pending := by
  exact ⟨rfl, rfl, rfl, rfl, rfl, rfl, rfl, rfl, rfl, rfl, rfl, rfl, rfl, rfl, rfl, rfl, rfl, rfl, rfl, rfl,
     rfl, rfl, rfl, rfl, rfl⟩

@[simp] theorem hostEventTo_frame (s : State) (d : Option Nat) (c : Nat) (src : BitVec 32) (a : Bytes) :
    (hostEventTo d c src a s).ident = s.ident ∧ (hostEventTo d c src a s).mbx = s.mbx ∧
    (hostEventTo d c src a s).eth = s.eth ∧ (hostEventTo d c src a s).win = s.win ∧
    (hostEventTo d c src a s).objs = s.objs ∧ (hostEventTo d c src a s).store = s.store ∧
    (hostEventTo d c src a s).mem = s.mem ∧ (hostEventTo d c src a s).bars = s.bars ∧
    (hostEventTo d c src a s).bench = s.bench ∧ (hostEventTo d c src a s).pos = s.pos ∧
    (hostEventTo d c src a s).sett = s.sett ∧ (hostEventTo d c src a s).vision = s.vision ∧
    (hostEventTo d c src a s).vd = s.vd ∧ (hostEventTo d c src a s).fabric = s.fabric ∧
    (hostEventTo d c src a s).ports = s.ports ∧ (hostEventTo d c src a s).ptp = s.ptp ∧
    (hostEventTo d c src a s).time = s.time ∧ (hostEventTo d c src a s).saddle = s.saddle ∧
    (hostEventTo d c src a s).ilk = s.ilk ∧ (hostEventTo d c src a s).thermal = s.thermal ∧
    (hostEventTo d c src a s).power = s.power ∧ (hostEventTo d c src a s).cps = s.cps ∧
    (hostEventTo d c src a s).cairn = s.cairn ∧ (hostEventTo d c src a s).fresh = s.fresh ∧
    (hostEventTo d c src a s).pending = s.pending := by
  exact ⟨rfl, rfl, rfl, rfl, rfl, rfl, rfl, rfl, rfl, rfl, rfl, rfl, rfl, rfl, rfl, rfl, rfl, rfl, rfl, rfl,
     rfl, rfl, rfl, rfl, rfl⟩

@[simp] theorem hostEventTo_transit (s : State) (d : Option Nat) (c : Nat) (src : BitVec 32) (a : Bytes) :
    (hostEventTo d c src a s).transit = s.transit ++ [⟨c, src, s.time.te, none, fit 8 a, d, false⟩] := rfl

@[simp] theorem hostEvent_frame (s : State) (c : Nat) (src : BitVec 32) (a : Bytes) :
    (hostEvent c src a s).ident = s.ident ∧ (hostEvent c src a s).mbx = s.mbx ∧ (hostEvent c src a s).eth = s.eth ∧
    (hostEvent c src a s).win = s.win ∧ (hostEvent c src a s).objs = s.objs ∧ (hostEvent c src a s).store = s.store ∧
    (hostEvent c src a s).mem = s.mem ∧ (hostEvent c src a s).bars = s.bars ∧ (hostEvent c src a s).bench = s.bench ∧
    (hostEvent c src a s).pos = s.pos ∧ (hostEvent c src a s).sett = s.sett ∧
    (hostEvent c src a s).vision = s.vision ∧ (hostEvent c src a s).vd = s.vd ∧
    (hostEvent c src a s).fabric = s.fabric ∧ (hostEvent c src a s).ports = s.ports ∧
    (hostEvent c src a s).ptp = s.ptp ∧ (hostEvent c src a s).time = s.time ∧
    (hostEvent c src a s).saddle = s.saddle ∧ (hostEvent c src a s).ilk = s.ilk ∧
    (hostEvent c src a s).thermal = s.thermal ∧ (hostEvent c src a s).power = s.power ∧
    (hostEvent c src a s).cps = s.cps ∧ (hostEvent c src a s).cairn = s.cairn ∧
    (hostEvent c src a s).fresh = s.fresh ∧ (hostEvent c src a s).pending = s.pending := by
  exact ⟨rfl, rfl, rfl, rfl, rfl, rfl, rfl, rfl, rfl, rfl, rfl, rfl, rfl, rfl, rfl, rfl, rfl, rfl, rfl, rfl,
     rfl, rfl, rfl, rfl, rfl⟩

@[simp] theorem hostEvent_transit (s : State) (c : Nat) (src : BitVec 32) (a : Bytes) :
    (hostEvent c src a s).transit = s.transit ++ [⟨c, src, s.time.te, none, fit 8 a, none, false⟩] := rfl

@[simp] theorem setBar_frame (s : State) (b : Nat) (f : Bar → Bar) :
    (setBar s b f).ident = s.ident ∧ (setBar s b f).mbx = s.mbx ∧ (setBar s b f).eth = s.eth ∧
    (setBar s b f).win = s.win ∧ (setBar s b f).objs = s.objs ∧ (setBar s b f).store = s.store ∧
    (setBar s b f).mem = s.mem ∧ (setBar s b f).bench = s.bench ∧ (setBar s b f).pos = s.pos ∧
    (setBar s b f).sett = s.sett ∧ (setBar s b f).vision = s.vision ∧ (setBar s b f).vd = s.vd ∧
    (setBar s b f).fabric = s.fabric ∧ (setBar s b f).ports = s.ports ∧ (setBar s b f).ptp = s.ptp ∧
    (setBar s b f).time = s.time ∧ (setBar s b f).saddle = s.saddle ∧ (setBar s b f).ilk = s.ilk ∧
    (setBar s b f).thermal = s.thermal ∧ (setBar s b f).power = s.power ∧ (setBar s b f).cps = s.cps ∧
    (setBar s b f).cairn = s.cairn ∧ (setBar s b f).transit = s.transit ∧ (setBar s b f).fresh = s.fresh ∧
    (setBar s b f).pending = s.pending := by
  exact ⟨rfl, rfl, rfl, rfl, rfl, rfl, rfl, rfl, rfl, rfl, rfl, rfl, rfl, rfl, rfl, rfl, rfl, rfl, rfl, rfl,
     rfl, rfl, rfl, rfl, rfl⟩

@[simp] theorem setBar_bars (s : State) (b : Nat) (f : Bar → Bar) :
    (setBar s b f).bars = modAt s.bars b f := rfl

@[simp] theorem setHead_frame (s : State) (b i : Nat) (f : Head → Head) :
    (setHead s b i f).ident = s.ident ∧ (setHead s b i f).mbx = s.mbx ∧ (setHead s b i f).eth = s.eth ∧
    (setHead s b i f).win = s.win ∧ (setHead s b i f).objs = s.objs ∧ (setHead s b i f).store = s.store ∧
    (setHead s b i f).mem = s.mem ∧ (setHead s b i f).bench = s.bench ∧ (setHead s b i f).pos = s.pos ∧
    (setHead s b i f).sett = s.sett ∧ (setHead s b i f).vision = s.vision ∧ (setHead s b i f).vd = s.vd ∧
    (setHead s b i f).fabric = s.fabric ∧ (setHead s b i f).ports = s.ports ∧ (setHead s b i f).ptp = s.ptp ∧
    (setHead s b i f).time = s.time ∧ (setHead s b i f).saddle = s.saddle ∧ (setHead s b i f).ilk = s.ilk ∧
    (setHead s b i f).thermal = s.thermal ∧ (setHead s b i f).power = s.power ∧ (setHead s b i f).cps = s.cps ∧
    (setHead s b i f).cairn = s.cairn ∧ (setHead s b i f).transit = s.transit ∧ (setHead s b i f).fresh = s.fresh ∧
    (setHead s b i f).pending = s.pending := by
  exact ⟨rfl, rfl, rfl, rfl, rfl, rfl, rfl, rfl, rfl, rfl, rfl, rfl, rfl, rfl, rfl, rfl, rfl, rfl, rfl, rfl,
     rfl, rfl, rfl, rfl, rfl⟩

@[simp] theorem setHead_bars (s : State) (b i : Nat) (f : Head → Head) :
    (setHead s b i f).bars = modAt s.bars b fun bar => { bar with heads := modAt bar.heads i f } := rfl

@[simp] theorem giveExtents_frame (s : State) (l : List Nat) :
    (giveExtents l s).ident = s.ident ∧ (giveExtents l s).mbx = s.mbx ∧ (giveExtents l s).eth = s.eth ∧
    (giveExtents l s).win = s.win ∧ (giveExtents l s).objs = s.objs ∧ (giveExtents l s).mem = s.mem ∧
    (giveExtents l s).bars = s.bars ∧ (giveExtents l s).bench = s.bench ∧ (giveExtents l s).pos = s.pos ∧
    (giveExtents l s).sett = s.sett ∧ (giveExtents l s).vision = s.vision ∧ (giveExtents l s).vd = s.vd ∧
    (giveExtents l s).fabric = s.fabric ∧ (giveExtents l s).ports = s.ports ∧ (giveExtents l s).ptp = s.ptp ∧
    (giveExtents l s).time = s.time ∧ (giveExtents l s).saddle = s.saddle ∧ (giveExtents l s).ilk = s.ilk ∧
    (giveExtents l s).thermal = s.thermal ∧ (giveExtents l s).power = s.power ∧ (giveExtents l s).cps = s.cps ∧
    (giveExtents l s).cairn = s.cairn ∧ (giveExtents l s).transit = s.transit ∧ (giveExtents l s).fresh = s.fresh ∧
    (giveExtents l s).pending = s.pending := by
  exact ⟨rfl, rfl, rfl, rfl, rfl, rfl, rfl, rfl, rfl, rfl, rfl, rfl, rfl, rfl, rfl, rfl, rfl, rfl, rfl, rfl,
     rfl, rfl, rfl, rfl, rfl⟩

@[simp] theorem giveExtents_store (s : State) (l : List Nat) :
    (giveExtents l s).store = { s.store with free := s.store.free ++ l } := rfl

@[simp] theorem hostWrite_frame (s : State) (a : Nat) (b : Bytes) :
    (hostWrite a b s).ident = s.ident ∧ (hostWrite a b s).eth = s.eth ∧ (hostWrite a b s).win = s.win ∧
    (hostWrite a b s).objs = s.objs ∧ (hostWrite a b s).store = s.store ∧ (hostWrite a b s).mem = s.mem ∧
    (hostWrite a b s).bars = s.bars ∧ (hostWrite a b s).bench = s.bench ∧ (hostWrite a b s).pos = s.pos ∧
    (hostWrite a b s).sett = s.sett ∧ (hostWrite a b s).vision = s.vision ∧ (hostWrite a b s).vd = s.vd ∧
    (hostWrite a b s).fabric = s.fabric ∧ (hostWrite a b s).ports = s.ports ∧ (hostWrite a b s).ptp = s.ptp ∧
    (hostWrite a b s).time = s.time ∧ (hostWrite a b s).saddle = s.saddle ∧ (hostWrite a b s).ilk = s.ilk ∧
    (hostWrite a b s).thermal = s.thermal ∧ (hostWrite a b s).power = s.power ∧ (hostWrite a b s).cps = s.cps ∧
    (hostWrite a b s).cairn = s.cairn ∧ (hostWrite a b s).transit = s.transit ∧ (hostWrite a b s).fresh = s.fresh ∧
    (hostWrite a b s).pending = s.pending := by
  exact ⟨rfl, rfl, rfl, rfl, rfl, rfl, rfl, rfl, rfl, rfl, rfl, rfl, rfl, rfl, rfl, rfl, rfl, rfl, rfl, rfl,
     rfl, rfl, rfl, rfl, rfl⟩

@[simp] theorem hostWrite_mbx (s : State) (a : Nat) (b : Bytes) :
    (hostWrite a b s).mbx = { s.mbx with hostMem := smSet s.mbx.hostMem a b } := rfl

@[simp] theorem writeStatusBlock_frame (s : State) :
    (writeStatusBlock s).ident = s.ident ∧ (writeStatusBlock s).eth = s.eth ∧ (writeStatusBlock s).win = s.win ∧
    (writeStatusBlock s).objs = s.objs ∧ (writeStatusBlock s).store = s.store ∧ (writeStatusBlock s).mem = s.mem ∧
    (writeStatusBlock s).bars = s.bars ∧ (writeStatusBlock s).bench = s.bench ∧ (writeStatusBlock s).pos = s.pos ∧
    (writeStatusBlock s).sett = s.sett ∧ (writeStatusBlock s).vision = s.vision ∧ (writeStatusBlock s).vd = s.vd ∧
    (writeStatusBlock s).fabric = s.fabric ∧ (writeStatusBlock s).ports = s.ports ∧
    (writeStatusBlock s).ptp = s.ptp ∧ (writeStatusBlock s).time = s.time ∧ (writeStatusBlock s).saddle = s.saddle ∧
    (writeStatusBlock s).ilk = s.ilk ∧ (writeStatusBlock s).thermal = s.thermal ∧
    (writeStatusBlock s).power = s.power ∧ (writeStatusBlock s).cps = s.cps ∧ (writeStatusBlock s).cairn = s.cairn ∧
    (writeStatusBlock s).transit = s.transit ∧ (writeStatusBlock s).fresh = s.fresh ∧
    (writeStatusBlock s).pending = s.pending := by
  exact ⟨rfl, rfl, rfl, rfl, rfl, rfl, rfl, rfl, rfl, rfl, rfl, rfl, rfl, rfl, rfl, rfl, rfl, rfl, rfl, rfl,
     rfl, rfl, rfl, rfl, rfl⟩

@[simp] theorem setSession_frame (s : State) (i : Nat) (f : Session → Session) :
    (setSession i f s).ident = s.ident ∧ (setSession i f s).mbx = s.mbx ∧ (setSession i f s).win = s.win ∧
    (setSession i f s).objs = s.objs ∧ (setSession i f s).store = s.store ∧ (setSession i f s).mem = s.mem ∧
    (setSession i f s).bars = s.bars ∧ (setSession i f s).bench = s.bench ∧ (setSession i f s).pos = s.pos ∧
    (setSession i f s).sett = s.sett ∧ (setSession i f s).vision = s.vision ∧ (setSession i f s).vd = s.vd ∧
    (setSession i f s).fabric = s.fabric ∧ (setSession i f s).ports = s.ports ∧ (setSession i f s).ptp = s.ptp ∧
    (setSession i f s).time = s.time ∧ (setSession i f s).saddle = s.saddle ∧ (setSession i f s).ilk = s.ilk ∧
    (setSession i f s).thermal = s.thermal ∧ (setSession i f s).power = s.power ∧ (setSession i f s).cps = s.cps ∧
    (setSession i f s).cairn = s.cairn ∧ (setSession i f s).transit = s.transit ∧
    (setSession i f s).fresh = s.fresh ∧ (setSession i f s).pending = s.pending := by
  exact ⟨rfl, rfl, rfl, rfl, rfl, rfl, rfl, rfl, rfl, rfl, rfl, rfl, rfl, rfl, rfl, rfl, rfl, rfl, rfl, rfl,
     rfl, rfl, rfl, rfl, rfl⟩

@[simp] theorem doneEvent_frame (s : State) (m : Msg) (st : Nat) :
    (doneEvent m st s).ident = s.ident ∧ (doneEvent m st s).mbx = s.mbx ∧ (doneEvent m st s).eth = s.eth ∧
    (doneEvent m st s).win = s.win ∧ (doneEvent m st s).objs = s.objs ∧ (doneEvent m st s).store = s.store ∧
    (doneEvent m st s).mem = s.mem ∧ (doneEvent m st s).bars = s.bars ∧ (doneEvent m st s).bench = s.bench ∧
    (doneEvent m st s).pos = s.pos ∧ (doneEvent m st s).sett = s.sett ∧ (doneEvent m st s).vision = s.vision ∧
    (doneEvent m st s).vd = s.vd ∧ (doneEvent m st s).fabric = s.fabric ∧ (doneEvent m st s).ports = s.ports ∧
    (doneEvent m st s).ptp = s.ptp ∧ (doneEvent m st s).time = s.time ∧ (doneEvent m st s).saddle = s.saddle ∧
    (doneEvent m st s).ilk = s.ilk ∧ (doneEvent m st s).thermal = s.thermal ∧ (doneEvent m st s).power = s.power ∧
    (doneEvent m st s).cps = s.cps ∧ (doneEvent m st s).cairn = s.cairn ∧ (doneEvent m st s).fresh = s.fresh ∧
    (doneEvent m st s).pending = s.pending := by
  exact ⟨rfl, rfl, rfl, rfl, rfl, rfl, rfl, rfl, rfl, rfl, rfl, rfl, rfl, rfl, rfl, rfl, rfl, rfl, rfl, rfl,
     rfl, rfl, rfl, rfl, rfl⟩

@[simp] theorem keepFlight_frame (s : State) (op : Nat) (m : Msg) (pl : Nat) (ph : MsgPhase) :
    (keepFlight op m pl ph s).ident = s.ident ∧ (keepFlight op m pl ph s).eth = s.eth ∧
    (keepFlight op m pl ph s).win = s.win ∧ (keepFlight op m pl ph s).objs = s.objs ∧
    (keepFlight op m pl ph s).store = s.store ∧ (keepFlight op m pl ph s).mem = s.mem ∧
    (keepFlight op m pl ph s).bars = s.bars ∧ (keepFlight op m pl ph s).bench = s.bench ∧
    (keepFlight op m pl ph s).pos = s.pos ∧ (keepFlight op m pl ph s).sett = s.sett ∧
    (keepFlight op m pl ph s).vision = s.vision ∧ (keepFlight op m pl ph s).vd = s.vd ∧
    (keepFlight op m pl ph s).fabric = s.fabric ∧ (keepFlight op m pl ph s).ports = s.ports ∧
    (keepFlight op m pl ph s).ptp = s.ptp ∧ (keepFlight op m pl ph s).time = s.time ∧
    (keepFlight op m pl ph s).saddle = s.saddle ∧ (keepFlight op m pl ph s).ilk = s.ilk ∧
    (keepFlight op m pl ph s).thermal = s.thermal ∧ (keepFlight op m pl ph s).power = s.power ∧
    (keepFlight op m pl ph s).cps = s.cps ∧ (keepFlight op m pl ph s).cairn = s.cairn ∧
    (keepFlight op m pl ph s).transit = s.transit ∧ (keepFlight op m pl ph s).fresh = s.fresh ∧
    (keepFlight op m pl ph s).pending = s.pending := by
  exact ⟨rfl, rfl, rfl, rfl, rfl, rfl, rfl, rfl, rfl, rfl, rfl, rfl, rfl, rfl, rfl, rfl, rfl, rfl, rfl, rfl,
     rfl, rfl, rfl, rfl, rfl⟩

@[simp] theorem finishFlight_frame (s : State) (op : Nat) (m : Msg) (st : Nat) :
    (finishFlight op m st s).ident = s.ident ∧ (finishFlight op m st s).eth = s.eth ∧
    (finishFlight op m st s).win = s.win ∧ (finishFlight op m st s).objs = s.objs ∧
    (finishFlight op m st s).store = s.store ∧ (finishFlight op m st s).mem = s.mem ∧
    (finishFlight op m st s).bars = s.bars ∧ (finishFlight op m st s).bench = s.bench ∧
    (finishFlight op m st s).pos = s.pos ∧ (finishFlight op m st s).sett = s.sett ∧
    (finishFlight op m st s).vision = s.vision ∧ (finishFlight op m st s).vd = s.vd ∧
    (finishFlight op m st s).fabric = s.fabric ∧ (finishFlight op m st s).ports = s.ports ∧
    (finishFlight op m st s).ptp = s.ptp ∧ (finishFlight op m st s).time = s.time ∧
    (finishFlight op m st s).saddle = s.saddle ∧ (finishFlight op m st s).ilk = s.ilk ∧
    (finishFlight op m st s).thermal = s.thermal ∧ (finishFlight op m st s).power = s.power ∧
    (finishFlight op m st s).cps = s.cps ∧ (finishFlight op m st s).cairn = s.cairn ∧
    (finishFlight op m st s).transit = s.transit ∧ (finishFlight op m st s).fresh = s.fresh ∧
    (finishFlight op m st s).pending = s.pending := by
  exact ⟨rfl, rfl, rfl, rfl, rfl, rfl, rfl, rfl, rfl, rfl, rfl, rfl, rfl, rfl, rfl, rfl, rfl, rfl, rfl, rfl,
     rfl, rfl, rfl, rfl, rfl⟩

@[simp] theorem setPlate_frame (s : State) (h : BitVec 32) (f : Plate → Plate) :
    (setPlate s h f).ident = s.ident ∧ (setPlate s h f).mbx = s.mbx ∧ (setPlate s h f).eth = s.eth ∧
    (setPlate s h f).win = s.win ∧ (setPlate s h f).store = s.store ∧ (setPlate s h f).mem = s.mem ∧
    (setPlate s h f).bars = s.bars ∧ (setPlate s h f).bench = s.bench ∧ (setPlate s h f).pos = s.pos ∧
    (setPlate s h f).sett = s.sett ∧ (setPlate s h f).vision = s.vision ∧ (setPlate s h f).vd = s.vd ∧
    (setPlate s h f).fabric = s.fabric ∧ (setPlate s h f).ports = s.ports ∧ (setPlate s h f).ptp = s.ptp ∧
    (setPlate s h f).time = s.time ∧ (setPlate s h f).saddle = s.saddle ∧ (setPlate s h f).ilk = s.ilk ∧
    (setPlate s h f).thermal = s.thermal ∧ (setPlate s h f).power = s.power ∧ (setPlate s h f).cps = s.cps ∧
    (setPlate s h f).cairn = s.cairn ∧ (setPlate s h f).transit = s.transit ∧ (setPlate s h f).fresh = s.fresh ∧
    (setPlate s h f).pending = s.pending := by
  exact ⟨rfl, rfl, rfl, rfl, rfl, rfl, rfl, rfl, rfl, rfl, rfl, rfl, rfl, rfl, rfl, rfl, rfl, rfl, rfl, rfl,
     rfl, rfl, rfl, rfl, rfl⟩

@[simp] theorem setPlate_objs (s : State) (h : BitVec 32) (f : Plate → Plate) :
    (setPlate s h f).objs = { s.objs with plates := s.objs.plates.update (hIdx h) f } := rfl

@[simp] theorem setChannel_frame (s : State) (h : BitVec 32) (f : Channel → Channel) :
    (setChannel s h f).ident = s.ident ∧ (setChannel s h f).mbx = s.mbx ∧ (setChannel s h f).eth = s.eth ∧
    (setChannel s h f).win = s.win ∧ (setChannel s h f).store = s.store ∧ (setChannel s h f).mem = s.mem ∧
    (setChannel s h f).bars = s.bars ∧ (setChannel s h f).bench = s.bench ∧ (setChannel s h f).pos = s.pos ∧
    (setChannel s h f).sett = s.sett ∧ (setChannel s h f).vision = s.vision ∧ (setChannel s h f).vd = s.vd ∧
    (setChannel s h f).fabric = s.fabric ∧ (setChannel s h f).ports = s.ports ∧ (setChannel s h f).ptp = s.ptp ∧
    (setChannel s h f).time = s.time ∧ (setChannel s h f).saddle = s.saddle ∧ (setChannel s h f).ilk = s.ilk ∧
    (setChannel s h f).thermal = s.thermal ∧ (setChannel s h f).power = s.power ∧ (setChannel s h f).cps = s.cps ∧
    (setChannel s h f).cairn = s.cairn ∧ (setChannel s h f).transit = s.transit ∧
    (setChannel s h f).fresh = s.fresh ∧ (setChannel s h f).pending = s.pending := by
  exact ⟨rfl, rfl, rfl, rfl, rfl, rfl, rfl, rfl, rfl, rfl, rfl, rfl, rfl, rfl, rfl, rfl, rfl, rfl, rfl, rfl,
     rfl, rfl, rfl, rfl, rfl⟩

@[simp] theorem setChannel_objs (s : State) (h : BitVec 32) (f : Channel → Channel) :
    (setChannel s h f).objs = { s.objs with channels := s.objs.channels.update (hIdx h) f } := rfl

@[simp] theorem setRun_frame (s : State) (h : BitVec 32) (f : Run → Run) :
    (setRun s h f).ident = s.ident ∧ (setRun s h f).mbx = s.mbx ∧ (setRun s h f).eth = s.eth ∧
    (setRun s h f).win = s.win ∧ (setRun s h f).store = s.store ∧ (setRun s h f).mem = s.mem ∧
    (setRun s h f).bars = s.bars ∧ (setRun s h f).bench = s.bench ∧ (setRun s h f).pos = s.pos ∧
    (setRun s h f).sett = s.sett ∧ (setRun s h f).vision = s.vision ∧ (setRun s h f).vd = s.vd ∧
    (setRun s h f).fabric = s.fabric ∧ (setRun s h f).ports = s.ports ∧ (setRun s h f).ptp = s.ptp ∧
    (setRun s h f).time = s.time ∧ (setRun s h f).saddle = s.saddle ∧ (setRun s h f).ilk = s.ilk ∧
    (setRun s h f).thermal = s.thermal ∧ (setRun s h f).power = s.power ∧ (setRun s h f).cps = s.cps ∧
    (setRun s h f).cairn = s.cairn ∧ (setRun s h f).transit = s.transit ∧ (setRun s h f).fresh = s.fresh ∧
    (setRun s h f).pending = s.pending := by
  exact ⟨rfl, rfl, rfl, rfl, rfl, rfl, rfl, rfl, rfl, rfl, rfl, rfl, rfl, rfl, rfl, rfl, rfl, rfl, rfl, rfl,
     rfl, rfl, rfl, rfl, rfl⟩

@[simp] theorem setRun_objs (s : State) (h : BitVec 32) (f : Run → Run) :
    (setRun s h f).objs = { s.objs with runs := s.objs.runs.update (hIdx h) f } := rfl

@[simp] theorem setStream_frame (s : State) (h : BitVec 32) (f : VdStream → VdStream) :
    (setStream s h f).ident = s.ident ∧ (setStream s h f).mbx = s.mbx ∧ (setStream s h f).eth = s.eth ∧
    (setStream s h f).win = s.win ∧ (setStream s h f).store = s.store ∧ (setStream s h f).mem = s.mem ∧
    (setStream s h f).bars = s.bars ∧ (setStream s h f).bench = s.bench ∧ (setStream s h f).pos = s.pos ∧
    (setStream s h f).sett = s.sett ∧ (setStream s h f).vision = s.vision ∧ (setStream s h f).vd = s.vd ∧
    (setStream s h f).fabric = s.fabric ∧ (setStream s h f).ports = s.ports ∧ (setStream s h f).ptp = s.ptp ∧
    (setStream s h f).time = s.time ∧ (setStream s h f).saddle = s.saddle ∧ (setStream s h f).ilk = s.ilk ∧
    (setStream s h f).thermal = s.thermal ∧ (setStream s h f).power = s.power ∧ (setStream s h f).cps = s.cps ∧
    (setStream s h f).cairn = s.cairn ∧ (setStream s h f).transit = s.transit ∧ (setStream s h f).fresh = s.fresh ∧
    (setStream s h f).pending = s.pending := by
  exact ⟨rfl, rfl, rfl, rfl, rfl, rfl, rfl, rfl, rfl, rfl, rfl, rfl, rfl, rfl, rfl, rfl, rfl, rfl, rfl, rfl,
     rfl, rfl, rfl, rfl, rfl⟩

@[simp] theorem setStream_objs (s : State) (h : BitVec 32) (f : VdStream → VdStream) :
    (setStream s h f).objs = { s.objs with streams := s.objs.streams.update (hIdx h) f } := rfl

@[simp] theorem setTrigger_frame (s : State) (h : BitVec 32) (f : Trigger → Trigger) :
    (setTrigger s h f).ident = s.ident ∧ (setTrigger s h f).mbx = s.mbx ∧ (setTrigger s h f).eth = s.eth ∧
    (setTrigger s h f).win = s.win ∧ (setTrigger s h f).store = s.store ∧ (setTrigger s h f).mem = s.mem ∧
    (setTrigger s h f).bars = s.bars ∧ (setTrigger s h f).bench = s.bench ∧ (setTrigger s h f).pos = s.pos ∧
    (setTrigger s h f).sett = s.sett ∧ (setTrigger s h f).vision = s.vision ∧ (setTrigger s h f).vd = s.vd ∧
    (setTrigger s h f).fabric = s.fabric ∧ (setTrigger s h f).ports = s.ports ∧ (setTrigger s h f).ptp = s.ptp ∧
    (setTrigger s h f).time = s.time ∧ (setTrigger s h f).saddle = s.saddle ∧ (setTrigger s h f).ilk = s.ilk ∧
    (setTrigger s h f).thermal = s.thermal ∧ (setTrigger s h f).power = s.power ∧ (setTrigger s h f).cps = s.cps ∧
    (setTrigger s h f).cairn = s.cairn ∧ (setTrigger s h f).transit = s.transit ∧
    (setTrigger s h f).fresh = s.fresh ∧ (setTrigger s h f).pending = s.pending := by
  exact ⟨rfl, rfl, rfl, rfl, rfl, rfl, rfl, rfl, rfl, rfl, rfl, rfl, rfl, rfl, rfl, rfl, rfl, rfl, rfl, rfl,
     rfl, rfl, rfl, rfl, rfl⟩

@[simp] theorem setTrigger_objs (s : State) (h : BitVec 32) (f : Trigger → Trigger) :
    (setTrigger s h f).objs = { s.objs with triggers := s.objs.triggers.update (hIdx h) f } := rfl

@[simp] theorem setCamset_frame (s : State) (h : BitVec 32) (f : CamSet → CamSet) :
    (setCamset s h f).ident = s.ident ∧ (setCamset s h f).mbx = s.mbx ∧ (setCamset s h f).eth = s.eth ∧
    (setCamset s h f).win = s.win ∧ (setCamset s h f).store = s.store ∧ (setCamset s h f).mem = s.mem ∧
    (setCamset s h f).bars = s.bars ∧ (setCamset s h f).bench = s.bench ∧ (setCamset s h f).pos = s.pos ∧
    (setCamset s h f).sett = s.sett ∧ (setCamset s h f).vision = s.vision ∧ (setCamset s h f).vd = s.vd ∧
    (setCamset s h f).fabric = s.fabric ∧ (setCamset s h f).ports = s.ports ∧ (setCamset s h f).ptp = s.ptp ∧
    (setCamset s h f).time = s.time ∧ (setCamset s h f).saddle = s.saddle ∧ (setCamset s h f).ilk = s.ilk ∧
    (setCamset s h f).thermal = s.thermal ∧ (setCamset s h f).power = s.power ∧ (setCamset s h f).cps = s.cps ∧
    (setCamset s h f).cairn = s.cairn ∧ (setCamset s h f).transit = s.transit ∧ (setCamset s h f).fresh = s.fresh ∧
    (setCamset s h f).pending = s.pending := by
  exact ⟨rfl, rfl, rfl, rfl, rfl, rfl, rfl, rfl, rfl, rfl, rfl, rfl, rfl, rfl, rfl, rfl, rfl, rfl, rfl, rfl,
     rfl, rfl, rfl, rfl, rfl⟩

@[simp] theorem setCamset_objs (s : State) (h : BitVec 32) (f : CamSet → CamSet) :
    (setCamset s h f).objs = { s.objs with camsets := s.objs.camsets.update (hIdx h) f } := rfl

@[simp] theorem setCalset_frame (s : State) (h : BitVec 32) (f : CalSet → CalSet) :
    (setCalset s h f).ident = s.ident ∧ (setCalset s h f).mbx = s.mbx ∧ (setCalset s h f).eth = s.eth ∧
    (setCalset s h f).win = s.win ∧ (setCalset s h f).store = s.store ∧ (setCalset s h f).mem = s.mem ∧
    (setCalset s h f).bars = s.bars ∧ (setCalset s h f).bench = s.bench ∧ (setCalset s h f).pos = s.pos ∧
    (setCalset s h f).sett = s.sett ∧ (setCalset s h f).vision = s.vision ∧ (setCalset s h f).vd = s.vd ∧
    (setCalset s h f).fabric = s.fabric ∧ (setCalset s h f).ports = s.ports ∧ (setCalset s h f).ptp = s.ptp ∧
    (setCalset s h f).time = s.time ∧ (setCalset s h f).saddle = s.saddle ∧ (setCalset s h f).ilk = s.ilk ∧
    (setCalset s h f).thermal = s.thermal ∧ (setCalset s h f).power = s.power ∧ (setCalset s h f).cps = s.cps ∧
    (setCalset s h f).cairn = s.cairn ∧ (setCalset s h f).transit = s.transit ∧ (setCalset s h f).fresh = s.fresh ∧
    (setCalset s h f).pending = s.pending := by
  exact ⟨rfl, rfl, rfl, rfl, rfl, rfl, rfl, rfl, rfl, rfl, rfl, rfl, rfl, rfl, rfl, rfl, rfl, rfl, rfl, rfl,
     rfl, rfl, rfl, rfl, rfl⟩

@[simp] theorem setCalset_objs (s : State) (h : BitVec 32) (f : CalSet → CalSet) :
    (setCalset s h f).objs = { s.objs with calsets := s.objs.calsets.update (hIdx h) f } := rfl

@[simp] theorem setTimer_frame (s : State) (h : BitVec 32) (f : Timer → Timer) :
    (setTimer s h f).ident = s.ident ∧ (setTimer s h f).mbx = s.mbx ∧ (setTimer s h f).eth = s.eth ∧
    (setTimer s h f).win = s.win ∧ (setTimer s h f).store = s.store ∧ (setTimer s h f).mem = s.mem ∧
    (setTimer s h f).bars = s.bars ∧ (setTimer s h f).bench = s.bench ∧ (setTimer s h f).pos = s.pos ∧
    (setTimer s h f).sett = s.sett ∧ (setTimer s h f).vision = s.vision ∧ (setTimer s h f).vd = s.vd ∧
    (setTimer s h f).fabric = s.fabric ∧ (setTimer s h f).ports = s.ports ∧ (setTimer s h f).ptp = s.ptp ∧
    (setTimer s h f).time = s.time ∧ (setTimer s h f).saddle = s.saddle ∧ (setTimer s h f).ilk = s.ilk ∧
    (setTimer s h f).thermal = s.thermal ∧ (setTimer s h f).power = s.power ∧ (setTimer s h f).cps = s.cps ∧
    (setTimer s h f).cairn = s.cairn ∧ (setTimer s h f).transit = s.transit ∧ (setTimer s h f).fresh = s.fresh ∧
    (setTimer s h f).pending = s.pending := by
  exact ⟨rfl, rfl, rfl, rfl, rfl, rfl, rfl, rfl, rfl, rfl, rfl, rfl, rfl, rfl, rfl, rfl, rfl, rfl, rfl, rfl,
     rfl, rfl, rfl, rfl, rfl⟩

@[simp] theorem setTimer_objs (s : State) (h : BitVec 32) (f : Timer → Timer) :
    (setTimer s h f).objs = { s.objs with timers := s.objs.timers.update (hIdx h) f } := rfl

@[simp] theorem sendFieldRecord_frame (s : State) (r : EventRec) :
    (sendFieldRecord r s).ident = s.ident ∧ (sendFieldRecord r s).mbx = s.mbx ∧ (sendFieldRecord r s).eth = s.eth ∧
    (sendFieldRecord r s).win = s.win ∧ (sendFieldRecord r s).objs = s.objs ∧ (sendFieldRecord r s).store = s.store ∧
    (sendFieldRecord r s).mem = s.mem ∧ (sendFieldRecord r s).bars = s.bars ∧ (sendFieldRecord r s).bench = s.bench ∧
    (sendFieldRecord r s).pos = s.pos ∧ (sendFieldRecord r s).sett = s.sett ∧
    (sendFieldRecord r s).vision = s.vision ∧ (sendFieldRecord r s).vd = s.vd ∧
    (sendFieldRecord r s).fabric = s.fabric ∧ (sendFieldRecord r s).ports = s.ports ∧
    (sendFieldRecord r s).ptp = s.ptp ∧ (sendFieldRecord r s).time = s.time ∧ (sendFieldRecord r s).ilk = s.ilk ∧
    (sendFieldRecord r s).thermal = s.thermal ∧ (sendFieldRecord r s).power = s.power ∧
    (sendFieldRecord r s).cps = s.cps ∧ (sendFieldRecord r s).cairn = s.cairn ∧
    (sendFieldRecord r s).fresh = s.fresh ∧ (sendFieldRecord r s).pending = s.pending := by
  unfold sendFieldRecord; repeat' split
  all_goals exact ⟨rfl, rfl, rfl, rfl, rfl, rfl, rfl, rfl, rfl, rfl, rfl, rfl, rfl, rfl, rfl, rfl, rfl, rfl, rfl, rfl,
     rfl, rfl, rfl, rfl⟩

@[simp] theorem fieldEventAt_frame (s : State) (c : Nat) (src : BitVec 32) (w : Option Nat) (a : Bytes) :
    (fieldEventAt c src w a s).ident = s.ident ∧ (fieldEventAt c src w a s).mbx = s.mbx ∧
    (fieldEventAt c src w a s).eth = s.eth ∧ (fieldEventAt c src w a s).win = s.win ∧
    (fieldEventAt c src w a s).objs = s.objs ∧ (fieldEventAt c src w a s).store = s.store ∧
    (fieldEventAt c src w a s).mem = s.mem ∧ (fieldEventAt c src w a s).bars = s.bars ∧
    (fieldEventAt c src w a s).bench = s.bench ∧ (fieldEventAt c src w a s).pos = s.pos ∧
    (fieldEventAt c src w a s).sett = s.sett ∧ (fieldEventAt c src w a s).vision = s.vision ∧
    (fieldEventAt c src w a s).vd = s.vd ∧ (fieldEventAt c src w a s).fabric = s.fabric ∧
    (fieldEventAt c src w a s).ports = s.ports ∧ (fieldEventAt c src w a s).ptp = s.ptp ∧
    (fieldEventAt c src w a s).time = s.time ∧ (fieldEventAt c src w a s).ilk = s.ilk ∧
    (fieldEventAt c src w a s).thermal = s.thermal ∧ (fieldEventAt c src w a s).power = s.power ∧
    (fieldEventAt c src w a s).cps = s.cps ∧ (fieldEventAt c src w a s).cairn = s.cairn ∧
    (fieldEventAt c src w a s).fresh = s.fresh ∧ (fieldEventAt c src w a s).pending = s.pending := by
  exact sendFieldRecord_frame s _

@[simp] theorem fieldEvent_frame (s : State) (c : Nat) (src : BitVec 32) (a : Bytes) :
    (fieldEvent c src a s).ident = s.ident ∧ (fieldEvent c src a s).mbx = s.mbx ∧
    (fieldEvent c src a s).eth = s.eth ∧ (fieldEvent c src a s).win = s.win ∧ (fieldEvent c src a s).objs = s.objs ∧
    (fieldEvent c src a s).store = s.store ∧ (fieldEvent c src a s).mem = s.mem ∧
    (fieldEvent c src a s).bars = s.bars ∧ (fieldEvent c src a s).bench = s.bench ∧
    (fieldEvent c src a s).pos = s.pos ∧ (fieldEvent c src a s).sett = s.sett ∧
    (fieldEvent c src a s).vision = s.vision ∧ (fieldEvent c src a s).vd = s.vd ∧
    (fieldEvent c src a s).fabric = s.fabric ∧ (fieldEvent c src a s).ports = s.ports ∧
    (fieldEvent c src a s).ptp = s.ptp ∧ (fieldEvent c src a s).time = s.time ∧ (fieldEvent c src a s).ilk = s.ilk ∧
    (fieldEvent c src a s).thermal = s.thermal ∧ (fieldEvent c src a s).power = s.power ∧
    (fieldEvent c src a s).cps = s.cps ∧ (fieldEvent c src a s).cairn = s.cairn ∧
    (fieldEvent c src a s).fresh = s.fresh ∧ (fieldEvent c src a s).pending = s.pending := by
  exact sendFieldRecord_frame s _

@[simp] theorem deliverHeld_frame (s : State) :
    (deliverHeld s).ident = s.ident ∧ (deliverHeld s).mbx = s.mbx ∧ (deliverHeld s).eth = s.eth ∧
    (deliverHeld s).win = s.win ∧ (deliverHeld s).objs = s.objs ∧ (deliverHeld s).store = s.store ∧
    (deliverHeld s).mem = s.mem ∧ (deliverHeld s).bars = s.bars ∧ (deliverHeld s).bench = s.bench ∧
    (deliverHeld s).pos = s.pos ∧ (deliverHeld s).sett = s.sett ∧ (deliverHeld s).vision = s.vision ∧
    (deliverHeld s).vd = s.vd ∧ (deliverHeld s).fabric = s.fabric ∧ (deliverHeld s).ports = s.ports ∧
    (deliverHeld s).ptp = s.ptp ∧ (deliverHeld s).time = s.time ∧ (deliverHeld s).ilk = s.ilk ∧
    (deliverHeld s).thermal = s.thermal ∧ (deliverHeld s).power = s.power ∧ (deliverHeld s).cps = s.cps ∧
    (deliverHeld s).cairn = s.cairn ∧ (deliverHeld s).fresh = s.fresh ∧ (deliverHeld s).pending = s.pending := by
  unfold deliverHeld; split
  all_goals exact ⟨rfl, rfl, rfl, rfl, rfl, rfl, rfl, rfl, rfl, rfl, rfl, rfl, rfl, rfl, rfl, rfl, rfl, rfl, rfl, rfl,
     rfl, rfl, rfl, rfl⟩

@[simp] theorem sendVector_frame (s : State) (k : Nat) :
    (sendVector k s).ident = s.ident ∧ (sendVector k s).mbx = s.mbx ∧ (sendVector k s).eth = s.eth ∧
    (sendVector k s).objs = s.objs ∧ (sendVector k s).store = s.store ∧ (sendVector k s).mem = s.mem ∧
    (sendVector k s).bars = s.bars ∧ (sendVector k s).bench = s.bench ∧ (sendVector k s).pos = s.pos ∧
    (sendVector k s).sett = s.sett ∧ (sendVector k s).vision = s.vision ∧ (sendVector k s).vd = s.vd ∧
    (sendVector k s).fabric = s.fabric ∧ (sendVector k s).ports = s.ports ∧ (sendVector k s).ptp = s.ptp ∧
    (sendVector k s).time = s.time ∧ (sendVector k s).saddle = s.saddle ∧ (sendVector k s).ilk = s.ilk ∧
    (sendVector k s).thermal = s.thermal ∧ (sendVector k s).power = s.power ∧ (sendVector k s).cps = s.cps ∧
    (sendVector k s).cairn = s.cairn ∧ (sendVector k s).transit = s.transit ∧ (sendVector k s).fresh = s.fresh ∧
    (sendVector k s).pending = s.pending := by
  unfold sendVector; split
  all_goals exact ⟨rfl, rfl, rfl, rfl, rfl, rfl, rfl, rfl, rfl, rfl, rfl, rfl, rfl, rfl, rfl, rfl, rfl, rfl, rfl, rfl,
     rfl, rfl, rfl, rfl, rfl⟩

@[simp] theorem interrupt_frame (s : State) (k : Nat) :
    (interrupt k s).ident = s.ident ∧ (interrupt k s).mbx = s.mbx ∧ (interrupt k s).eth = s.eth ∧
    (interrupt k s).objs = s.objs ∧ (interrupt k s).store = s.store ∧ (interrupt k s).mem = s.mem ∧
    (interrupt k s).bars = s.bars ∧ (interrupt k s).bench = s.bench ∧ (interrupt k s).pos = s.pos ∧
    (interrupt k s).sett = s.sett ∧ (interrupt k s).vision = s.vision ∧ (interrupt k s).vd = s.vd ∧
    (interrupt k s).fabric = s.fabric ∧ (interrupt k s).ports = s.ports ∧ (interrupt k s).ptp = s.ptp ∧
    (interrupt k s).time = s.time ∧ (interrupt k s).saddle = s.saddle ∧ (interrupt k s).ilk = s.ilk ∧
    (interrupt k s).thermal = s.thermal ∧ (interrupt k s).power = s.power ∧ (interrupt k s).cps = s.cps ∧
    (interrupt k s).cairn = s.cairn ∧ (interrupt k s).transit = s.transit ∧ (interrupt k s).fresh = s.fresh ∧
    (interrupt k s).pending = s.pending := by
  unfold interrupt sendVector; dsimp only; repeat' split
  all_goals exact ⟨rfl, rfl, rfl, rfl, rfl, rfl, rfl, rfl, rfl, rfl, rfl, rfl, rfl, rfl, rfl, rfl, rfl, rfl, rfl, rfl,
     rfl, rfl, rfl, rfl, rfl⟩

@[simp] theorem sessionEvent_frame (s : State) (id : BitVec 32) (c : Nat) :
    (sessionEvent id c s).ident = s.ident ∧ (sessionEvent id c s).mbx = s.mbx ∧ (sessionEvent id c s).eth = s.eth ∧
    (sessionEvent id c s).win = s.win ∧ (sessionEvent id c s).objs = s.objs ∧ (sessionEvent id c s).store = s.store ∧
    (sessionEvent id c s).mem = s.mem ∧ (sessionEvent id c s).bars = s.bars ∧ (sessionEvent id c s).bench = s.bench ∧
    (sessionEvent id c s).pos = s.pos ∧ (sessionEvent id c s).sett = s.sett ∧
    (sessionEvent id c s).vision = s.vision ∧ (sessionEvent id c s).vd = s.vd ∧
    (sessionEvent id c s).fabric = s.fabric ∧ (sessionEvent id c s).ports = s.ports ∧
    (sessionEvent id c s).ptp = s.ptp ∧ (sessionEvent id c s).time = s.time ∧
    (sessionEvent id c s).saddle = s.saddle ∧ (sessionEvent id c s).ilk = s.ilk ∧
    (sessionEvent id c s).thermal = s.thermal ∧ (sessionEvent id c s).power = s.power ∧
    (sessionEvent id c s).cps = s.cps ∧ (sessionEvent id c s).cairn = s.cairn ∧
    (sessionEvent id c s).fresh = s.fresh ∧ (sessionEvent id c s).pending = s.pending := by
  unfold sessionEvent; split
  all_goals exact ⟨rfl, rfl, rfl, rfl, rfl, rfl, rfl, rfl, rfl, rfl, rfl, rfl, rfl, rfl, rfl, rfl, rfl, rfl, rfl, rfl,
     rfl, rfl, rfl, rfl, rfl⟩

@[simp] theorem closeSession_frame (s : State) (i c : Nat) :
    (closeSession i c s).ident = s.ident ∧ (closeSession i c s).win = s.win ∧ (closeSession i c s).objs = s.objs ∧
    (closeSession i c s).store = s.store ∧ (closeSession i c s).mem = s.mem ∧ (closeSession i c s).bars = s.bars ∧
    (closeSession i c s).bench = s.bench ∧ (closeSession i c s).pos = s.pos ∧ (closeSession i c s).sett = s.sett ∧
    (closeSession i c s).vision = s.vision ∧ (closeSession i c s).vd = s.vd ∧
    (closeSession i c s).fabric = s.fabric ∧ (closeSession i c s).ports = s.ports ∧
    (closeSession i c s).ptp = s.ptp ∧ (closeSession i c s).time = s.time ∧ (closeSession i c s).ilk = s.ilk ∧
    (closeSession i c s).thermal = s.thermal ∧ (closeSession i c s).power = s.power ∧
    (closeSession i c s).cps = s.cps ∧ (closeSession i c s).cairn = s.cairn ∧ (closeSession i c s).fresh = s.fresh ∧
    (closeSession i c s).pending = s.pending := by
  unfold closeSession; split
  · simp
  · simp

@[simp] theorem sendUdp_frame (s : State) (p : Nat) (v6 : Bool) (b : Bytes) :
    (sendUdp p v6 b s).ident = s.ident ∧ (sendUdp p v6 b s).mbx = s.mbx ∧ (sendUdp p v6 b s).win = s.win ∧
    (sendUdp p v6 b s).objs = s.objs ∧ (sendUdp p v6 b s).store = s.store ∧ (sendUdp p v6 b s).mem = s.mem ∧
    (sendUdp p v6 b s).bars = s.bars ∧ (sendUdp p v6 b s).bench = s.bench ∧ (sendUdp p v6 b s).pos = s.pos ∧
    (sendUdp p v6 b s).sett = s.sett ∧ (sendUdp p v6 b s).vision = s.vision ∧ (sendUdp p v6 b s).vd = s.vd ∧
    (sendUdp p v6 b s).fabric = s.fabric ∧ (sendUdp p v6 b s).ptp = s.ptp ∧ (sendUdp p v6 b s).time = s.time ∧
    (sendUdp p v6 b s).saddle = s.saddle ∧ (sendUdp p v6 b s).ilk = s.ilk ∧ (sendUdp p v6 b s).thermal = s.thermal ∧
    (sendUdp p v6 b s).power = s.power ∧ (sendUdp p v6 b s).cps = s.cps ∧ (sendUdp p v6 b s).cairn = s.cairn ∧
    (sendUdp p v6 b s).transit = s.transit ∧ (sendUdp p v6 b s).fresh = s.fresh ∧
    (sendUdp p v6 b s).pending = s.pending := by
  unfold sendUdp
  all_goals exact ⟨rfl, rfl, rfl, rfl, rfl, rfl, rfl, rfl, rfl, rfl, rfl, rfl, rfl, rfl, rfl, rfl, rfl, rfl, rfl, rfl,
     rfl, rfl, rfl, rfl⟩

@[simp] theorem sendDatagram_frame (s : State) (i k : Nat) (b : Bytes) :
    (sendDatagram i k b s).ident = s.ident ∧ (sendDatagram i k b s).win = s.win ∧
    (sendDatagram i k b s).objs = s.objs ∧ (sendDatagram i k b s).store = s.store ∧
    (sendDatagram i k b s).mem = s.mem ∧ (sendDatagram i k b s).bars = s.bars ∧
    (sendDatagram i k b s).bench = s.bench ∧ (sendDatagram i k b s).pos = s.pos ∧
    (sendDatagram i k b s).sett = s.sett ∧ (sendDatagram i k b s).vision = s.vision ∧
    (sendDatagram i k b s).vd = s.vd ∧ (sendDatagram i k b s).fabric = s.fabric ∧
    (sendDatagram i k b s).ptp = s.ptp ∧ (sendDatagram i k b s).time = s.time ∧ (sendDatagram i k b s).ilk = s.ilk ∧
    (sendDatagram i k b s).thermal = s.thermal ∧ (sendDatagram i k b s).power = s.power ∧
    (sendDatagram i k b s).cps = s.cps ∧ (sendDatagram i k b s).cairn = s.cairn ∧
    (sendDatagram i k b s).fresh = s.fresh ∧ (sendDatagram i k b s).pending = s.pending := by
  unfold sendDatagram; split
  · simp
  · split <;> simp

@[simp] theorem writeResponse_frame (s : State) (i : Nat) (r : Response) :
    (writeResponse i r s).ident = s.ident ∧ (writeResponse i r s).objs = s.objs ∧
    (writeResponse i r s).store = s.store ∧ (writeResponse i r s).mem = s.mem ∧ (writeResponse i r s).bars = s.bars ∧
    (writeResponse i r s).bench = s.bench ∧ (writeResponse i r s).pos = s.pos ∧ (writeResponse i r s).sett = s.sett ∧
    (writeResponse i r s).vision = s.vision ∧ (writeResponse i r s).vd = s.vd ∧
    (writeResponse i r s).fabric = s.fabric ∧ (writeResponse i r s).ptp = s.ptp ∧
    (writeResponse i r s).time = s.time ∧ (writeResponse i r s).ilk = s.ilk ∧
    (writeResponse i r s).thermal = s.thermal ∧ (writeResponse i r s).power = s.power ∧
    (writeResponse i r s).cps = s.cps ∧ (writeResponse i r s).cairn = s.cairn ∧
    (writeResponse i r s).fresh = s.fresh ∧ (writeResponse i r s).pending = s.pending := by
  unfold writeResponse; repeat' split
  · simp
  · simp
  · simp

@[simp] theorem settleDrain_frame (s : State) :
    (settleDrain s).ident = s.ident ∧ (settleDrain s).eth = s.eth ∧ (settleDrain s).win = s.win ∧
    (settleDrain s).objs = s.objs ∧ (settleDrain s).store = s.store ∧ (settleDrain s).mem = s.mem ∧
    (settleDrain s).bars = s.bars ∧ (settleDrain s).bench = s.bench ∧ (settleDrain s).pos = s.pos ∧
    (settleDrain s).sett = s.sett ∧ (settleDrain s).vision = s.vision ∧ (settleDrain s).vd = s.vd ∧
    (settleDrain s).fabric = s.fabric ∧ (settleDrain s).ports = s.ports ∧ (settleDrain s).ptp = s.ptp ∧
    (settleDrain s).time = s.time ∧ (settleDrain s).saddle = s.saddle ∧ (settleDrain s).ilk = s.ilk ∧
    (settleDrain s).thermal = s.thermal ∧ (settleDrain s).power = s.power ∧ (settleDrain s).cps = s.cps ∧
    (settleDrain s).cairn = s.cairn ∧ (settleDrain s).transit = s.transit ∧ (settleDrain s).fresh = s.fresh ∧
    (settleDrain s).pending = s.pending := by
  unfold settleDrain; split
  all_goals exact ⟨rfl, rfl, rfl, rfl, rfl, rfl, rfl, rfl, rfl, rfl, rfl, rfl, rfl, rfl, rfl, rfl, rfl, rfl, rfl, rfl,
     rfl, rfl, rfl, rfl, rfl⟩

@[simp] theorem dropFlight_frame (s : State) (pl : Nat) :
    (dropFlight pl s).ident = s.ident ∧ (dropFlight pl s).eth = s.eth ∧ (dropFlight pl s).win = s.win ∧
    (dropFlight pl s).objs = s.objs ∧ (dropFlight pl s).store = s.store ∧ (dropFlight pl s).mem = s.mem ∧
    (dropFlight pl s).bars = s.bars ∧ (dropFlight pl s).bench = s.bench ∧ (dropFlight pl s).pos = s.pos ∧
    (dropFlight pl s).sett = s.sett ∧ (dropFlight pl s).vision = s.vision ∧ (dropFlight pl s).vd = s.vd ∧
    (dropFlight pl s).fabric = s.fabric ∧ (dropFlight pl s).ports = s.ports ∧ (dropFlight pl s).ptp = s.ptp ∧
    (dropFlight pl s).time = s.time ∧ (dropFlight pl s).saddle = s.saddle ∧ (dropFlight pl s).ilk = s.ilk ∧
    (dropFlight pl s).thermal = s.thermal ∧ (dropFlight pl s).power = s.power ∧ (dropFlight pl s).cps = s.cps ∧
    (dropFlight pl s).cairn = s.cairn ∧ (dropFlight pl s).transit = s.transit ∧ (dropFlight pl s).fresh = s.fresh ∧
    (dropFlight pl s).pending = s.pending := by
  simp [dropFlight]

@[simp] theorem answer_frame (s : State) (op pl st : Nat) (m : Msg) (h : Option (BitVec 32)) (p : Bytes) (f : Option Nat) :
    (answer op m pl st h p f s).ident = s.ident ∧ (answer op m pl st h p f s).objs = s.objs ∧
    (answer op m pl st h p f s).store = s.store ∧ (answer op m pl st h p f s).mem = s.mem ∧
    (answer op m pl st h p f s).bars = s.bars ∧ (answer op m pl st h p f s).bench = s.bench ∧
    (answer op m pl st h p f s).pos = s.pos ∧ (answer op m pl st h p f s).sett = s.sett ∧
    (answer op m pl st h p f s).vision = s.vision ∧ (answer op m pl st h p f s).vd = s.vd ∧
    (answer op m pl st h p f s).fabric = s.fabric ∧ (answer op m pl st h p f s).ptp = s.ptp ∧
    (answer op m pl st h p f s).time = s.time ∧ (answer op m pl st h p f s).ilk = s.ilk ∧
    (answer op m pl st h p f s).thermal = s.thermal ∧ (answer op m pl st h p f s).power = s.power ∧
    (answer op m pl st h p f s).cps = s.cps ∧ (answer op m pl st h p f s).cairn = s.cairn ∧
    (answer op m pl st h p f s).fresh = s.fresh ∧ (answer op m pl st h p f s).pending = s.pending := by
  unfold answer; dsimp only; repeat' split
  all_goals simp

end Sys2Proof.Laws
end

