-- ==== Sys2Proof/Tests/Slice0.lean ====
section
/-! SUPPORT. The model's own tests. A `witness_` theorem shows, for a statement of
`Certificates/Slice0/Obligations.lean`, a state and operands that meet all the hypotheses of one of its clauses; a
`test_` theorem holds one result against a value that the spec gives. The states are those of one small press. -/

namespace Sys2Proof.Tests

set_option Elab.async false

open Sys2Proof Sys2Proof.Machine

/-! ### The press that the tests stand on -/

/-- Handle of slot 0, generation 0, of an object type (R71). -/
def h0 (ty : Nat) : BitVec 32 := mkHandle ty 0 0

/-- A PCIe message on ring 1 with seq 7 and no flag. -/
def msg (handle : BitVec 32) (payload : Bytes) : Msg := ⟨0, 1, 7, 0, handle, payload⟩

/-- A plate of format 2 (2-bit drops), 128 pixels by 64 lines, one block received, in extents 10 and 11. -/
def plate (isSealed : Bool) : Plate :=
  { format := 2, width := 128, lines := 64, isSealed := isSealed, extents := [10], digestExtents := [11], blocks := [0]
    hash := 0, damaged := false, damagedBlocks := [] }

/-- A channel of that plate: bar 0, lane 0, 2-bit drops, kernel 0, dots 0 to 127, fire_ahead 16. -/
def channel : Channel := newChannel (le 4 (h0 tyPlate).toNat ++ [0, 0, 2, 0] ++ le 4 0 ++ le 4 128 ++ le 4 0 ++ le 4 16)

/-- A run of that channel: lane 0, pitch 0, at most 10,000 lines/s, from line 1,000, 4 repeats, switch_min 100. -/
def run (st : RunState) : Run :=
  { newRun ([0, 0, 1, 0] ++ le 4 10000 ++ le 6 1000 ++ le 2 0 ++ le 4 4 ++ le 4 100 ++ le 4 0 ++ le 4 (h0 tyChannel).toNat) with
    state := st, firstLine := 1000, segs := [⟨0, 1000, 64⟩], admitted := [(h0 tyChannel, 4092, 2, 128)] }

/-- A bar table of two heads of one row of 128 nozzles, on dots 0 to 127 and 64 to 191. -/
def table : BarTable :=
  ⟨192, ⟨1, 0, 0, 0, [⟨0, 128, 0, 1, false, false, 0⟩]⟩ :: ⟨1, 64, 0, 128, [⟨0, 128, 0, 1, false, false, 0⟩]⟩ ::
    List.replicate 30 {}⟩

/-- A table of one object in slot 0. -/
def one {α : Type} (n : Nat) (a : α) : ObjTable α := ⟨[(0, a)], [(0, 0)], (List.range n).tail⟩

/-- The block booted, its mailbox running, Saddle in service, the memory trained with extents 100 to 199 free, no object. -/
def up : State :=
  let s := State.reset
  { s with
    mbx := { s.mbx with enable := true, ready := true, running := true }
    power := { s.power with hostReset := false, fieldReset := false, symbolDue := none, reportField := none }
    saddle := { s.saddle with forward := List.replicate 14 true, ret := List.replicate 6 true, approved := true,
                              hbH2F := true, hbF2H := true }
    mem := { s.mem with trained := true }
    store := { installed := 419430400, total := 200, free := (List.range 100).map (· + 100) } }

/-- That block with the bar table committed on bar 0, its driver up, its link ACTIVE, the plate, and the channel. -/
def press : State :=
  { up with
    bars := { ({} : Bar) with table := some table, driver := 1, fifo := 256 } :: List.replicate 7 {}
    sett := { up.sett with links := { ({} : Link) with state := .active, configured := true, phase := 4 } :: List.replicate 13 {} }
    objs := { up.objs with plates := one 256 (plate true), channels := one 64 channel } }

/-- The press with its channel in a run. -/
def pressRun (st : RunState) : State :=
  { press with objs := { press.objs with
    runs := one 8 (run st), channels := one 64 { channel with run := h0 tyRun } } }

/-- The press with tracking configured on encoder 0. -/
def tracked (s : State) : State := { s with pos := { s.pos with configured := true } }

/-! ### Messages, channels, runs and plates -/

theorem witness_sync_fence : admitted opSyncFence (msg 0 (zeros 4)) up = true := by decide +kernel
theorem witness_sync_echo : admitted opSyncEcho (msg 0 [1, 2, 3]) up = true := by decide +kernel

/-- chan.create beside the channel that the bar has, on the same lane. -/
def chanCreateMsg : Msg := msg 0 (le 4 (h0 tyPlate).toNat ++ [0, 0, 2, 0] ++ le 4 0 ++ le 4 128 ++ le 4 0 ++ le 4 16)

theorem witness_chan_create :
    let c := newChannel chanCreateMsg.payload
    admitted opChanCreate chanCreateMsg press = true ∧
      (plateOf press c.plate).any (·.isSealed) = true ∧ (barAt press c.bar).table.isSome = true ∧
      (press.objs.channels.live.any fun e => e.2.bar == c.bar && e.2.lane != c.lane && spansMeet e.2 c) = false ∧
      (press.objs.channels.create c).isSome = true ∧ rowDemand press c ≤ 1703936 ∧
      c.fireAhead + 72 ≤ fifoDepth press c.bar := by decide +kernel
theorem witness_chan_destroy : admitted opChanDestroy (msg (h0 tyChannel) []) press = true ∧
    (channelOf press (h0 tyChannel)).any (fun c => c.run == 0) = true := by decide +kernel
theorem witness_chan_query : admitted opChanQuery (msg (h0 tyChannel) []) press = true ∧
    (channelOf press (h0 tyChannel)).isSome = true := by decide +kernel
/-- Both where the run has not begun (repeat 3 starts 3 × 64 lines on) and where it prints, with the repeat named and not. -/
theorem witness_chan_next_plate : ∀ st ∈ [RunState.created, .printing], ∀ named ∈ [3, 0xFFFFFFFF],
    let s := pressRun st
    let c := { channel with run := h0 tyRun }
    let p := plate true
    let r := run st
    let asked := if named = 0xFFFFFFFF then 0 else named
    let target := if r.state.active then firstAhead s r c.bar asked else asked
    let len := ((plateOf s c.plate).map fun q => repeatLength q r.pitch).getD 0
    admitted opChanNextPlate (msg (h0 tyChannel) (le 4 (h0 tyPlate).toNat ++ le 4 named)) s = true ∧
      channelOf s (h0 tyChannel) = some c ∧
      plateOf s (h0 tyPlate) = some p ∧ runOf s c.run = some r ∧ r.switchMin ≠ 0 ∧
      r.admitted.find? (fun e => e.1 == h0 tyChannel) = some (h0 tyChannel, 4092, p.format, p.width) ∧
      plateSize p ≤ 4092 ∧
      (named = 0xFFFFFFFF ∨
        r.switchMin ≤ if r.state.active then repeatStart r target - c.prevSwitch else target * len) := by decide +kernel

/-- run.create of the press's channel. -/
def runCreateMsg : Msg := msg 0
  ([0, 0, 1, 0] ++ le 4 10000 ++ le 6 1000 ++ le 2 0 ++ le 4 4 ++ le 4 100 ++ le 4 0 ++ le 4 (h0 tyChannel).toNat)

theorem witness_run_create :
    let r := newRun runCreateMsg.payload
    admitted opRunCreate runCreateMsg press = true ∧
      ((runChannels press r).all fun e => e.2.run == 0) = true ∧ pitchClash press r = false ∧
      (auditLock press && !auditSlotFree press) = false ∧ (runsBarred press).isOk = true ∧
      (press.objs.runs.create r).isSome = true ∧ ((runBudgets press r).all fun b => !b.broken) = true := by decide +kernel
theorem witness_run_start :
    let s := tracked (pressRun .created)
    admitted opRunStart (msg (h0 tyRun) []) s = true ∧ (runOf s (h0 tyRun)).any (fun r => r.state == .created) = true ∧
      s.pos.configured = true ∧ (laneHas s (h0 tyRun) 0 RunState.active && laneHas s (h0 tyRun) 0 (· == .queued)) = false ∧ (runsBarred s).isOk = true := by decide +kernel
theorem witness_run_stop : ∀ st ∈ [RunState.armed, .printing],
    admitted opRunStop (msg (h0 tyRun) ([1, 0] ++ le 6 1001)) (pressRun st) = true ∧
      admitted opRunStop (msg (h0 tyRun) ([1, 0] ++ le 6 1000)) (pressRun st) = true ∧
      (runOf (pressRun st) (h0 tyRun)).any (fun r => r.state == st && r.firstLine == 1000) = true := by decide +kernel
theorem witness_run_abort : ∀ st ∈ [RunState.created, .printing],
    admitted opRunAbort (msg (h0 tyRun) []) (pressRun st) = true ∧ (runOf (pressRun st) (h0 tyRun)).isSome = true := by
  decide +kernel
theorem witness_run_destroy : ∀ st ∈ [RunState.created, .ended],
    admitted opRunDestroy (msg (h0 tyRun) []) (pressRun st) = true ∧
      (runOf (pressRun st) (h0 tyRun)).any (fun r => r.state == st) = true := by decide +kernel
theorem witness_run_query : admitted opRunQuery (msg (h0 tyRun) []) (pressRun .armed) = true ∧
    (runOf (pressRun .armed) (h0 tyRun)).isSome = true := by decide +kernel

theorem witness_plate_create :
    let m := msg 0 ([2, 0, 0, 0] ++ le 4 128 ++ le 4 64 ++ zeros 4)
    admitted opPlateCreate m up = true ∧
      (takeExtents (imageExtents 2 128 64 + digestExtents 2 128 64) up).any (fun r =>
        (r.2.objs.plates.create (plate false)).isSome) = true := by decide +kernel
/-- The press with the plate still LOADING and no channel. -/
def loading : State := { press with objs := { press.objs with plates := one 256 (plate false), channels := ObjTable.empty _ 64 } }

theorem witness_plate_data :
    admitted opPlateData (msg (h0 tyPlate) (zeros (8 + blockBytes 2 128 64 0))) loading = true ∧
      (plateOf loading (h0 tyPlate)).any (fun p => !p.isSealed) = true := by decide +kernel
theorem witness_plate_read : ∀ s ∈ [press, loading], admitted opPlateRead (msg (h0 tyPlate) (zeros 8)) s = true ∧
    (plateOf s (h0 tyPlate)).any (fun p => p.isSealed || p.blocks.contains 0) = true := by decide +kernel
theorem witness_plate_seal : admitted opPlateSeal (msg (h0 tyPlate) []) loading = true ∧
    (plateOf loading (h0 tyPlate)).any (fun p => !p.isSealed && missingBlock p == none) = true := by decide +kernel
theorem witness_plate_destroy : admitted opPlateDestroy (msg (h0 tyPlate) []) loading = true ∧
    (plateOf loading (h0 tyPlate)).isSome = true ∧ plateRefs loading (h0 tyPlate) = 0 := by decide +kernel
theorem witness_plate_query : admitted opPlateQuery (msg (h0 tyPlate) []) press = true ∧
    (plateOf press (h0 tyPlate)).isSome = true := by decide +kernel
theorem witness_plate_store_query : admitted opPlateStoreQuery (msg 0 []) press = true := by decide +kernel

/-! ### Bench tables and geometry -/

theorem witness_bench_tone_write :
    admitted opBenchToneWrite (msg (h0 tyChannel) (le 2 4095 ++ le 2 1 ++ zeros 4 ++ le 2 4095)) press = true := by
  decide +kernel
theorem witness_bench_nozzle_write :
    let m := msg 0 ([0, 31, 0, 0] ++ le 4 255 ++ le 2 1 ++ zeros 2 ++ le 4 0x8000)
    admitted opBenchNozzleWrite m press = true ∧ (barAt press 0).table.isSome = true ∧
      (byteAt m.payload 1 % 4 ≠ 0 → ∀ j < u16 m.payload 8, loopHolds press 0 (u32 m.payload 4 + j) = false) := by
  decide +kernel
/-- In a run, within budget 16; and without one. -/
theorem witness_bench_screen_define :
    let v : Screen := ⟨true, 4, 8, 1, 2, []⟩
    let m := msg (h0 tyChannel) [1, 4, 8, 1, 2, 0, 0, 0]
    admitted opBenchScreenDefine m (pressRun .armed) = true ∧ admitted opBenchScreenDefine m press = true ∧
      (channelOf press (h0 tyChannel)).any (fun c => c.run == 0) = true ∧
      (channelOf (pressRun .armed) (h0 tyChannel)).any (fun c => c.run != 0 &&
        laneDemand (pressRun .armed) [] (fun _ h d => if d.bar ≠ c.bar then 0 else
          screenDemand (pressRun .armed) d (newestScreen d (if h = h0 tyChannel then some v else d.screenStaged))) ≤ 1048576) = true := by
  decide +kernel
/-- The press with a custom screen of 16 by 16 cells staged. -/
def custom : State := setChannel press (h0 tyChannel) fun c => { c with screenStaged := some ⟨true, 4, 4, 0, 0, []⟩ }

theorem witness_bench_screen_write :
    admitted opBenchScreenWrite (msg (h0 tyChannel) (le 2 255 ++ le 2 1 ++ zeros 4 ++ le 2 1 ++ le 2 2 ++ le 2 3 ++ le 2 0)) custom = true ∧
      (channelOf custom (h0 tyChannel)).any (fun c => (stagedScreen c).custom) = true := by decide +kernel
theorem witness_bench_subst_write :
    admitted opBenchSubstWrite (msg 0 ([0, 15, 1, 0] ++ zeros 4 ++ le 4 0x44)) press = true := by decide +kernel
theorem witness_bench_stitch_write :
    admitted opBenchStitchWrite (msg 0 ([0, 0] ++ le 2 255 ++ le 2 1 ++ zeros 2 ++ le 2 256)) press = true := by decide +kernel
theorem witness_bench_dropmap_write :
    admitted opBenchDropmapWrite (msg (h0 tyChannel) (le 4 0x3210)) press = true := by decide +kernel

/-- bench.commit of all tables of the channel, at the first line possible. -/
def commitMsg : Msg := msg (h0 tyChannel) ([0x3F, 0xFF, 0, 0] ++ le 6 0xFFFFFFFFFFFF ++ zeros 2)
/-- A channel's tone staged, in a run of the state given. -/
def staged (st : RunState) : State := setChannel (pressRun st) (h0 tyChannel) fun c => { c with toneStaged := [(5, 9)] }

theorem witness_bench_commit_now :
    let s := staged .created
    admitted opBenchCommit commitMsg s = true ∧
      (((maskTables 0x3F).filter (hasStaged s 0 (h0 tyChannel) 0)).filter fun k =>
        if k < 3 then channelActive s (h0 tyChannel) else barActive s 0) = [] := by decide +kernel
theorem witness_bench_commit_armed :
    let s := staged .printing
    let timed := ((maskTables 0x3F).filter (hasStaged s 0 (h0 tyChannel) 0)).filter fun k =>
      if k < 3 then channelActive s (h0 tyChannel) else barActive s 0
    admitted opBenchCommit commitMsg s = true ∧ timed ≠ [] ∧ (planLine s 0 (h0 tyChannel) timed none).isSome = true := by
  decide +kernel
theorem witness_bench_discard : admitted opBenchDiscard (msg (h0 tyChannel) [0x3F, 0xFF, 0, 0]) press = true ∧
    admitted opBenchDiscard (msg 0 [0x38, 0, 0, 0]) press = true ∧ byteAt [0x38, 0, 0, 0] 0 % 8 = 0 := by decide +kernel
theorem witness_bench_read : admitted opBenchRead (msg (h0 tyChannel) ([0, 0, 0xFF, 0] ++ le 4 4095 ++ le 4 1)) press = true ∧
    admitted opBenchRead (msg 0 ([3, 0, 0, 0] ++ le 4 0 ++ le 4 1)) press = true := by decide +kernel
theorem witness_bench_status : admitted opBenchStatus (msg 0 []) up = true := by decide +kernel
theorem witness_bench_rotation : ∀ p ∈ [0, 10, 3600], admitted opBenchRotation (msg 0 (le 2 p ++ zeros 2)) up = true := by
  decide +kernel

theorem witness_bar_geom_write : admitted opBarGeomWrite
    (msg 0 ([7, 1, 0, 0] ++ ([31, 1] ++ le 2 1 ++ le 4 0 ++ le 4 0 ++ le 4 0) ++
      (le 2 0 ++ le 2 128 ++ le 2 0 ++ [1, 0] ++ zeros 8))) up = true := by decide +kernel
theorem witness_bar_geom_commit :
    let s := setBar up 0 fun b => { b with staged := [(0, ⟨1, 0, 0, 0, [⟨0, 128, 0, 1, false, false, 0⟩]⟩)] }
    admitted opBarGeomCommit (msg 0 ([0, 0, 0, 0] ++ le 4 128)) s = true ∧
      commitRefusal (s.objs.channels.live.any fun e => e.2.bar == 0) (stagedTable (barAt s 0) 128) = none := by
  decide +kernel
theorem witness_bar_query : admitted opBarQuery (msg 0 (zeros 4)) press = true ∧ (barAt press 0).table = some table := by
  decide +kernel
theorem witness_head_query : admitted opHeadQuery (msg 0 [0, 1, 0, 0]) press = true ∧ (barAt press 0).table = some table := by
  decide +kernel
theorem witness_head_blank : admitted opHeadBlank (msg 0 (zeros 4 ++ le 4 3)) press = true ∧
    (barAt press 0).table = some table := by decide +kernel
theorem witness_head_unblank : admitted opHeadUnblank (msg 0 (zeros 4 ++ le 4 3)) press = true ∧
    (barAt press 0).table = some table := by decide +kernel
theorem witness_head_band_map : admitted opHeadBandMap (msg 0 (zeros 4 ++ le 4 3 ++ zeros 24)) press = true ∧
    (barAt press 0).table = some table := by decide +kernel
theorem witness_bar_fire_enable : admitted opBarFireEnable (msg 0 [0xFF, 1, 0, 0]) press = true ∧
    ∀ b < 8, bit 0xFF b = true → bit 1 b = true → (barAt press b).table.isSome = true := by decide +kernel

/-! ### The dot path -/

/-- The press printing: bar 0 screens line 1001, packs line 1000 and fires line 1000 next, at the start of the web. -/
def printing (f : Bar → Bar) : State :=
  setBar (tracked (pressRun .printing)) 0 fun b => f { b with nextOut := some 1001, nextPack := some 1000, nextFire := some 1000 }

theorem witness_output_line_screen :
    let s := { printing id with pos := { (printing id).pos with phi32 := 990 * 2 ^ 32 } }
    (barAt s 0).nextOut = some 1001 ∧ (barAt s 0).table = some table ∧ benchServes s 0 = true ∧ mayScreen s 0 1001 = true ∧
      decisionDue s 0 1001 = false := by decide +kernel
theorem witness_fire_line_pack :
    let s := { printing id with pos := { (printing id).pos with phi32 := 990 * 2 ^ 32 }
                                sett := { (printing id).sett with links := modAt (printing id).sett.links 0 fun n => { n with fireLimit := 1000 } } }
    (barAt s 0).nextPack = some 1000 ∧ (barAt s 0).nextOut = some 1001 ∧ (barAt s 0).table = some table ∧ mayHand s 0 1000 = true ∧
      twoAhead s 0 1000 = true ∧ ((1000 : Nat) : Int) ≤ barPos s 0 + (fifoDepth s 0 : Int) - 8 ∧ benchless s 0 = false := by decide +kernel
theorem witness_fire_line_pack_blank :
    let s := { printing id with pos := { (printing id).pos with phi32 := 990 * 2 ^ 32 }
                                bench := { (printing id).bench with bench := List.replicate 9 {} }
                                sett := { (printing id).sett with links := modAt (printing id).sett.links 0 fun n => { n with fireLimit := 1000 } } }
    (barAt s 0).nextPack = some 1000 ∧ (barAt s 0).nextOut = some 1001 ∧ (barAt s 0).table = some table ∧ mayHand s 0 1000 = true ∧
      twoAhead s 0 1000 = true ∧ ((1000 : Nat) : Int) ≤ barPos s 0 + (fifoDepth s 0 : Int) - 8 ∧ benchless s 0 = true := by
  decide +kernel
theorem witness_line_deadline :
    let s := { printing id with pos := { (printing id).pos with phi32 := 998 * 2 ^ 32 }
                                sett := { (printing id).sett with links := modAt (printing id).sett.links 0 fun n => { n with fireLimit := 1000 } } }
    (barAt s 0).nextPack = some 1000 ∧ (barAt s 0).nextOut = some 1001 ∧ (barAt s 0).table = some table ∧ mayHand s 0 1000 = true ∧
      twoAhead s 0 1000 = false := by
  decide +kernel
theorem witness_fire_instant :
    let s := { printing id with pos := { (printing id).pos with phi32 := 1000 * 2 ^ 32 } }
    (barAt s 0).nextFire = some 1000 ∧ fireAt { barAt s 0 with trim4 := nextTrim (barAt s 0) } (barQ s 0) 1000 ≤ s.pos.phi32 := by
  decide +kernel
theorem witness_switch_decision :
    (pressRun .printing).objs.runs.at? 0 = some (run .printing) ∧ (run .printing).state.active = true := by decide +kernel
theorem witness_plate_switched :
    let d : Decided := ⟨h0 tyPlate, 1, 1001⟩
    let s := setChannel (printing id) (h0 tyChannel) fun c => { c with decided := [d] }
    let c := { channel with run := h0 tyRun, decided := [d] }
    s.objs.channels.at? 0 = some c ∧ (barAt s c.bar).nextOut = some 1001 ∧ d.line ≤ 1001 + leastSkew s c.bar ∧
      switchPrints s c.run d.line = true := by decide +kernel
theorem witness_table_switched :
    let s := printing fun b => { b with switches := [⟨0, 0, 0, 7, 8, []⟩] }
    ((barAt s 0).switches.filter fun w => (w.line : Int) ≤ barPos s 0) ≠ [] := by decide +kernel

/-! ### Benches, heads and sequencers -/

/-- BENCH8 has loaded bar 0's tables and shadows bench 0; `n` of its lines have matched. -/
def shadowing (n : Nat) : State :=
  let s := setBench up 8 fun e => { e with role := .shadowing 0, matched := n }
  { s with time := { s.time with clock := 120000000000 } }

theorem witness_bench_fault : (benchAt up 8).role ≠ .removed := by decide +kernel
theorem witness_spare_takeover :
    let s := { shadowing 1 with bench := { (shadowing 1).bench with takeovers := [(0, 0)] } }
    s.bench.takeovers.find? (fun e => e.1 == (0 : Fin 8).val) = some (0, 0) ∧ spareBench s = some 8 := by decide +kernel
theorem witness_shadow_mismatch : shadowed (shadowing 1) = some (8, 0) ∧ workingOn (shadowing 1) 0 = some 0 := by decide +kernel
theorem witness_rotation_period :
    shadowed (shadowing 1) = some (8, 0) ∧ (shadowing 1).bench.periodEnd ≤ (shadowing 1).time.clock ∧
      (shadowing 1).thermal.step = 0 ∧ (shadowing 1).bench.period ≠ 0 ∧ workingOn (shadowing 1) 0 = some 0 ∧
      (benchAt (shadowing 1) 8).matched ≠ 0 := by decide +kernel
theorem witness_bench_test_done : (benchAt (setBench up 8 fun e => { e with role := .testing true }) 8).role = .testing true := by
  decide +kernel
theorem witness_spare_load_done : loadingSpare up = some (8, 0) ∧ loanWanted up 0 = false := by decide +kernel

/-- Head 0 of bar 0 accepted and reported at clock 0, with causes and a head limit of 60.0 degrees, 300 ms later. -/
def headed (causes : List Nat) : State :=
  let s := setHead press 0 0 fun h => { h with accepted := true, reported := some true, reportAt := some 0, causes := causes }
  { setBar s 0 fun b => { b with headLimit := some 600 } with time := { s.time with clock := 300000000 } }

theorem witness_head_report_missing :
    (headAt (headed []) 0 0).accepted = true ∧ (headAt (headed []) 0 0).reportAt = some 0 ∧
      0 + 300000000 ≤ (headed []).time.clock ∧ (barAt (headed []) 0).headLimit.isSome = true := by decide +kernel
theorem witness_head_lost : (headAt (headed []) 0 0).accepted = true := by decide +kernel
theorem witness_head_blanked :
    (headAt (headed [7]) 0 0).causes ≠ [] ∧ (headAt (headed [7]) 0 0).blank = false := by decide +kernel
theorem witness_head_blanked_resuming :
    let s := setHead (headed [7]) 0 0 fun h => { h with blank := true, outFrom := some 5, resumeAt := some 9 }
    (headAt s 0 0).causes ≠ [] ∧ (headAt s 0 0).resumeAt ≠ none := by decide +kernel
theorem witness_head_resumed :
    let s := setHead (headed []) 0 0 fun h => { h with blank := true }
    (headAt s 0 0).causes = [] ∧ (headAt s 0 0).blank = true ∧ (headAt s 0 0).resumeAt = none := by decide +kernel

/-- The sequencers, with a test under way. -/
def sequencers (test : Option (Nat × Nat)) (former : Bool) : State :=
  { up with bench := { up.bench with lsTest := test, lsFormerTest := former } }

theorem witness_ls_mismatch : up.bench.lsRemoved = false ∧ up.bench.lsFormerTest = false ∧ up.bench.lsTest = none := by
  decide +kernel
theorem witness_lsb_test_done : (sequencers (some (1, 0)) false).bench.lsTest = some (1, 0) ∧
    (sequencers none true).bench.lsTest = none ∧ (sequencers none true).bench.lsFormerTest = true := by decide +kernel
theorem witness_lsa_stop : up.bench.lsRemoved = false ∧ up.bench.lsFormerTest = false := by decide +kernel

/-! ### Web position, compares, marks, emulated outputs and cascade -/

theorem witness_pos_encoder_config : admitted opPosEncoderConfig (msg 0 [3, 3, 255, 3, 0, 0, 0, 0]) up = true ∧
    (webInput up 3 && anyActive up) = false := by decide +kernel
/-- Outside every run; and in one, with source, role and ratio as they are. -/
theorem witness_pos_track_config :
    let b : Bytes := [0, 0, 15, 6] ++ le 2 1000 ++ le 2 2000 ++ le 6 1 ++ le 6 1 ++ [64, 1, 0, 0]
    let s := tracked (pressRun .printing)
    admitted opPosTrackConfig (msg 0 b) up = true ∧ anyActive up = false ∧ admitted opPosTrackConfig (msg 0 b) s = true ∧
      s.pos.configured = true ∧ s.pos.source = byteAt b 0 ∧ s.pos.role = byteAt b 1 ∧ s.pos.num = u48 b 8 ∧
      s.pos.den = u48 b 14 := by decide +kernel
theorem witness_pos_query : admitted opPosQuery (msg 0 []) up = true := by decide +kernel
theorem witness_pos_set :
    let s := tracked up
    admitted opPosSet (msg 0 (le 6 5 ++ zeros 2)) s = true ∧ s.pos.configured = true ∧ s.pos.role ≠ 2 ∧ anyActive s = false ∧
      webCompareArmed s = false := by decide +kernel
theorem witness_pos_trim : admitted opPosTrim (msg 0 ([0x81, 0, 0, 0] ++ [127, 0, 0, 0, 0, 0, 0, 128])) up = true := by
  decide +kernel
theorem witness_pos_mark_config : admitted opPosMarkConfig (msg 0 ([1, 7, 255, 0] ++ le 4 (2 ^ 24 - 1) ++ zeros 16)) up = true := by
  decide +kernel
theorem witness_pos_emu_config :
    admitted opPosEmuConfig (msg 0 ([3, 1, 3, 3] ++ le 4 (2 ^ 24) ++ le 4 1 ++ le 4 4 ++ le 2 100 ++ zeros 6)) up = true := by
  decide +kernel
/-- Frozen by encoder 0, whose fault has been absent for the 10 ms of R235. -/
theorem witness_pos_fault_clear :
    let s := tracked up
    let e := setEnc { s with pos := { s.pos with frozen := true, frozenBy := [0] }, time := { s.time with clock := 10000000 } } 0 fun e =>
      { e with mode := 1, absentSince := some 0 }
    admitted opPosFaultClear (msg 0 []) e = true ∧ faultStands e = false ∧ e.pos.frozen = true ∧
      admitted opPosFaultClear (msg 0 []) up = true ∧ faultStands up = false ∧ up.pos.frozen = false := by decide +kernel

/-- A compare of the source, input and direction given, with events and no pulse, disarmed. -/
def compare (source input dir : Nat) : Trigger :=
  { kind := .compare source input dir true false 0 1 0 0, armed := false, value := 0, hits := 0, armHits := 0, skipped := 0
    lastHit := 0, next16 := 0, eventAts := [] }
/-- The block with that compare in slot 0. -/
def comparing (source input dir : Nat) : State :=
  let s := tracked up
  { s with objs := { s.objs with triggers := one 128 (compare source input dir) } }

theorem witness_cmp_create :
    admitted opCmpCreate (msg 0 ([1, 3, 2, 3, 3, 0] ++ le 2 65535 ++ le 8 0 ++ le 4 0 ++ zeros 4)) up = true ∧
      (up.objs.triggers.create (compare 1 3 2)).isSome = true := by decide +kernel
/-- Ahead (forward from 0 to 1), at the present position, and behind (backward from 0 to 1). -/
theorem witness_cmp_arm :
    (∀ c ∈ [(0, 0, 0), (1, 3, 0), (1, 3, 1), (1, 3, 2)],
      admitted opCmpArm (msg (h0 tyTrigger) (le 8 1)) (comparing c.1 c.2.1 c.2.2) = true ∧
      triggerOf (comparing c.1 c.2.1 c.2.2) (h0 tyTrigger) = some (compare c.1 c.2.1 c.2.2)) ∧
    lateness (comparing 0 0 0) 0 0 0 1 = none ∧ lateness (comparing 0 0 0) 0 0 0 0 = some 0 ∧
    lateness (comparing 1 3 0) 1 3 0 1 = none ∧ lateness (comparing 1 3 0) 1 3 0 (-1) = some 1 ∧
    lateness (comparing 1 3 1) 1 3 1 1 = some 1 ∧ lateness (comparing 1 3 2) 1 3 2 0 = none := by decide +kernel
theorem witness_cmp_disarm : admitted opCmpDisarm (msg (h0 tyTrigger) []) (comparing 0 0 0) = true := by decide +kernel
theorem witness_cmp_destroy : admitted opCmpDestroy (msg (h0 tyTrigger) []) (comparing 0 0 0) = true ∧
    (triggerOf (comparing 0 0 0) (h0 tyTrigger)).any (fun t => !t.armed) = true := by decide +kernel
theorem witness_cmp_query : admitted opCmpQuery (msg (h0 tyTrigger) []) (comparing 0 0 0) = true ∧
    (triggerOf (comparing 0 0 0) (h0 tyTrigger)).isSome = true := by decide +kernel

/-- Tracking on encoder 0, which counts in mode x4 (R194), with its fields changed. -/
def counting (f : Encoder → Encoder) : State := setEnc (tracked up) 0 fun e => f { e with mode := 3 }

/-- Four samples accept a level at N = 4, three do not (R193); both in one burst, A before B where A had one already. -/
theorem witness_encoder_burst :
    let f : Filter := { level := false, raw := false, run := 255 }
    let g : Filter := { level := false, raw := true, run := 1 }
    acceptAt 4 f true 3 = none ∧ acceptAt 4 f true 4 = some 4 ∧ acceptAt 4 f false 9 = none ∧ acceptAt 4 g true 3 = some 3 ∧
      (3 : Nat) < 4 := by decide +kernel
/-- A rises while B is low: forward; B rises first: backward (R194). -/
theorem witness_encoder_count : edgeCount (encAt (counting id) 0) true true false = 1 ∧
    edgeCount (encAt (counting id) 0) false false true = -1 := by decide +kernel
theorem witness_z_edge : (encAt (counting id) 0).mode ≠ 0 ∧
    acceptAt (encAt (counting id) 0).filter (encAt (counting id) 0).z true 4 ≠ none := by decide +kernel
theorem witness_enc_fault : (encAt (counting id) 0).mode ≠ 0 ∧ hasCause false (encAt (counting id) 0) = false ∧
    hasCause true (encAt (counting id) 0) = false ∧
    manyIllegal (encAt (counting fun e => { e with illegalAt := [9, 8, 7, 6], steps := 9 }) 0) = true ∧
    webInput (counting id) 0 = true ∧ webInput (counting id) 1 = false := by decide +kernel
/-- One cause of two does not end the fault; the last one does. -/
theorem witness_enc_fault_clears :
    let e := encAt (counting fun e => { e with loss := true }) 0
    hasCause false e = true ∧ faulty (withCause false false e) = false ∧ freezes (counting id) 0 = true ∧
      freezes (counting id) 3 = false ∧ faulty (withCause false false { e with garbled := true }) = true := by decide +kernel
theorem witness_standstill :
    let s := { tracked up with pos := { (tracked up).pos with still := false, stamps := [5, 1] }, time := { up.time with clock := 20000005 } }
    s.pos.stamps = 5 :: [1] ∧ s.pos.configured = true ∧ s.pos.role ≠ 2 ∧ s.pos.still = false ∧
      5 + 1000000 * s.pos.standstillMs ≤ s.time.clock := by decide +kernel
/-- One microsecond on (R205). -/
def later (s : State) : State := { s with time := { s.time with clock := 1000 } }

theorem witness_loop_update : (later up).pos.loopAt + 1000 ≤ (later up).time.clock := by decide +kernel
theorem witness_emu_edge :
    let s := setEmu (counting fun e => { e with count := -3 }) 0 fun o => { o with source := 1 }
    (emuOwed s (emuAt s 0)).natAbs ≤ 4096 ∧ emuOwed s (emuAt s 0) ≠ 0 ∧
      due (emuAt s 0).edgeAt (emuAt s 0).minEdge s.time.clock = true := by decide +kernel

/-- A device of the cascade: role 1 press master, 2 follower, 100 µs after its start. -/
def cascade (role : Nat) : State :=
  let s := tracked up
  { s with pos := { s.pos with role := role, source := if role = 2 then 4 else 0, rxAt := some 0 }, time := { s.time with clock := 100000 } }
/-- A position word of 8 bytes with its CRC-16 (R229). -/
def word : Bytes := zeros 8 ++ le 2 (crcMsb (0x1021#16) (0xFFFF#16) (zeros 8)).toNat

theorem witness_position_word_send : (cascade 1).pos.configured = true ∧ (cascade 1).pos.role = 1 ∧
    (cascade 1).pos.wordAt + 50000 ≤ (cascade 1).time.clock := by decide +kernel
/-- A state whose lane `l` has the control block `b` next, polarity settled, with its receiver and link as given. -/
def arriving (s : State) (l : Nat) (b : Bytes) : State :=
  let scr := (laneAt s l).rxScr
  let wire := fit 1 b ++ ((scramble scr true b).1).drop 1
  setLane s l fun x => { x with rx := [⟨true, false, wire, false⟩], settled := true }

/-- The block that stands next on lane `l`, as it reads. -/
def arrived (s : State) (l : Nat) : Option (Bool × Bool × Bool × Bytes) :=
  (laneAt s l).next?.map fun r => (r.h0, r.h1, (laneAt s l).settled, (scramble (laneAt s l).rxScr true r.payload).1)

theorem witness_position_word_receive :
    let b : Bytes := [0x66, 2] ++ word ++ zeros 4
    arrived (arriving (cascade 2) 22 b) 22 = some (true, false, true, b) ∧ follower (cascade 2) = true ∧ slice b 2 10 = word := by
  decide +kernel
theorem witness_position_word_crc : word.length = 10 ∧
    crcMsb (0x1021#16) (0xFFFF#16) (word.take 8) = BitVec.ofNat 16 (u16 word 8) ∧
    crcMsb (0x1021#16) (0xFFFF#16) ((zeros 10).take 8) ≠ BitVec.ofNat 16 (u16 (zeros 10) 8) := by decide +kernel
theorem witness_cascade_word_timeout : follower (cascade 2) = true ∧ (cascade 2).pos.rxAt = some 0 ∧
    0 + 100000 ≤ (cascade 2).time.clock := by decide +kernel
/-- Within its window and outside, with the ignored stretch of the last mark just ended. -/
theorem witness_mark : ∀ expect ∈ [0, 1000],
    let s := setMark (tracked up) 0 fun m => { m with enable := true, window := true, expect := expect, ignoreTo := some 0 }
    let s0 := markMissed s 0
    let m := markAt s0 0
    m.enable = true ∧ m.falling = false ∧ m.ignoreTo = some 0 ∧ ((0 : Nat) : Int) ≤ thetaMark s0 ∧
      (m.window && m.halfWidth < distInt (thetaMark s0) m.expect) = (expect == 1000) := by decide +kernel

/-! ### SETT links -/

/-- Link k in the state given, 1 s after its pass began. -/
def linked (k : Nat) (st : LinkState) (f : Link → Link) : State :=
  let s := setLink up k fun n => f { n with state := st, configured := true }
  { s with time := { s.time with clock := 1000000000 } }

theorem witness_sett_config :
    (∀ b ∈ [[13, 0, 1, 7, 0, 0, 0, 0], [0, 2, 0, 0xFF, 0, 0, 0, 0]], admitted opSettConfig (msg 0 b) up = true) ∧
      linkInUse up 13 = false ∧ spareInUse up 13 = false ∧ (linkAt up 13).state = .disabled := by decide +kernel
theorem witness_sett_config_enabled : ∀ on ∈ [0, 1],
    let s := linked 0 .active id
    admitted opSettConfig (msg 0 [0, 2, on, 0xFF, 0, 0, 0, 0]) s = true ∧ linkInUse s 0 = false ∧ spareInUse s 0 = false ∧
      (linkAt s 0).state ≠ .disabled ∧ 2 ≠ (linkAt s 0).rateCfg := by decide +kernel
theorem witness_sett_query : admitted opSettQuery (msg 0 [13, 0, 0, 0]) up = true ∧ (linkAt up 13).partner.length = 16 ∧
    ∀ l, (laneAt up l).partnerEye.length = 8 := by
  refine ⟨by decide +kernel, by decide +kernel, fun l => ?_⟩
  show ((List.replicate 24 ({} : Lane)).getD l {}).partnerEye.length = 8
  have h : ∀ x ∈ List.replicate 24 ({} : Lane), x = {} := fun x hx => List.eq_of_mem_replicate hx
  simp only [List.getD_eq_getElem?_getD]
  cases e : (List.replicate 24 ({} : Lane))[l]? with
  | none => rfl
  | some x => rw [Option.getD_some, h x (List.mem_of_getElem? e)]; rfl
theorem witness_sett_retrain : admitted opSettRetrain (msg 0 [0, 0, 0, 0]) (linked 0 .active id) = true ∧
    (linkAt (linked 0 .active id) 0).state ≠ .disabled ∧ linkInUse (linked 0 .active id) 0 = false := by decide +kernel
theorem witness_sett_remap :
    let s := linked 7 .active id
    admitted opSettRemap (msg 0 [7, 1, 0, 0]) s = true ∧ (freeCore s).isSome = true := by decide +kernel
theorem witness_sett_remap_return : ∀ st ∈ [LinkState.active, .offline],
    let r := linked 7 st fun n => { n with remaps := [(16, 0, 1)] }
    admitted opSettRemap (msg 0 [7, 1, 1, 0]) r = true ∧ (16, 0, 1) ∈ (linkAt r 7).remaps ∧
      (linkAt r 7).state = st ∧ (linkAt r 7).lanePass = none := by decide +kernel

/-- Link 0 in a training pass of the phase given, its two lanes changed. -/
def training (phase : Nat) (f : Lane → Lane) : State :=
  let s := linked 0 .training fun n => { n with pass := true, phase := phase, echoes := 16 }
  setLane (setLane s 0 f) 1 f

/-- A line of any bits leaves a lane in hunt unlocked; the last bit of the 64th block locks the lane. -/
theorem witness_lane_alignment :
    let block := [true, false] ++ (List.replicate 64 [true, false]).flatten
    let s := training 0 fun x => { x with align := .try 63 }
    let after := fun (line : List Bool) => laneAt (setLane s 0 fun x => line.foldl (Lane.takeBit s.time.clock) x) 0
    (linkAt s (linkOf 0)).state ≠ .disabled ∧ (laneAt s 0).isLocked = false ∧ (after []).isLocked = false ∧
      (after block).isLocked = true := by decide +kernel
theorem witness_header : ∀ bad ∈ [List.replicate 14 true, List.replicate 15 true],
    let l : Lane := { align := .locked bad }
    ({ align := .try 62 } : Lane).align = .try 62 ∧ ({ align := .try 63 } : Lane).align = .try 63 ∧
      ({} : Lane).align = .hunt ∧ ({} : Lane).isLocked = false ∧ l.align = .locked bad ∧
      ((((true :: bad).take 64).filter id).length < 16 ∨ 16 ≤ (((true :: bad).take 64).filter id).length) := by
  decide +kernel
/-- A TS1 block of logical lane 0 in phase 1 with seed 1, and its complement (R246). -/
def ts1Block : Bytes := [0x1E, 0x10, 0, 0] ++ le 4 1 ++ zeros 8

theorem witness_ts1 :
    let s := setLane (training 0 id) 0 fun x => { x with rx := [⟨true, false, ts1Block, false⟩] }
    (laneAt s 0).next? = some ⟨true, false, ts1Block, false⟩ ∧ byteAt ts1Block 0 = 0x1E ∧ (linkLanes (linkOf 0)).length = 2 ∧
      (linkLanes (linkOf 0)).head? = some 0 ∧ (linkAt s (linkOf 0)).pass = true ∧ (linkAt s (linkOf 0)).phase = 0 := by
  decide +kernel
/-- A block of an inverted lane: it passes as an inverted TS1, the second in a row and the first, and it does not. -/
theorem witness_ts1_inverted : ∀ n ∈ [0, 1], ∀ seed ∈ [1, 0],
    let b : Bytes := complement ([0x1E, 0x10, 0, 0] ++ le 4 seed ++ zeros 8)
    let s := setLane (training 0 id) 0 fun x => { x with rx := [⟨false, true, b, false⟩], ts1InvRun := n }
    (laneAt s 0).next? = some ⟨false, true, b, false⟩ ∧ byteAt b 0 = 0xE1 ∧ (laneAt s 0).settled = false ∧
      ts1Ok (complement b) = (seed == 1) ∧ (laneAt s 0).ts1InvRun = n := by decide +kernel
theorem witness_ts2 :
    let b : Bytes := [0x2D, 1, 1] ++ zeros 13
    let s := arriving (training 1 id) 0 b
    arrived s 0 = some (true, false, true, b) ∧ byteAt b 0 = 0x2D ∧ lanePhase s 0 = some 1 ∧
      byteAt b 2 ≠ (laneAt s 0).ts2Seq ∧ (laneAt s 0).ts2Any = false := by decide +kernel
theorem witness_config : ∀ l ∈ [0, 18],
    let b : Bytes := [0x3C, 0, 0, 0] ++ le 2 256 ++ zeros 10
    let s0 := linked (linkOf l) .training fun n => { n with pass := true, phase := 2 }
    let s := arriving s0 l b
    arrived s l = some (true, false, true, b) ∧ byteAt b 0 = 0x3C ∧ lanePhase s l = some 2 ∧ 256 ≤ u16 b 4 := by decide +kernel
theorem witness_lat : ∀ echo ∈ [0, 1],
    let b : Bytes := [0x47, echo] ++ zeros 14
    let s := setLink (arriving (training 3 id) 0 b) 0 fun n => { n with probes := [0] }
    arrived s 0 = some (true, false, true, b) ∧ byteAt b 0 = 0x47 ∧ lanePhase s 0 = some 3 ∧
      (linkAt s (linkOf 0)).probes.contains (u32 b 4) = true := by decide +kernel
theorem witness_training_phase_advance :
    let s := fun (ph : Nat) => training ph fun x => { x with
      align := .locked [], seedOk := true, idleRun := 8, settled := true, rxLocked := true, rxSeed := true, partnerDone := true
      ownDone := true, rxPhase := 4 }
    (∀ ph < 5, trainGroup (s ph) 0 = some (linkLanes 0, ph)) ∧ (∀ l ∈ linkLanes 0, alignDone (laneAt (s 0) l) = true) ∧
      (∀ l ∈ linkLanes 0, (laneAt (s 1) l).partnerDone = true ∧ (laneAt (s 1) l).ownDone = true) := by decide +kernel
theorem witness_training_phase_advance_late :
    let s := fun (ph : Nat) => setLink (training ph fun x => { x with rxPhase := 4 }) 0 fun n => { n with configs := 4 }
    4 ≤ (linkAt (s 2) 0).configs ∧ 16 ≤ (linkAt (s 3) 0).echoes ∧ (linkAt (s 4) 0).pass = true ∧
      (∀ l ∈ linkLanes 0, (laneAt (s 2) l).rxPhase = 4) ∧ ∀ l ∈ linkLanes 0, (laneAt (s 4) l).rxPhase = 4 := by decide +kernel
/-- The same of a returning lane, which trains alone, and of the retry of its pass. -/
theorem witness_lane_pass : ∀ failed ∈ [false, true],
    let s := linked 0 .active fun n => { n with lanePass := some (1, 0, 0, failed) }
    (linkAt s 0).pass = false ∧ (linkAt s 0).state = .active ∧ (linkAt s 0).lanePass = some (1, 0, 0, failed) ∧
      0 + 500000000 ≤ s.time.clock ∧ trainGroup s 0 = if failed then none else some ([1], 0) := by decide +kernel
theorem witness_training_timeout : (linkAt (training 0 id) 0).pass = true ∧
    (linkAt (training 0 id) 0).passAt + 100000000 ≤ (training 0 id).time.clock := by decide +kernel
theorem witness_training_retry : ∀ st ∈ [LinkState.offline, .refused],
    (linkAt (linked 0 st id) 0).pass = false ∧ (linkAt (linked 0 st id) 0).state = st ∧
      (linkAt (linked 0 st id) 0).passAt + 500000000 ≤ (linked 0 st id).time.clock := by decide +kernel

/-- Link 0 ACTIVE with lane 0 LOCKED. -/
def active (f : Lane → Lane) : State :=
  let s := linked 0 .active id
  setLane s 0 fun x => f { x with align := .locked [], settled := true }
/-- A packet of the type and reserved byte given with a body of 4 bytes and its CRC-32C (R254). -/
def packet (type r : Byte) : Bytes :=
  let b : Bytes := [type, r] ++ le 2 4 ++ zeros 4
  b ++ le 4 (crc32c b).toNat

theorem witness_packet_receive :
    (linkAt (active id) (servedLink (active id) 0)).state = .active ∧ servedLink (active id) 0 = 0 ∧
      (∀ p ∈ [packet 0x24 0, packet 0x24 1, packet 0x25 0], firstPacket (p ++ [1, 2]) = some (true, p)) ∧
      firstPacket [0x24, 0, 8, 0] = none ∧ firstPacket [0x24, 0, 7, 0] = some (false, [0x24, 0, 7, 0]) ∧
      typeOk 0 0x24 = true ∧ typeOk 0 0x25 = false := by
  decide +kernel
theorem witness_ack : ∀ seq ∈ [6, 7, 9], ∀ flags ∈ [0, 1],
    let b : Bytes := [0x55, seq, 0, flags] ++ zeros 12
    let s := arriving (active fun x => { x with kept := [(5, []), (6, [])], txSeq := 7 }) 0 b
    arrived s 0 = some (true, false, true, b) ∧ (linkAt s (servedLink s 0)).state = .active ∧
      bit (byteAt b 3) 0 = (flags == 1) ∧
      ((laneAt s 0).kept.any (fun e => e.1 == BitVec.ofNat 16 (u16 b 1)) || BitVec.ofNat 16 (u16 b 1) == (laneAt s 0).txSeq) =
        (seq != 9) := by decide +kernel
theorem witness_ack_send : (linkAt (active id) (servedLink (active id) 0)).state = .active ∧
    16 ≤ (laneAt (active fun x => { x with sinceAck := 16, ackAt := 1000000000 }) 0).sinceAck ∧
    (laneAt (active id) 0).ackAt + 1000 ≤ (active id).time.clock ∧
    (laneAt (active fun x => { x with nakDue := true }) 0).nakDue = true ∧
    (laneAt (active fun x => { x with lockDue := true }) 0).lockDue = true := by decide +kernel
theorem witness_replay_timeout :
    let s := active fun x => { x with kept := [(5, []), (6, [])], txSeq := 7 }
    (laneAt s 0).kept = (5, []) :: [(6, [])] ∧ (laneAt s 0).advanceAt + 2000 ≤ s.time.clock := by decide +kernel
theorem witness_resume :
    let b : Bytes := 0x5A :: le 2 65535 ++ zeros 13
    let s := arriving (active fun x => { x with rxEnd := 2 ^ 20 - 1, discarding := true }) 0 b
    arrived s 0 = some (true, false, true, b) ∧ byteAt b 0 = 0x5A ∧ u16 b 1 = (laneAt s 0).rxEnd / 16 := by decide +kernel
theorem witness_sync : ∀ seed ∈ [1, 2 ^ 31 - 1],
    let b : Bytes := [0x33, 0, 0, 0] ++ le 4 seed ++ zeros 8
    arrived (arriving (active id) 0 b) 0 = some (true, false, true, b) ∧ byteAt b 0 = 0x33 := by decide +kernel
theorem witness_sync_send : (laneAt (active fun x => { x with syncAsked := true }) 0).syncAsked = true ∧
    (laneAt (active fun x => { x with syncAsked := true }) 0).next? = none ∧
    due (laneAt (active id) 0).syncAt 10000 (active id).time.clock = true := by decide +kernel
theorem witness_time_block : (linkAt (linked 9 .active id) (8 + (1 : Fin 2))).state = .active ∧
    (linkAt (linked 9 .active id) (8 + (1 : Fin 2))).timeAt + 1000000 ≤ (linked 9 .active id).time.clock := by decide +kernel
theorem witness_serve :
    let c := fun (item offset : Nat) => (⟨item, 1, 1000, 1000, offset, 2000⟩ : ServeChange)
    let s := fun (item offset : Nat) => setBar press 0 fun b => { b with serve := [c item offset], serveSent := [1, 2, 3] }
    (linkAt press 0).state = .active ∧ (barAt (s 0 984) 0).serve = c 0 984 :: [] ∧ (c 0 984).offset ≠ 0 ∧
      (barAt (s 3 0) 0).serve = c 3 0 :: [] ∧
      ((barAt (s 3 0) 0).serveSent.filter fun (l : Nat) => barPos (s 3 0) 0 < (l : Int)).length < 4 := by decide +kernel

theorem witness_eye :
    let b : Bytes := 0x71 :: zeros 15
    let s := arriving (active id) 0 b
    arrived s 0 = some (true, false, true, b) ∧ (logicalLanes (servedLink s 0)).contains (byteAt b 1) = true := by decide +kernel
theorem witness_eye_send : (laneAt (active id) 0).next? = none ∧ (linkAt (active id) (servedLink (active id) 0)).state = .active ∧
    (laneAt (active id) 0).eyeAt + 100000000 ≤ (active id).time.clock := by decide +kernel
/-- A lane without lock for 100 ms enters condition 2 (R268). -/
theorem witness_lane_health :
    let s := active fun x => { x with lostAt := some 900000000 }
    let r := active fun x => { x with health := 2 }
    (linkAt s (linkOf 0)).state = .active ∧ (laneCondition s (laneAt s 0)).1 = 2 ∧ (laneAt s 0).health = 0 ∧
      (linkLanes (servedLink s 0)).length = 2 ∧ laneFor s 0 (logicalOf s 0) = 0 ∧
      (linkAt s 0).down.contains (logicalOf s 0) = false ∧ (laneCondition r (laneAt r 0)).1 = 0 ∧
      ((linkAt r 0).remaps.any fun m => m.2.2 == logicalOf r 0) = false := by decide +kernel
theorem witness_lane_health_single :
    let s := setLane (linked 10 .active id) 22 fun x => { x with health := 2 }
    (linkAt s (linkOf 22)).state = .active ∧ (laneCondition s (laneAt s 22)).1 ≠ (laneAt s 22).health ∧
      (linkLanes (servedLink s 22)).length ≠ 2 := by decide +kernel
theorem witness_lane_remapped :
    let s := linked 0 .active fun n => { n with down := [1] }
    (linkAt s 0).state = .active ∧ (linkAt s 0).down.contains (1 : Fin 2).val = true ∧
      (linkAt s 0).alone.contains (1 : Fin 2).val = false ∧ ((linkAt s 0).remaps.any fun r => r.2.2 == (1 : Fin 2).val) = false ∧
      ((linkAt s 0).lanePass.any fun p => p.1 == (1 : Fin 2).val) = false := by decide +kernel
theorem witness_spare_core_timeout :
    let s := { linked 0 .active id with sett := { (linked 0 .active id).sett with cores := [(1, 0, 1, 0)] } }
    s.sett.cores.find? (fun c => c.1 == (1 : Fin 2).val) = some (1, 0, 1, 0) ∧
      (laneAt s (ownLane s 0 1)).isLocked = false ∧
      0 + 1000000 ≤ s.time.clock := by decide +kernel
theorem witness_link_lost :
    let s := setLane (setLane (linked 0 .active id) 0 fun x => { x with lostAt := some 0 }) 1 fun x => { x with lostAt := some 999999000 }
    (linkAt s 0).state = .active ∧ ∀ l < 2, (laneAt s (laneFor s 0 l)).isLocked = false ∧
      ((laneAt s (laneFor s 0 l)).lostAt.any fun t => t + 1000 ≤ s.time.clock) = true := by decide +kernel
theorem witness_link_return :
    let s := setBar press 0 fun b => { b with driver := 2 }
    (linkAt s 0).state = .active ∧ (barAt s 0).driver = 2 := by decide +kernel

/-! ### Cameras -/

/-- A CAMSET of face 0, 256 columns, frames of 256 lines, pitch 64, ring of 2 blocks, one sensor of 256 pixels. -/
def cam : CamSet :=
  { face := 0, binLog2 := 0, depth := 2, statsEvt := true, hostHold := false, width := 256, frameLines := 256, camPitch := 64
    maxRate := 20000, camOffset := 0, historyLines := 0, extents := [20]
    sensors := [some { pixels := 256 }, none, none, none] }
/-- The press with the CAMSET in slot 0, active or not, its face changed. -/
def filming (act : Bool) (f : Face → Face) (g : CamSet → CamSet) : State :=
  let s := { press with objs := { press.objs with camsets := one 8 (g { cam with active := act }) } }
  setFace s 0 fun x => f { x with active := if act then some 0 else none }

theorem witness_cam_create :
    let m := msg 0 ([0, 0, 2, 1] ++ le 4 256 ++ le 2 256 ++ le 2 64 ++ le 4 20000 ++ le 4 0 ++ le 4 0 ++ zeros 8)
    admitted opCamCreate m up = true ∧ (takeExtents (camExtents 256 0 2 256 0) up).isSome = true ∧
      (up.objs.camsets.create cam).isSome = true := by decide +kernel
theorem witness_cam_destroy : admitted opCamDestroy (msg (h0 tyCamset) []) (filming false id id) = true ∧
    (camsetOf (filming false id id) (h0 tyCamset)).any (fun c => !c.active) = true := by decide +kernel
theorem witness_cam_sensor_write : admitted opCamSensorWrite
    (msg (h0 tyCamset) ([1, 0, 0, 0] ++ ([0, 3] ++ le 2 0 ++ le 2 0 ++ zeros 2 ++ le 4 0 ++ le 4 256))) (filming false id id) = true := by
  decide +kernel
theorem witness_cam_exposure_write : admitted opCamExposureWrite
    (msg (h0 tyCamset) ((List.range 4).flatMap fun k => le 1 k ++ zeros 7)) (filming true id id) = true := by decide +kernel
theorem witness_cam_param_write : admitted opCamParamWrite
    (msg (h0 tyCamset) ([0, 0, 0, 0] ++ le 4 16383 ++ [9])) (filming true id id) = true := by decide +kernel
theorem witness_cam_commit : ∀ act ∈ [true, false], admitted opCamCommit (msg (h0 tyCamset) []) (filming act id id) = true ∧
    (camsetOf (filming act id id) (h0 tyCamset)).any (fun c => c.active == act) = true := by decide +kernel
theorem witness_cam_activate :
    admitted opCamActivate (msg (h0 tyCamset) [0, 0, 0, 0]) (filming true id id) = true ∧
      admitted opCamActivate (msg (h0 tyCamset) [1, 0, 0, 0]) (filming false id id) = true ∧
      camsetOf (filming false id id) (h0 tyCamset) = some cam ∧
      ((camBudgets (filming false id id) cam false).all fun b => !b.broken) = true := by decide +kernel
/-- A statistics block of frame 3, and a frame captured in buffer 1. -/
def stats : StatsBlock := ⟨3, [1, 2, 3], 0, true, false⟩

theorem witness_cam_stats_read : ∀ n ∈ [3, 0xFFFFFFFF],
    let s := filming true id fun c => { c with ring := [stats] }
    admitted opCamStatsRead (msg (h0 tyCamset) (le 4 n ++ le 4 2 ++ [1, 0, 0, 0])) s = true ∧
      (camsetOf s (h0 tyCamset)).any (fun c => (blockOf c n).isOk && match blockOf c n with
        | .ok k => 2 < k.bytes.length
        | .error _ => false) = true := by decide +kernel
theorem witness_cam_capture :
    let s := filming true id id
    admitted opCamCapture (msg (h0 tyCamset) []) s = true ∧ camsetOf s (h0 tyCamset) = some { cam with active := true } ∧
      visionFaulty s = false ∧ captureBuffer { cam with active := true } = some 0 ∧
      (((camBudgets s { cam with active := true } true).drop 1).all fun b => !b.broken) = true := by decide +kernel
theorem witness_cam_frame_read :
    let s := filming true id fun c => { c with captures := [⟨1, 3, [1, 2, 3], false⟩] }
    admitted opCamFrameRead (msg (h0 tyCamset) ([1, 1, 0, 0] ++ le 4 2)) s = true ∧
      (camsetOf s (h0 tyCamset)).any (fun c =>
        (c.captures.find? (fun x => x.buffer == 1)).any fun k => 2 < k.bytes.length) = true := by decide +kernel
theorem witness_cam_query : admitted opCamQuery (msg (h0 tyCamset) []) (filming true id id) = true ∧
    (camsetOf (filming true id id) (h0 tyCamset)).isSome = true := by decide +kernel

/-- The web at Φ = 2 web lines, 1 s after reset. -/
def rolling (s : State) : State := { s with pos := { s.pos with phi32 := 2 ^ 33 }, time := { s.time with clock := 1000000000 } }
/-- Face 0 triggered last at Φ = 0, at clock t, with the line given next. -/
def face (t line : Nat) (x : Face) : Face := { x with trigPos := some 0, trigAt := some t, nextLine := line }

theorem witness_frame_start : frameDue (rolling (filming true (face 0 256) id)) (0 : Fin 2) { cam with active := true } = true ∧
    activeCam (rolling (filming true (face 0 256) id)) (0 : Fin 2) = some (0, { cam with active := true }) := by decide +kernel
theorem witness_camera_trigger_skipped :
    let s := rolling (filming true (face 999999999 5) id)
    crossed s (0 : Fin 2) cam = true ∧ tooSoon s (0 : Fin 2) cam = true ∧ (faceAt s (0 : Fin 2)).frameOn = none := by decide +kernel
theorem witness_camera_trigger :
    let s := rolling (filming true (face 0 5) id)
    crossed s (0 : Fin 2) cam = true ∧ tooSoon s (0 : Fin 2) cam = false ∧ frameDue s (0 : Fin 2) cam = false := by decide +kernel
theorem witness_camera_line_packet : ∀ t ∈ [0x30, 0x32, 0x33], 0x30 ≤ t ∧
    activeCam (takePacket (8 + (0 : Fin 2)) t (filming true id id)) (0 : Fin 2) = some (0, { cam with active := true }) := by
  decide +kernel
/-- A frame under way with sensor 0 in use, and its line 5 received whole. -/
def frame (ended : Bool) : FrameAcc :=
  { camset := 0, frame := 0, serial := 0, expSet := 0, tables := List.replicate 6 [], exposure := zeros 4 ++ le 4 1 ++ zeros 24, ended := ended }
def filmed (ended : Bool) : State := filming true
  (fun x => { x with frames := [frame ended], settledTo := 258
                     lines := [⟨5, 0, 0, 0, 0, 0, 256, [List.replicate 256 9], true⟩] }) id

theorem witness_face_line_complete : visionFaulty (filmed false) = false ∧
    ((readyLine (filmed false) (0 : Fin 2) 0 { cam with active := true }).any fun r => r.1 == 5) = true := by decide +kernel
theorem witness_frame_end :
    ((faceAt (filmed false) (0 : Fin 2)).frames.find? fun a => a.camset == 0 && !a.ended) = some (frame false) ∧
      ((frame false).frame + 1) * cam.frameLines + 2 ≤ (faceAt (filmed false) (0 : Fin 2)).settledTo := by decide +kernel
theorem witness_frame_stats :
    ((faceAt (filmed true) (0 : Fin 2)).frames.find? fun a =>
      a.ended && ((filmed true).objs.camsets.at? a.camset).all entryFree) = some (frame true) ∧
      (filmed true).objs.camsets.at? (frame true).camset = some { cam with active := true } ∧
      visionFaulty (filmed true) = false := by decide +kernel
theorem witness_capture_done :
    let c : Capturing := ⟨0, some 3, msg (h0 tyCamset) [], some [1, 2]⟩
    let s := filming true id fun x => { x with capturing := [c] }
    ((s.objs.camsets.live.find? (fun e => e.2.face == (0 : Fin 2).val && e.2.capturing.any fun c => c.bytes.isSome)).any
      fun e => e.1 == 0 && e.2.capturing.find? (fun c => c.bytes.isSome) == some c) = true := by decide +kernel

/-! ### Colour loop and drop gates -/

/-- A CALSET of face 0 in the mode given, attached where it is not detached, with ink 0 of bar 0 in use. -/
def cal (mode : CalMode) : CalSet :=
  { face := 0, channelC := 0, registration := false, patches := false, mirrored := false, x0 := 0, colPitch := 65536
    extents := [30], mode := mode, channel := if mode = .detached then 0 else h0 tyChannel, ink := [100, 0, 0, 0, 0, 0, 0, 0] }
/-- The press's run with the CALSET in slot 0. -/
def calibrated (mode : CalMode) (f : CalSet → CalSet) : State :=
  let s := setChannel (pressRun .printing) (h0 tyChannel) fun c => { c with calset := if mode = .detached then 0 else h0 tyCalset }
  { s with objs := { s.objs with calsets := one 64 (f (cal mode)) } }

theorem witness_cal_create : admitted opCalCreate (msg 0 ([1, 3, 7, 0] ++ zeros 12)) up = true ∧
    (takeExtents 1 up).isSome = true ∧ (up.objs.calsets.create (cal .detached)).isSome = true := by decide +kernel
theorem witness_cal_destroy : admitted opCalDestroy (msg (h0 tyCalset) []) (calibrated .detached id) = true ∧
    calsetOf (calibrated .detached id) (h0 tyCalset) = some (cal .detached) := by decide +kernel
theorem witness_cal_attach :
    let s := calibrated .detached id
    admitted opCalAttach (msg (h0 tyCalset) (le 4 (h0 tyChannel).toNat)) s = true ∧
      calsetOf s (h0 tyCalset) = some (cal .detached) ∧
      (channelOf s (h0 tyChannel)).any (fun c => c.calset == 0) = true := by decide +kernel
theorem witness_cal_detach : admitted opCalDetach (msg (h0 tyCalset) []) (calibrated .observe id) = true ∧
    calsetOf (calibrated .observe id) (h0 tyCalset) = some (cal .observe) ∧ (cal .observe).recalc = none := by decide +kernel
theorem witness_cal_param_write : admitted opCalParamWrite (msg (h0 tyCalset) ([1, 0, 0, 0] ++ le 4 0 ++ leS 2 100))
    (calibrated .observe id) = true := by decide +kernel
theorem witness_cal_read : admitted opCalRead (msg (h0 tyCalset) ([1, 0, 0, 0] ++ le 4 12 ++ le 4 4)) (calibrated .observe id) = true := by
  decide +kernel
theorem witness_cal_write : admitted opCalWrite (msg (h0 tyCalset) ([4, 0, 0, 0] ++ le 4 0 ++ le 2 0x8000)) (calibrated .observe id) = true ∧
    admitted opCalWrite (msg (h0 tyCalset) ([1, 0, 0, 0] ++ le 4 0 ++ le 2 100)) (calibrated .holding id) = true ∧
    (cal .observe).mode ≠ .holding := by decide +kernel
theorem witness_cal_write_recalc :
    let s := calibrated .correct id
    admitted opCalWrite (msg (h0 tyCalset) ([4, 1, 0, 0] ++ le 4 0 ++ le 2 0x8000)) s = true ∧
      calsetOf s (h0 tyCalset) = some (cal .correct) ∧ (recalcReady (cal .correct)).isOk = true := by decide +kernel
theorem witness_cal_query : admitted opCalQuery (msg (h0 tyCalset) []) (calibrated .detached id) = true := by decide +kernel
theorem witness_cal_chan_query : admitted opCalChanQuery (msg (h0 tyChannel) []) press = true ∧
    (channelOf press (h0 tyChannel)).isSome = true := by decide +kernel

theorem witness_loop_hold : ∀ mode ∈ [CalMode.observe, .correct],
    let s := calibrated mode id
    admitted opLoopHold (msg (h0 tyCalset) []) s = true ∧ calsetOf s (h0 tyCalset) = some (cal mode) ∧
      (channelOf s (cal mode).channel).isSome = true ∧ (cal mode).recalc = none ∧ 0 < ownInk s (cal mode) ∧
      spanTaken s 0 (cal mode) = false := by decide +kernel
theorem witness_loop_release : ∀ mode ∈ [CalMode.holding, .correct], ∀ revert ∈ [0, 1],
    let s := calibrated mode id
    admitted opLoopRelease (msg (h0 tyCalset) [revert, 0, 0, 0]) s = true ∧ calsetOf s (h0 tyCalset) = some (cal mode) ∧
      calOwns (cal mode) = true ∧ (recalcReady (cal mode)).isOk = true := by decide +kernel
theorem witness_loop_resume :
    let q := { cal .observe with ref := [(0, 5)] }
    let s := calibrated .observe fun q => { q with ref := [(0, 5)] }
    admitted opLoopResume (msg (h0 tyCalset) []) s = true ∧ calsetOf s (h0 tyCalset) = some q ∧
      (q.ref.any fun e => e.2 != 0) = true ∧ (recalcReady q).isOk = true ∧ 0 < ownInk s q ∧ spanTaken s 0 q = false := by decide +kernel
theorem witness_cal_recalc : admitted opCalRecalc (msg (h0 tyCalset) []) (calibrated .correct id) = true ∧
    (recalcReady (cal .correct)).isOk = true ∧ 0 < ownInk (calibrated .correct id) (cal .correct) := by decide +kernel
theorem witness_cal_gate_config : admitted opCalGateConfig
    (msg 0 ([7, 2, 8, 7, 30, 255, 15, 0] ++ le 2 999 ++ le 2 1000 ++ zeros 12)) up = true := by decide +kernel
/-- R450: under energy class 1 an emitter current above 30 mA is refused. -/
theorem test_gate_emitter_class1 : admitted opCalGateConfig
    (msg 0 ([7, 2, 8, 7, 31, 255, 15, 0] ++ le 2 999 ++ le 2 1000 ++ zeros 12)) up = false := by decide +kernel
theorem witness_cal_gate_window : ∀ st ∈ [RunState.created, .printing],
    admitted opCalGateWindow (msg (h0 tyRun) ([1, 0, 0, 0] ++ ([3, 255, 0, 0] ++ le 4 0 ++ le 4 128 ++ le 4 0 ++ le 4 64))) (pressRun st) = true ∧
      runOf (pressRun st) (h0 tyRun) = some (run st) := by decide +kernel
/-- A nozzle that the gate has marked missing (bit 28), and one with no mark. -/
theorem witness_cal_gate_clear :
    let m := msg 0 ([0, 3, 0, 0] ++ le 4 0 ++ le 4 131072)
    let s := setBar press 0 fun b => { b with nozzles := ⟨[(5, 0x10008000), (6, 0x8000)], [], none⟩ }
    let hit := fun s : State => ((barAt s 0).nozzles.newest.filter fun e =>
      u32 m.payload 4 ≤ e.1 && e.1 < u32 m.payload 4 + u32 m.payload 8 && e.2 &&& BitVec.ofNat 32 (3 * 2 ^ 28) != 0).map (·.1)
    admitted opCalGateClear m press = true ∧ hit press = [] ∧ admitted opCalGateClear m s = true ∧ hit s = [5] := by decide +kernel
theorem witness_cal_gate_query : admitted opCalGateQuery (msg 0 (zeros 4)) up = true := by decide +kernel

theorem witness_loop_window_end :
    let q := { cal .observe with frames := 32 }
    let s := calibrated .observe fun q => { q with frames := 32 }
    s.objs.calsets.at? (0 : Fin 64) = some q ∧ (calChannel s q).isSome = true ∧ q.params.winFrames ≤ q.frames := by decide +kernel
theorem witness_loop_commit :
    let q := { cal .correct with changed := [0] }
    let s := calibrated .correct fun q => { q with changed := [0] }
    s.objs.calsets.at? (0 : Fin 64) = some q ∧ (calChannel s q).isSome = true ∧ q.changed ≠ [] ∧ calPaused q = false ∧
      q.recalc = none := by decide +kernel
theorem witness_held_commit :
    let s := setBar press 0 fun b => { b with heldOwners := [2] }
    (barAt s 0).heldOwners.contains 2 = true ∧ barActive s 0 = false := by decide +kernel
theorem witness_recalculation_done :
    let q := { cal .correct with recalc := some (false, none, 1, false) }
    let s := calibrated .correct fun q => { q with recalc := some (false, none, 1, false) }
    s.objs.calsets.at? (0 : Fin 64) = some q ∧ (channelOf s q.channel).isSome = true := by decide +kernel
theorem witness_recalc_spare_fail :
    let q := { cal .correct with recalc := some (false, none, 0, true) }
    let s := setBench (calibrated .correct fun q => { q with recalc := some (false, none, 0, true) }) 8 fun e => { e with role := .removed }
    spareCal s = some (0, q) ∧ (channelOf s q.channel).isSome = true ∧ (q.recalc.map fun r => r.2.2.1) = some 0 ∧
      (s.bench.bench.any fun e => e.role == .loaned 0 || e.role == .loading 0) = false := by decide +kernel
theorem witness_drop_test_result :
    let s := setGate press 0 fun g => { g with drop := some (130, 1000, false), dropAt := some 7 }
    (barAt s 0).gate.drop = some (130, 1000, false) ∧ (barAt s 0).gate.dropAt = some 7 ∧ (barAt s 0).table = some table ∧
      ((nozzleAt table 130).any fun e => e.1 == 1 && e.2.2.2 == 66) = true := by decide +kernel

/-! ### Variable data -/

/-- A stream of id 9 with a ring of 2 records, attached to the channel given, holding the items given. -/
def stream (ch : BitVec 32) (items : List Item) : VdStream :=
  { streamId := 9, itemsPerS := 10, maxRecord := 64, maxWindow := 4096, ringRecords := 2, storeBytes := 8192, results := 256
    extents := [40], engine := 0, channel := ch, items := items }
/-- The press's printing run with that stream in slot 0, and a font of one cell of 8 by 1 dots, code 65, in font slot 0. -/
def carrying (attached : Bool) (items : List Item) : State :=
  let s := setChannel (printing id) (h0 tyChannel) fun c => { c with stream := if attached then h0 tyStream else 0 }
  { s with
    objs := { s.objs with streams := one 16 (stream (if attached then h0 tyChannel else 0) items) }
    vd := { s.vd with fonts := ⟨[8, 1, 65, 1] ++ zeros 12 ++ [0xAA], true⟩ :: List.replicate 7 {} } }
/-- A record of one text element of one character of font 0, in a window of 64 by 8 dots at line 1,000. -/
def record : Bytes :=
  le 8 1 ++ le 6 1000 ++ [1, 1] ++ le 4 0 ++ le 2 64 ++ le 2 8 ++ [0, 1] ++ le 2 52 ++ zeros 4 ++
    ([4, 0] ++ le 2 0 ++ le 2 0 ++ [1, 8] ++ le 2 0 ++ [0, 0] ++ le 2 1 ++ le 2 0 ++ [65, 0, 0, 0])
def item (st : ItemState) : Item := { parseRecord record 0 with state := st }

theorem witness_vd_create :
    let b : Bytes := le 4 9 ++ le 2 10 ++ le 2 64 ++ le 4 4096 ++ le 4 2 ++ le 4 8192 ++ le 4 256 ++ zeros 8
    admitted opVdCreate (msg 0 b) up = true ∧ (up.objs.streams.live.any fun e => e.2.streamId == 9) = false ∧
      (up.vd.recovery.any fun e => e.1 == 9) = false ∧ up.objs.streams.free.isEmpty = false ∧
      vdDemand up 0 + 10 * max 62500 4096 ≤ 500000000 ∧ 2 * u32 b 8 ≤ u32 b 16 ∧
      (takeExtents (vdExtents 2 64 8192 256) up).isSome = true ∧ (up.objs.streams.create (stream 0 [])).isSome = true := by
  decide +kernel
theorem witness_vd_destroy : admitted opVdDestroy (msg (h0 tyStream) []) (carrying false []) = true ∧
    streamOf (carrying false []) (h0 tyStream) = some (stream 0 []) := by decide +kernel
theorem witness_vd_attach :
    let s := carrying false []
    admitted opVdAttach (msg (h0 tyStream) (le 4 (h0 tyChannel).toNat)) s = true ∧
      streamOf s (h0 tyStream) = some (stream 0 []) ∧
      (channelOf s (h0 tyChannel)).any (fun c => c.stream == 0) = true := by decide +kernel
theorem witness_vd_detach : admitted opVdDetach (msg (h0 tyStream) []) (carrying true [item .queued]) = true ∧
    ([item .queued].any fun i => i.state == .rendered || i.state == .fired) = false := by decide +kernel
theorem witness_vd_verify_config : admitted opVdVerifyConfig
    (msg (h0 tyStream) ([1, 3, 8, 3] ++ zeros 8 ++ le 2 4096 ++ le 2 4095 ++ le 2 60000 ++ zeros 6)) (carrying true []) = true := by
  decide +kernel
theorem witness_vd_reject_config : admitted opVdRejectConfig (msg (h0 tyStream) ([3, 3] ++ zeros 22)) (carrying true []) = true := by
  decide +kernel
/-- A font of one cell of 8 by 1 dots: its last part (flag 1), and a part before the last. -/
theorem witness_vd_font_write :
    let d : Bytes := [8, 1, 65, 1] ++ zeros 12 ++ [0xAA]
    admitted opVdFontWrite (msg 0 ([7, 1, 0, 0] ++ le 4 0 ++ d)) up = true ∧ fontInUse up 7 = false ∧
      fontOk ⟨((fit 0 (up.vd.fonts.getD 7 {}).bytes) ++ d ++ ((up.vd.fonts.getD 7 {}).bytes.drop d.length)).take d.length, false⟩ = true ∧
      admitted opVdFontWrite (msg 0 ([7, 0, 0, 0] ++ le 4 114703 ++ [9])) up = true := by decide +kernel

theorem witness_vd_push :
    let m := msg (h0 tyStream) (le 2 1 ++ zeros 2 ++ record)
    let s := carrying true []
    let offs := (walkRecords m.payload 1 4).1
    admitted opVdPush m s = true ∧ streamOf s (h0 tyStream) = some (stream (h0 tyChannel) []) ∧ h0 tyChannel ≠ 0 ∧
      (checkFields (pushFields s (stream (h0 tyChannel) []) (channelOf s (h0 tyChannel)) m.payload offs none 0)).isOk = true ∧
      offs.length ≤ ringFree (stream (h0 tyChannel) []) := by decide +kernel
theorem witness_vd_cancel : admitted opVdCancel (msg (h0 tyStream) (le 8 1)) (carrying true [item .queued]) = true := by
  decide +kernel
theorem witness_vd_results : ∀ first ∈ [0, 0xFFFFFFFF],
    admitted opVdResults (msg (h0 tyStream) (le 4 first ++ le 2 127 ++ zeros 2)) (carrying true []) = true ∧
      (streamOf (carrying true []) (h0 tyStream)).any (fun st =>
        st.resultNext - st.resultRing.length == 0 && (0 + 2 ^ 32 - (st.resultNext - st.resultRing.length) % 2 ^ 32) % 2 ^ 32 < 2 ^ 31) = true := by
  decide +kernel
theorem witness_vd_query : admitted opVdQuery (msg (h0 tyStream) []) (carrying true []) = true ∧
    (streamOf (carrying true []) (h0 tyStream)).isSome = true := by decide +kernel
theorem witness_vd_recovery :
    let s := { up with vd := { up.vd with recovery := [(9, [(1, 1000, 1)])] } }
    admitted opVdRecovery (msg 0 (le 4 9 ++ le 4 0 ++ [1, 0, 0, 0])) s = true ∧
      (s.vd.recovery.find? fun e => e.1 == 9) = some (9, [(1, 1000, 1)]) := by decide +kernel

theorem witness_item_rendered :
    let s := carrying true [item .queued]
    s.objs.streams.at? (0 : Fin 16) = some (stream (h0 tyChannel) [item .queued]) ∧
      renderable s (stream (h0 tyChannel) [item .queued]) = some (item .queued) ∧ encodable s.vd.fonts (item .queued) = true := by
  decide +kernel
/-- The same element in a window narrower than its cell. -/
def misplaced : Item := { item .queued with winW := 4 }

theorem witness_item_content_void :
    let s := carrying true [misplaced]
    s.objs.streams.at? (0 : Fin 16) = some (stream (h0 tyChannel) [misplaced]) ∧
      renderable s (stream (h0 tyChannel) [misplaced]) = some misplaced ∧ encodable s.vd.fonts misplaced = false := by decide +kernel
/-- Bar 0 fires line 1,008 next: the item's last line, 1,007, has fired. -/
theorem witness_item_last_line :
    let s := setBar (carrying true [item .fired]) 0 fun b => { b with nextFire := some 1008 }
    s.objs.streams.at? (0 : Fin 16) = some (stream (h0 tyChannel) [item .fired]) ∧
      [item .fired].find? (fun i => i.seq == (1 : BitVec 64).toNat) = some (item .fired) ∧ (item .fired).lastAt = none ∧
      lastLinePassed s (stream (h0 tyChannel) [item .fired]) (item .fired) = true := by decide +kernel
/-- The item after its last line. -/
def waiting : Item := { item .fired with lastAt := some 7 }

theorem witness_item_verdict :
    let s0 := carrying true [waiting]
    let s := setFace { s0 with objs := { s0.objs with camsets := one 8 { cam with active := true } } } 0 fun x =>
      { x with active := some 0, trigLog := [(1, 128064, 0), (0, 128000, 0)], outLog := [(0, [])] }
    let st := stream (h0 tyChannel) [waiting]
    let f := s.vision.faces.getD 0 {}
    let c := { cam with active := true }
    s.objs.streams.at? (0 : Fin 16) = some st ∧ waiting.lastAt = some 7 ∧ waiting.verify = true ∧
      faceCamset s waiting.verifyCfg.face = some c ∧ (s.vision.fault.any id) = false ∧
      footprintDone waiting c f (barQ s 0) = true ∧ correlatorQueue s ≤ 256 ∧ footprintMissing waiting c f (barQ s 0) = false := by
  decide +kernel
theorem witness_item_verdict_unseen :
    let s := carrying true [waiting]
    s.objs.streams.at? (0 : Fin 16) = some (stream (h0 tyChannel) [waiting]) ∧ waiting.state = .fired ∧ waiting.verify = true ∧
      faceCamset s waiting.verifyCfg.face = none := by decide +kernel
theorem witness_verify_timeout :
    let s0 := carrying true [waiting]
    let s := { s0 with time := { s0.time with clock := 10000000007 } }
    s.objs.streams.at? (0 : Fin 16) = some (stream (h0 tyChannel) [waiting]) ∧ waiting.lastAt = some 7 ∧
      7 + waiting.verifyCfg.timeoutMs * 1000000 ≤ s.time.clock := by decide +kernel
theorem witness_reject_overflow :
    let st := { stream (h0 tyChannel) [] with held := [3] }
    let s0 := carrying true []
    let s := { s0 with objs := { s0.objs with streams := one 16 st } }
    s.objs.streams.at? (0 : Fin 16) = some st ∧ st.held = [3] ∧ st.rejects.length < 1024 := by decide +kernel

/-! ### Memory, arbitration and voltage -/

theorem witness_diag_mem_config : admitted opDiagMemConfig
    (msg 0 ([2, 1, 0, 1, 16, 0] ++ le 2 65535 ++ le 4 10000000 ++ [72, 0, 0, 0] ++ zeros 52)) up = true := by decide +kernel
theorem witness_diag_mem_query : admitted opDiagMemQuery (msg 0 []) up = true := by decide +kernel
theorem witness_diag_mem_training : admitted opDiagMemTraining (msg 0 ([3, 1] ++ le 2 127 ++ le 2 1 ++ zeros 2)) up = true := by
  decide +kernel
theorem witness_scrub_pass :
    let s := { up with store := { up.store with installed := 64 }, mem := { up.mem with scrubNext := 1 } }
    segmentCount s ≠ 0 ∧ segmentCount s ≤ s.mem.scrubNext := by decide +kernel
/-- The memory idle for 1 s, with power-down after 16 clocks, in self-refresh or not. -/
def idle (refreshing : Bool) : State :=
  { up with
    mem := { up.mem with pdClocks := 16, selfRefresh := refreshing, srExit := if refreshing then some 7 else none }
    time := { up.time with clock := 1000000000 } }

theorem witness_power_down_entry : (idle false).mem.trained = true ∧ (idle false).mem.pdClocks ≠ 0 ∧
    rankThere (idle false).mem.inForce (6 : Fin 8) = true ∧ (idle false).mem.selfRefresh = false ∧
    1000 * (idle false).mem.pdClocks ≤
      ((idle false).time.clock - (idle false).mem.lastCmd.getD (6 : Fin 8) 0) * dramMhz (idle false).mem.inForce.rate := by
  decide +kernel
theorem witness_self_refresh_entry : (idle false).mem.trained = true ∧ (idle false).mem.srIdleUs ≠ 0 ∧ memIdle (idle false) = true ∧
    (idle false).mem.selfRefresh = false ∧ (idle false).mem.idleSince + 1000 * (idle false).mem.srIdleUs ≤ (idle false).time.clock := by
  decide +kernel
theorem witness_self_refresh_exit : (idle true).mem.selfRefresh = true ∧ (idle true).mem.srExit = some 7 := by decide +kernel
theorem witness_zq_calibration : (idle false).mem.trained = true ∧ (idle false).mem.zqAt + 128000000 ≤ (idle false).time.clock := by
  decide +kernel
theorem witness_dram_temp_read : due up.mem.tempAt 32000000 up.time.clock = true := by decide +kernel
/-- The field die released and approved, its memory not yet trained, at the rate given. -/
def untrained (rate : Nat) : State := { up with mem := { up.mem with trained := false, inForce := { up.mem.inForce with rate := rate } } }

theorem witness_mem_trained : ∀ rate ∈ [0, 2], (untrained rate).power.fieldReset = false ∧ (untrained rate).mem.trained = false ∧
    (untrained rate).mem.failed = false ∧ (untrained rate).saddle.approved = true ∧ (untrained rate).mem.inForce.rate = rate := by
  decide +kernel

theorem witness_diag_arb_prio : ∀ cluster ∈ [0, 1],
    admitted opDiagArbPrio (msg 0 ([cluster, 3, 31, 1] ++ zeros 4 ++ le 4 0x3FFFF)) up = true := by decide +kernel
theorem witness_diag_arb_commit : admitted opDiagArbCommit (msg 0 [15, 0, 0, 0]) up = true := by decide +kernel
theorem witness_diag_arb_query : admitted opDiagArbQuery (msg 0 [1, 3, 0, 0]) up = true := by decide +kernel
/-- A read of 64 bytes at address 0 by a requester, with the lock field given. -/
def req (r : Fin 32) (lock : LockField) (sleep : Bool) : ArbReq := ⟨r, .line 0 1000, 64, false, 0, lock, sleep⟩
/-- Port 0 with a queue and a lock. -/
def contested (queue : List Waiting) (lock : Option LockState) : State :=
  setArb up false 0 fun a => { a with queue := queue, lock := lock }
def held : LockState := ⟨3, 16, 0, 0, 0, false, []⟩
/-- The request of a requester with deadline tick 0, just arrived. -/
def wait (r : Fin 32) (sleep : Bool) : Waiting := ⟨req r .none sleep, 0, 1, 0, 0, false⟩

theorem witness_arb_request :
    let r := req 3 .none false
    requestOk false (0 : Fin 4) r up = true ∧ requestOk true (0 : Fin 4) r up = true ∧
      lockRule up r (subchannel up.mem.inForce r.address.toNat) = true ∧
      requestOk false (0 : Fin 4) (req 3 .first false) (contested [] (some held)) = true ∧
      lockRule (contested [] (some held)) (req 3 .first false) (subchannel up.mem.inForce 0) = false := by decide +kernel
theorem witness_arb_decision :
    let w := wait 3 false
    let e := wait 20 false
    let a := fun s : State => portAt (expireLock (0 : Fin 4) (commitShadows (0 : Fin 4) s)) (0 : Fin 4)
    (contested [w] none).mem.selfRefresh = false ∧ refreshing (portAt (contested [w] none) (0 : Fin 4)) 0 = false ∧
      nowTick (contested [w] none) = 0 ∧
      emergencyDue (a (contested [] none)) 0 (fun _ => true) = none ∧
      firstRank (a (contested [] none)) 0 (portEligible (a (contested [] none)) 0) = none ∧ emergencyDue (a (contested [e] none)) 0 (fun _ => true) = some e ∧
      emergencyDue (a (contested [w] none)) 0 (fun _ => true) = none ∧
      firstRank (a (contested [w] none)) 0 (portEligible (a (contested [w] none)) 0) = some w ∧ w.req.requester ≠ 21 := by
  decide +kernel
theorem witness_sleep_wake :
    let w := wait 3 true
    let s := setArb (contested [w] none) false 0 fun a => { a with active := [(3, 0)] }
    let a := portAt (commitShadows (0 : Fin 4) s) (0 : Fin 4)
    s.mem.selfRefresh = false ∧ a.lock = none ∧ refreshing a (nowTick s) = false ∧
      firstRank a (nowTick s) (a.queue.filter fun w =>
        w.req.sleep && prioClass a w.req.requester.val == 0 && ticksTo w.forecast (nowTick s) ≤ 0) = some w := by decide +kernel
theorem witness_lock_expiry : (portAt (contested [] (some held)) (0 : Fin 4)).lock = some held ∧ 16 ≤ held.segments := by decide +kernel
theorem witness_emergency_take : ∀ refresh ∈ [true, false],
    let e := wait (if refresh then 21 else 20) false
    (contested [e] none).mem.selfRefresh = false ∧ refreshing (portAt (contested [e] none) (0 : Fin 4)) 0 = false ∧
      emergencyDue (portAt (commitShadows (0 : Fin 4) (contested [e] none)) (0 : Fin 4)) (nowTick (contested [e] none)) (fun r => r == (if refresh then 21 else 20)) =
        some e := by decide +kernel
theorem witness_refresh_due : up.mem.trained = true ∧ up.mem.selfRefresh = false ∧
    rankThere up.mem.inForce (2 * (3 : Fin 4).val + (0 : Fin 2).val) = true ∧
    up.mem.refreshNext.getD (2 * (3 : Fin 4).val + (0 : Fin 2).val) 0 ≤ up.time.clock := by decide +kernel

theorem witness_diag_avs_config : ∀ on ∈ [0, 1],
    admitted opDiagAvsConfig (msg 0 (le 2 768 ++ le 2 512 ++ le 2 700 ++ [on, 0])) up = true := by decide +kernel
theorem witness_diag_slack_query : admitted opDiagSlackQuery (msg 0 []) up = true := by decide +kernel
theorem witness_slack_window_end :
    let s := setBar press 0 fun b => { b with slackMin := some (-5), slackLines := 1024 }
    (barAt s 0).slackMin = some (-5) ∧ 1024 ≤ (barAt s 0).slackLines := by decide +kernel
theorem witness_avs_idle_step : voltageHeld up = false ∧ up.fabric.avsOn = true ∧ up.fabric.idleMv < up.fabric.vddMv := by
  decide +kernel

/-! ### Ethernet, time, triggers and timers -/

/-- Port 1 up in mode 3, the Ethernet mailbox enabled, and host key 0 enrolled. -/
def networked : State :=
  let s := setEth up 1 fun e => { e with mode := 3, up := true, flags := 0x18 }
  { s with
    mbx := { s.mbx with ethEnable := true }
    cairn := { s.cairn with keys := some ⟨[7], 0⟩ :: List.replicate 7 none } }

theorem witness_sys_eth_config : admitted opSysEthConfig
    (msg 0 ([1, 3, 4, 32] ++ le 2 4094 ++ le 2 9000 ++ zeros 32 ++ [128] ++ zeros 7)) up = true := by decide +kernel
theorem witness_sys_eth_query : admitted opSysEthQuery (msg 0 [1, 0, 0, 0]) up = true := by decide +kernel
theorem witness_eth_frame_receive : (ethAt networked (1 : Fin 2)).up = true ∧
    frameAccepted networked (1 : Fin 2) ⟨.broadcast, [], .arp, false, true, none⟩ = true ∧
    frameAccepted networked (1 : Fin 2) ⟨.own, [], .icmp4Echo, false, true, some ⟨1, 0, 8, false⟩⟩ = true ∧
    frameAccepted networked (1 : Fin 2) ⟨.own, [], .pause, false, true, none⟩ = false := by decide +kernel
theorem witness_eth_link : (ethAt networked (1 : Fin 2)).up = true ∧ (ethAt networked (1 : Fin 2)).flags.getLsbD 4 = true ∧
    (ethAt networked (1 : Fin 2)).dupGlobal = false ∧ (ethAt networked (1 : Fin 2)).dupLocal = false ∧
    (ethAt (setEth up 0 fun e => { e with mode := 1 }) (0 : Fin 2)).up = false ∧
    (ethAt (setEth up 0 fun e => { e with mode := 1 }) (0 : Fin 2)).mode ≠ 0 := by decide +kernel
/-- A HELLO of version 4 that names host key 0. -/
def helloBody : Bytes := 4 :: zeros 131

theorem witness_hello : networked.mbx.ethEnable = true ∧ networked.mbx.ready = true ∧ portReached (ethAt networked (1 : Fin 2)) false = true ∧ (recentHellos networked).length < 10 ∧
    helloBody.length = 132 ∧ byteAt helloBody 0 = 4 ∧ (hostKey networked (byteAt helloBody 129)).isSome = true ∧
    u16 helloBody 130 = 0 ∧ networked.eth.sessions.length < 4 := by decide +kernel
/-- Every hypothesis of the clause but the signature's: whether a signature verifies is `Config.ecdsaVerify`, which has no
value to decide by. -/
theorem witness_confirm :
    let h : Handshake := ⟨1, 1, false, 0, helloBody, zeros 9, 0⟩
    let s := { networked with eth := { networked.eth with handshakes := [h] }, time := { networked.time with clock := 1000000000 } }
    s.eth.handshakes.find? (fun h => h.session == 1) = some h ∧ (zeros 96).length = 96 ∧ s.mbx.ethEnable = true ∧
      s.time.clock ≤ h.since + 1000000000 ∧ s.eth.sessions.length < 4 ∧ (hostKey s h.keyIdx).isSome = true := by decide +kernel

theorem witness_time_ptp_config : ∀ port ∈ [0, 1, 255],
    admitted opTimePtpConfig (msg 0 ([port, 4, 2, 127, 0xFC, 4, 5, 10, 0, 0, 255, 0] ++ le 2 64 ++ zeros 10)) up = true := by decide +kernel
theorem witness_time_servo_config : admitted opTimeServoConfig
    (msg 0 (zeros 8 ++ le 4 500000 ++ le 2 10000 ++ [4, 64] ++ zeros 4 ++ le 2 600 ++ [1, 0])) up = true := by decide +kernel
theorem witness_time_set : admitted opTimeSet (msg 0 (le 8 5 ++ le 4 999999999 ++ zeros 4)) up = true ∧
    up.time.servo ≠ .acquiring ∧ up.time.servo ≠ .locked ∧ stepPermitted up = true := by decide +kernel
theorem witness_time_query : admitted opTimeQuery (msg 0 []) up = true := by decide +kernel

/-- A PTP slave of grandmaster 5, its last Sync and Announce at clock 0, 1,000 s before. -/
def slave (servo : ServoState) : State :=
  { up with
    ptp := { up.ptp with port := some 0, gm := some 5, syncAt := some 0, announceAt := some 0, portState := 8 }
    time := { up.time with servo := servo, clock := 1000000000000 } }

theorem witness_sync_message : ∀ servo ∈ [ServoState.freeRun, .acquiring, .locked, .holdover],
    (slave servo).ptp.port ≠ none ∧ (slave servo).ptp.gm = some 5 ∧ (slave servo).time.servo = servo := by decide +kernel
theorem witness_ptp_message : (slave .freeRun).ptp.port ≠ none := by decide +kernel
/-- A master that answers a Delay_Req, and a port with peer delay that answers a Pdelay_Req. -/
theorem witness_ptp_answers : ∀ p2p ∈ [false, true],
    let s := { slave .freeRun with ptp := { (slave .freeRun).ptp with portState := 6, p2p := p2p } }
    s.ptp.port ≠ none ∧ s.ptp.portState = 6 ∧ s.ptp.p2p = p2p := by decide +kernel
theorem witness_sync_timeout : (slave .locked).ptp.port ≠ none ∧ (slave .locked).ptp.gm = some 5 ∧ (slave .locked).ptp.syncAt = some 0 ∧
    0 + (slave .locked).ptp.syncTimeout * pow2s (slave .locked).ptp.logSync ≤ (slave .locked).time.clock := by decide +kernel
theorem witness_announce_timeout : (slave .locked).ptp.port ≠ none ∧ (slave .locked).ptp.announceAt = some 0 ∧
    0 + (slave .locked).ptp.announceTimeout * pow2s (slave .locked).ptp.logAnnounce ≤ (slave .locked).time.clock := by decide +kernel
theorem witness_ptp_transmit_interval : (slave .locked).ptp.port ≠ none ∧ (slave .locked).ptp.portState = 8 ∧
    (slave .locked).ptp.p2p = false ∧
    (slave .locked).ptp.sentAt.getD 2 0 + pow2s (slave .locked).ptp.logMinDelay ≤ (slave .locked).time.clock := by decide +kernel
theorem witness_time_word : (slave .locked).power.hostReset = false ∧ (slave .locked).power.fieldReset = false ∧
    (slave .locked).time.wordSentAt + 1000 ≤ (slave .locked).time.clock := by decide +kernel
/-- A word that was sent, with the epoch in force and with another. -/
theorem witness_time_word_receive : ∀ epoch ∈ [0, 1],
    let s := { slave .locked with time := { (slave .locked).time with word := some (7, epoch) } }
    s.power.fieldReset = false ∧ s.time.word = some (7, epoch) ∧ s.time.epoch = 0 ∧ s.time.fieldEpoch = 0 := by decide +kernel
theorem witness_saddle_time_loss : (slave .locked).time.lost = false ∧
    (slave .locked).time.wordAt + 10000000 ≤ (slave .locked).time.clock := by decide +kernel

/-- A time trigger of output 5 with the period given, armed or not, its next pulse at 2 µs, in slot 0. -/
def timed (period : Nat) (arm : Bool) : Trigger :=
  { kind := .time 5 true 1000 period 3, armed := arm, value := 0, hits := 0, armHits := 0, skipped := 0, lastHit := 0
    next16 := 2000 * 65536, eventAts := [] }
/-- That trigger in slot 0, at device time 2 µs. -/
def triggered (period : Nat) (arm : Bool) : State :=
  { up with objs := { up.objs with triggers := one 128 (timed period arm) }, time := { up.time with te := 2000, field := 2000 } }

theorem witness_time_trigger_create : admitted opTimeTriggerCreate
    (msg 0 ([5, 1, 0, 0] ++ le 4 990 ++ le 8 65536000 ++ le 4 3 ++ zeros 4)) up = true ∧
    (up.objs.triggers.create (timed 65536000 false)).isSome = true := by decide +kernel
/-- A start 1 µs ahead, and one that is not, with a period and without. -/
theorem witness_time_trigger_arm : ∀ period ∈ [0, 65536000], ∀ start ∈ [2999, 3000],
    let m := msg (h0 tyTrigger) (le 8 0 ++ le 4 start ++ zeros 4)
    admitted opTimeTriggerArm m (triggered period false) = true ∧
      triggerOf (triggered period false) (h0 tyTrigger) = some (timed period false) ∧ timeAt m.payload 0 = start ∧
      outputTime (triggered period false) 5 + 1000 = 3000 := by decide +kernel
theorem witness_time_trigger_disarm : admitted opTimeTriggerDisarm (msg (h0 tyTrigger) []) (triggered 0 true) = true := by decide +kernel
theorem witness_time_trigger_destroy : admitted opTimeTriggerDestroy (msg (h0 tyTrigger) []) (triggered 0 false) = true ∧
    (timed 0 false).armed = false := by decide +kernel
theorem witness_time_trigger_query : ∀ arm ∈ [true, false],
    admitted opTimeTriggerQuery (msg (h0 tyTrigger) []) (triggered 0 arm) = true ∧
      triggerOf (triggered 0 arm) (h0 tyTrigger) = some (timed 0 arm) := by decide +kernel
theorem witness_trigger_pulse : (triggered 0 true).objs.triggers.at? (0 : Fin 128) = some (timed 0 true) ∧
    (timed 0 true).armed = true ∧ (timed 0 true).next16 / 65536 ≤ outputTime (triggered 0 true) 5 := by decide +kernel
/-- A timer whose next expiry is at 2 µs, in slot 0, at device time 2 µs. -/
def ticking (on : Bool) : State :=
  { triggered 0 false with objs := { up.objs with timers := one 32 ⟨on, 2000 * 65536, 65536000000, 3, 0, 0, false⟩ } }

theorem witness_time_timer_create : ∀ start ∈ [999, 1000],
    admitted opTimeTimerCreate (msg 0 (le 8 0 ++ le 4 start ++ le 4 3 ++ le 8 65536000000)) up = true ∧
      (up.objs.timers.create ⟨true, 0, 65536000000, 3, 0, 0, false⟩).isSome = true := by decide +kernel
theorem witness_time_timer_stop : admitted opTimeTimerStop (msg (h0 tyTimer) []) (ticking true) = true := by decide +kernel
theorem witness_time_timer_destroy : admitted opTimeTimerDestroy (msg (h0 tyTimer) []) (ticking false) = true ∧
    (timerOf (ticking false) (h0 tyTimer)).any (fun t => !t.running) = true := by decide +kernel
theorem witness_timer_expired : ((ticking true).objs.timers.at? (0 : Fin 32)).any
    (fun t => t.running && t.next16 / 65536 ≤ (ticking true).time.field) = true := by decide +kernel
theorem witness_capture :
    let s := setCapture up 5 fun c => { c with edges := 2 }
    edgeSelected (captureAt s 5).edges true = true ∧ 5 * (captureAt s 5).filter ≤ 5000 ∧ (captureAt s 5).edgeAt = none ∧ (captureAt s 5).events = false ∧
      (captureAt s 5).records.length < 64 ∧ (captureAt s 5).dropped = 0 := by decide +kernel
theorem witness_time_capture_config : admitted opTimeCaptureConfig (msg 0 [5, 3, 255, 1]) up = true := by decide +kernel
theorem witness_time_capture_read : admitted opTimeCaptureRead (msg 0 [5, 0, 0, 0]) up = true := by decide +kernel

/-! ### Saddle -/

theorem witness_sys_saddle_query : admitted opSysSaddleQuery (msg 0 []) up = true := by decide +kernel
/-- Return channel 5 removed, its idle pattern good for 1 s. -/
def removed : State :=
  { up with
    saddle := { up.saddle with ret := [true, true, true, true, true, false], cleanSince := setAt up.saddle.cleanSince 19 (some 0) }
    time := { up.time with clock := 1000000000 } }

theorem witness_saddle_frame : channelIndex true (5 : Fin 14) = some 19 ∧ channelIndex false (13 : Fin 14) = some 13 ∧
    saddleUp up = true ∧ channelOn up true (5 : Fin 14) = true ∧ channelOn up false (13 : Fin 14) = true ∧
    carries true .evt = true ∧ carries false .mbx = true ∧ carries false .evt = false := by decide +kernel
theorem witness_channel_return : channelOn removed true (5 : Fin 14) = false ∧ removed.saddle.cleanSince.getD 19 none = some 0 ∧
    0 + 1000000000 ≤ removed.time.clock ∧ saddleUp removed = true := by decide +kernel
theorem witness_saddle_heartbeat : saddleUp up = true := by decide +kernel
theorem witness_host_side_lost :
    let s := { up with time := { up.time with clock := 10000000 } }
    s.saddle.hostLost = false ∧ s.power.fieldReset = false ∧ s.saddle.beatH2F + 10000000 ≤ s.time.clock ∧
      s.time.wordAt + 10000000 ≤ s.time.clock ∧ s.saddle.frameFwd + 10000000 ≤ s.time.clock := by decide +kernel
/-- Beats both ways for 1 ms, the last just now; the host side and the field die declared lost. -/
def beating : State :=
  { up with
    saddle := { up.saddle with hostLost := true, fieldLost := true, runH2F := some 0, runF2H := some 0
                               beatH2F := 1000000, beatF2H := 1000000 }
    time := { up.time with clock := 1000000 } }

theorem witness_host_side_back : beating.saddle.hostLost = true ∧
    beatsFor1ms beating.time.clock beating.saddle.beatH2F beating.saddle.runH2F = true := by decide +kernel
theorem witness_field_unreachable : up.saddle.fieldLost = false ∧
    ({ up.saddle with forward := List.replicate 14 false } : Saddle).forward.any id = false ∧
    ({ up.saddle with approved := false } : Saddle).approved = false := by decide +kernel
/-- Either of the two things that FIELD_REACHABLE ends or reports. -/
theorem witness_field_reachable : beating.saddle.fieldLost = true ∧ beating.mbx.ready = true ∧ saddleUp beating = true ∧
    beatsFor1ms beating.time.clock beating.saddle.beatF2H beating.saddle.runF2H = true ∧
    beating.saddle.forward.any id = true ∧ beating.saddle.ret.any id = true ∧ beating.saddle.approved = true := by decide +kernel

/-! ### Interlocks, temperature, reset and boot -/

/-- Input 0 a monitored loop in row 0, healthy or not, with a latch; 10 ms after reset. -/
def looped (healthy latched : Bool) : State :=
  let s := setIlk up 0 fun q => { q with type := 1, latch := true, healthy := healthy, latched := latched }
  { s with ilk := { s.ilk with rows := 1 :: List.replicate 7 0 }, time := { s.time with clock := 10000000 } }

theorem witness_sys_interlock_config :
    admitted opSysInterlockConfig (msg 0 ([2, 15, 3, 0] ++ zeros 60 ++ le 2 1 ++ zeros 14)) up = true ∧ up.ilk.locked = false := by
  decide +kernel
theorem witness_sys_interlock_lock : ∀ l ∈ [true, false],
    let s := { up with ilk := { up.ilk with locked := l } }
    admitted opSysInterlockLock (msg 0 []) s = true ∧ s.ilk.locked = l := by decide +kernel
theorem witness_sys_interlock_rearm : admitted opSysInterlockRearm (msg 0 (le 2 0xFFFF ++ zeros 2)) (looped true true) = true := by
  decide +kernel
theorem witness_sys_interlock_query : admitted opSysInterlockQuery (msg 0 []) up = true := by decide +kernel
/-- 699 ohms is below the healthy range of a monitored loop and 1,501 above it (R452). -/
theorem witness_interlock : (ilkAt (looped true false) 0).type ≠ 0 ∧ loopHealthy 1 699 = false ∧ loopHealthy 1 1501 = false ∧
    loopHealthy 1 700 = true ∧ loopHealthy 1 1500 = true ∧
    100 * (ilkAt (looped true false) 0).filter ≤ 1000000 ∧ (ilkAt (looped true false) 0).healthy = true ∧
    (ilkAt (looped false false) 0).healthy = false ∧ (looped true false).ilk.inputs.length = 16 := by decide +kernel
theorem witness_interlock_healthy :
    let s := setIlk (looped false false) 0 fun q => { q with goodSince := some 0 }
    (ilkAt s 0).type ≠ 0 ∧ (ilkAt s 0).healthy = false ∧ loopSettled (ilkAt s 0).type 735 = true ∧ (ilkAt s 0).goodSince = some 0 ∧
      0 + 10000000 ≤ s.time.clock ∧ (ilkAt (looped false false) 0).goodSince = none := by decide +kernel

/-- Sensor 16 with ignore, T1 60.0 and T4 120.0 degrees. -/
theorem witness_sys_temp_config :
    admitted opSysTempConfig (msg 0 ([16, 0, 1, 5] ++ leS 2 600 ++ leS 2 600 ++ leS 2 600 ++ leS 2 1200 ++ zeros 12)) up = true ∧
      onDie 16 = true ∧ (sensorAt up (partnerOf 16)).failed = false := by decide +kernel
theorem witness_sys_temp_query : admitted opSysTempQuery (msg 0 []) up = true := by decide +kernel
theorem witness_sys_thermal_head : admitted opSysThermalHead (msg 0 ([0xFF, 1] ++ le 2 0x7FFF ++ zeros 4)) up = true := by decide +kernel
theorem witness_sys_thermal_resume :
    let s := setHead (headed [6]) 0 0 fun h => { h with temp := some 570 }
    admitted opSysThermalResume (msg 0 (zeros 4 ++ le 4 1)) s = true ∧ (headAt s 0 0).causes.contains 6 = true ∧
      cooled (barAt s 0) (headAt s 0 0) = true := by decide +kernel
/-- In thermal-off, every zone cool for 1 s. -/
def off : State :=
  { up with thermal := { up.thermal with off := true, coolSince := some 0 }, time := { up.time with clock := 1000000000 } }

theorem witness_sensor_round : off.thermal.off = true ∧ up.thermal.off = false := by decide +kernel
theorem witness_comparator_trip : onDie (16 : Fin 26) = true ∧ onDie (25 : Fin 26) = true ∧
    (sensorAt up (16 : Fin 26)).failed = false ∧ up.thermal.off = false := by decide +kernel
theorem witness_thermal_off_restart : off.thermal.off = true ∧ off.thermal.coolSince = some 0 ∧
    0 + 1000000000 ≤ off.time.clock := by decide +kernel

theorem witness_sys_reset :
    let s := { up with cps := { up.cps with standby := .ready } }
    admitted opSysReset (msg 0 [3, 0, 0, 0]) s = true ∧ s.cps.standby = .ready ∧ admitted opSysReset (msg 0 [0, 0, 0, 0]) up = true := by
  decide +kernel
theorem witness_software_reset :
    let s := { up with power := { up.power with softReset := some (0, 0) } }
    s.power.softReset = some (0, 0) ∧ 0 ≤ s.time.clock := by decide +kernel
theorem witness_sys_boot_query : admitted opSysBootQuery (msg 0 []) up = true := by decide +kernel
theorem witness_sys_power_query : admitted opSysPowerQuery (msg 0 []) up = true := by decide +kernel
theorem witness_sys_option_read : admitted opSysOptionRead (msg 0 [1, 0, 0, 0]) up = true := by decide +kernel
theorem witness_sys_option_write : admitted opSysOptionWrite (msg 0 [55, 1, 0, 0, 9]) up = true ∧
    admitted opSysOptionWrite (msg 0 ([0, 56, 0, 0] ++ zeros 56)) up = true ∧ storeWindow up = true := by decide +kernel
theorem witness_supply_good : ∀ field ∈ [true, false],
    ({ up with power := { up.power with noSupply := [true, true] } } : State).power.noSupply.getD (flag field) false = true := by
  decide +kernel
/-- The field die's core supply, 5, browns out below 720 mV (R477). -/
theorem witness_brown_out : 719 < brownOutBelow.getD (5 : Fin 12) 0 ∧ ¬ 720 < brownOutBelow.getD (5 : Fin 12) 0 ∧
    up.power.noSupply.getD (flag (decide (5 ≤ (5 : Fin 12).val))) false = false ∧
    (readSupply (5 : Fin 12) { up with power := { up.power with supply := setAt up.power.supply (5 : Fin 12) 719 } }).power.noSupply.getD
      (flag (decide (5 ≤ (5 : Fin 12).val))) false = false := by decide +kernel
theorem witness_rst_n : up.power.rstLow = false ∧ up.power.frstLow = false := by decide +kernel
theorem witness_clock_failure : up.power.hostReset = false ∧ up.power.fieldReset = false := by decide +kernel
theorem witness_reference_return :
    let s := { up with power := { up.power with refLost := [true, true] } }
    s.power.refLost.getD 0 false = true ∧ s.power.refLost.getD 1 false = true := by decide +kernel
theorem witness_fs_watchdog : up.power.fieldReset = false ∧ up.cps.halted.getD 2 false = false := by decide +kernel
theorem witness_reset_release : hostReleasable State.reset = true := by decide +kernel
theorem witness_field_reset_symbol : State.reset.power.hostReset = true ∧ State.reset.power.noSupply.getD 0 false = false ∧
    State.reset.power.refLost.getD 0 false = false ∧ State.reset.thermal.off = false := by decide +kernel
/-- The energy class is taken over at power-on of the field die alone (R502). -/
theorem witness_option_copy_later : ({ up with power := { up.power with fieldPowerOn := false } } : State).power.fieldPowerOn = false := by
  decide +kernel
theorem witness_option_copy : up.power.hostReset = false ∧ up.power.symbolDue = none ∧ up.power.copyArrived = false ∧
    up.power.noSupply.getD 1 false = false ∧ up.power.fieldPowerOn = true := by decide +kernel

/-- The host die out of reset with CP0 released or not, 5 s after its release, no mailbox. -/
def booting (released : Bool) : State :=
  { up with
    mbx := State.reset.mbx, cps := { up.cps with released := released }
    saddle := { up.saddle with approved := false }, time := { up.time with clock := 5000000000 } }

theorem witness_measured_boot :
    let none_ := { booting false with cairn := { (booting false).cairn with banks := List.replicate 4 {} } }
    (booting false).power.hostReset = false ∧ (booting false).cps.released = false ∧ chooseBank none_ = none ∧
      chooseBank (booting false) = some 0 ∧
      imageGood ⟨true, true⟩ (bankAt (booting false) 0 0) ((booting false).cairn.counters.getD 0 0) = true ∧
      imageGood ⟨true, false⟩ (bankAt (booting false) 0 0) ((booting false).cairn.counters.getD 0 0) = false := by decide +kernel
theorem witness_field_image_approval : saddleUp (booting true) = true ∧ (booting true).saddle.forward.any id = true ∧
    (booting true).saddle.ret.any id = true ∧ (booting true).cps.released = true ∧
    (booting true).cairn.recovery = false ∧ (booting true).saddle.approved = false ∧
    imageGood ⟨true, true⟩ (bankAt (booting true) 1 (booting true).cairn.bank) ((booting true).cairn.counters.getD 1 0) = true ∧
    imageGood ⟨false, true⟩ (bankAt (booting true) 1 (booting true).cairn.bank) ((booting true).cairn.counters.getD 1 0) = false := by
  decide +kernel
theorem witness_boot_timeout : (booting true).power.hostReset = false ∧ (booting true).mbx.ready = false ∧
    (booting true).cairn.recovery = false ∧
    (booting true).power.hostReleaseAt + 1000000000 * byteAt (booting true).power.options 5 ≤ (booting true).time.clock ∧
    (booting false).cps.released = false ∧ chooseBank (booting false) = some 0 := by decide +kernel
theorem witness_mailbox_ready : (booting true).power.hostReset = false ∧ (booting true).cps.released = true ∧
    (booting true).mbx.ready = false := by decide +kernel

/-! ### Fail-over -/

/-- CP `act` active and released, the other in the state given, 300 µs after the last beat of both. -/
def pair (act : Nat) (standby : StandbyState) : State :=
  { up with
    cps := { up.cps with active := act, standby := standby, released := true
                         beatMbx := [some 0, some 0], beatWire := [some 0, some 0] }
    time := { up.time with clock := 300000 } }

theorem witness_sys_failover_config : admitted opSysFailoverConfig (msg 0 [1, 0, 0, 0]) up = true := by decide +kernel
theorem witness_sys_failover_query : admitted opSysFailoverQuery (msg 0 []) up = true := by decide +kernel
theorem witness_heartbeat : cpRuns (pair 0 .ready) (1 : Fin 2) = true ∧ cpRuns (pair 0 .reset) (0 : Fin 2) = true ∧
    cpRuns (pair 0 .reset) (1 : Fin 2) = false := by decide +kernel
theorem witness_cp_declaration : 3 ≤ missing (pair 0 .ready) ((pair 0 .ready).cps.beatMbx.getD (1 : Fin 2) none) ∧
    3 ≤ missing (pair 0 .ready) ((pair 0 .ready).cps.beatWire.getD (1 : Fin 2) none) := by decide +kernel
theorem witness_cp_watchdog : cpRuns (pair 0 .ready) (0 : Fin 2) = true ∧ (pair 0 .ready).cps.halted.getD (0 : Fin 2) false = false := by
  decide +kernel
theorem witness_cp_standby : (pair 0 .reset).power.hostReset = false ∧ (pair 0 .reset).cps.released = true ∧
    (pair 0 .reset).cairn.recovery = false ∧ (pair 0 .reset).cps.standby = .reset := by decide +kernel
theorem witness_standby_selftest_done : (pair 0 .selftest).cps.standby = .selftest := by decide +kernel
theorem witness_snapshot_complete : (pair 0 .syncing).cps.standby = .syncing := by decide +kernel
theorem witness_quiet_point_return : (pair 1 .ready).cps.active = 1 ∧ (pair 1 .ready).cps.standby = .ready ∧
    (pair 1 .ready).cps.autoReturn = true ∧ cpBusy (pair 1 .ready) = false ∧ ringHeld (pair 1 .ready) 3 = 0 := by decide +kernel

/-! ### Cairn -/

theorem witness_audit_open : admitted opAuditOpen (msg 0 [15, 0, 0, 0]) up = true ∧
    (up.objs.sessions.create ⟨15, {}, 0, 0, 0⟩).isSome = true := by decide +kernel
theorem witness_audit_close :
    let s := { up with objs := { up.objs with sessions := one 4 ⟨15, {}, 0, 0, 0⟩ } }
    admitted opAuditClose (msg (h0 tyAudit) []) s = true ∧ (auditOf s (h0 tyAudit)).isSome = true := by decide +kernel
theorem witness_audit_read :
    let s := { up with cairn := { up.cairn with ring := [(0, [7])], nextRec := 1 } }
    admitted opAuditRead (msg 0 (le 8 (2 ^ 64 - 1))) s = true ∧ u64 (le 8 (2 ^ 64 - 1)) 0 = 2 ^ 64 - 1 ∧
      admitted opAuditRead (msg 0 (le 8 0)) s = true ∧ 0 < s.cairn.nextRec ∧ (s.cairn.ring.find? fun e => e.1 == 0) = some (0, [7]) := by
  decide +kernel
theorem witness_audit_ack : admitted opAuditAck (msg 0 (le 8 0)) up = true := by decide +kernel
theorem witness_audit_quote : admitted opAuditQuote (msg 0 (zeros 32)) up = true := by decide +kernel
/-- No key is enrolled yet: the first enrolment needs no signature (R517). -/
theorem witness_audit_key_enrol : admitted opAuditKeyEnrol (msg 0 ([7, 0] ++ zeros 199)) up = true ∧
    up.cairn.keys.all (·.isNone) = true := by decide +kernel
/-- The block at a debug level, with a session open to a scope, and a challenge outstanding. -/
def debugging (level : Byte) (scope : Nat) : State :=
  { up with
    power := { up.power with options := [0, 0, level] ++ up.power.options.drop 3 }
    cairn := { up.cairn with dbg := some ⟨scope, 1, 0⟩, challenge := some (5, 0) } }

theorem witness_audit_debug_challenge : admitted opAuditDebugChallenge (msg 0 []) (debugging 1 31) = true := by decide +kernel
/-- Every hypothesis of the clause but the signature's, which is `Config.ecdsaVerify`'s. -/
theorem witness_audit_debug_open : admitted opAuditDebugOpen (msg 0 ([31, 0] ++ le 2 3600 ++ [1] ++ zeros 99)) (debugging 1 31) = true ∧
    (debugging 1 31).cairn.challenge = some (5, 0) ∧ (debugging 1 31).time.clock < 0 + 60000000000 := by decide +kernel
theorem witness_audit_debug_close : admitted opAuditDebugClose (msg 0 []) (debugging 1 31) = true := by decide +kernel
theorem witness_debug_session_expiry : (debugging 1 31).cairn.dbg = some ⟨31, 1, 0⟩ ∧ 0 ≤ (debugging 1 31).time.clock := by
  decide +kernel
theorem witness_debug_challenge_expiry :
    let s := { debugging 1 31 with time := { up.time with clock := 60000000000 } }
    s.cairn.challenge = some (5, 0) ∧ 0 + 60000000000 ≤ s.time.clock := by decide +kernel
theorem witness_debug_request : debugLevel (debugging 2 0) = 2 ∧ (∀ k < 5, debugMay k (debugging 1 31) = true) ∧
    debugMay 4 (debugging 1 15) = false ∧ dbgCarried (debugging 1 31) = true ∧ fsRuns (debugging 1 31) = true := by decide +kernel

/-- An update open on the host die. -/
def updating : State := { up with cairn := { up.cairn with update := [(0, 256)], updateBank := some 1 } }

theorem witness_audit_fw_begin : admitted opAuditFwBegin (msg 0 ([1, 0, 0, 0] ++ le 4 16772864)) updating = true ∧
    (updating.cairn.update.any fun e => e.1 == 1) = false := by decide +kernel
theorem witness_audit_fw_data : admitted opAuditFwData (msg 0 ([0, 0, 0, 0] ++ le 4 511 ++ [9])) updating = true ∧
    (updating.cairn.update.any fun e => e.1 == 0) = true := by decide +kernel
/-- An erased bank holds no image that verifies; whether a signed one does is `Config.ecdsaVerify`'s. -/
theorem witness_audit_fw_seal : admitted opAuditFwSeal (msg 0 []) updating = true ∧ updating.cairn.updateBank = some 1 ∧
    imageVerified updating 0 = false := by decide +kernel
theorem witness_audit_fw_query : admitted opAuditFwQuery (msg 0 []) updating = true := by decide +kernel

/-! ### Window, mailbox and sessions -/

theorem witness_window_write : up.power.hostReset = false ∧ State.reset.power.hostReset = true := by decide +kernel
theorem witness_holdoff_expiry :
    let s := { up with win := { up.win with holdUntil := [0, 5] }, time := { up.time with clock := 5 } }
    s.win.holdUntil.getD (1 : Fin 2) 0 ≠ 0 ∧ s.win.holdUntil.getD (1 : Fin 2) 0 ≤ s.time.clock := by decide +kernel

/-- One message posted on ring 1. -/
def posted : State := { up with mbx := { up.mbx with pi := [0, 1, 0, 0, 0, 0], bells := [[], [(1, 0)], [], []] } }

theorem witness_command_fetch : posted.power.hostReset = false ∧ posted.mbx.running = true ∧ posted.mbx.draining = false ∧
    responseFree posted = true ∧ (chooseRing posted (List.replicate 4 [])).any (fun r => r.1 == 1) = true := by decide +kernel
/-- A fetched message of an opcode with the flags given. -/
def fetched (op : Nat) (flags : BitVec 8) (arrival : Nat) (phase : MsgPhase) : InFlight :=
  ⟨op, { msg 0 (zeros 4) with flags := flags, seq := BitVec.ofNat 32 arrival }, arrival, phase, 0, 0, []⟩
/-- Fetched messages in the mailbox, 1 s after they came. -/
def flying (l : List InFlight) : State :=
  { up with mbx := { up.mbx with inFlight := l }, time := { up.time with clock := 1000000000 } }

theorem witness_fence_release :
    let s := flying [fetched 0x0F02 0 3 .waiting]
    (s.mbx.inFlight.find? fun e => e.phase == .waiting && (heldBy s e).isEmpty) = some (fetched 0x0F02 0 3 .waiting) := by decide +kernel
theorem witness_fence_wait :
    let e := fetched 0x0F01 0 4 .waiting
    let s := flying [fetched 0x0601 0 3 .forwarded, e]
    (s.mbx.inFlight.find? fun e => waitsAsFence e && e.since + 1000000000 * (e.warned + 1) ≤ s.time.clock &&
      !(heldBy s e).isEmpty) = some e ∧ (oldest (heldBy s e)).isSome = true := by decide +kernel
theorem witness_message_completion :
    let e := fetched 0x0909 0 3 (.finished 0)
    ((flying [e]).mbx.inFlight.find? fun e => (finalStatus e).isSome) = some e ∧ finalStatus e = some 0 := by decide +kernel
theorem witness_event_record_write :
    let r : EventRec := ⟨0x0101, 0, 0, none, [], none, false⟩
    let s := { up with transit := [r] }
    s.mbx.ready = true ∧ s.transit = r :: [] := by decide +kernel
theorem witness_fms_command_execute :
    let s := { up with saddle := { up.saddle with fsQueue := [(0x0703, msg 0 [], 0)] } }
    fsRuns s = true ∧ s.saddle.fsQueue = (0x0703, msg 0 [], 0) :: [] ∧ (opOf 0x0703).any (fun d => d.code == 0x0703) = true := by decide +kernel

/-- A session 9 open on port 0, next seq 1 on each ring, one response stored for seq 1 of ring 2. -/
def session : Session :=
  { session := 9, port := 0, v6 := false, keyIdx := 0, keyIn := [], keyOut := [], saltIn := [], saltOut := [], rxHigh := 0, rxSeen := [], txNext := 1, errors := 0
    nextSeq := [1, 1, 2, 1, 1, 1], stored := [(2, 1, ⟨0x0F02, 2, 1, 0, 0, []⟩)], gap := []
    unacked := [(⟨0, ⟨0x0101, 0, 0, none, [], none, false⟩⟩, 0)], talusCi := 0, talusSeq := 1, held := [], dropped := 0, lastRx := 0 }
/-- That session, 10 s after the last datagram. -/
def open_ : State := { up with eth := { up.eth with sessions := [session] }, time := { up.time with clock := 10000000000 } }
/-- A sync.echo frame with a seq (R43). -/
def echo (seq : BitVec 32) : Bytes := frameBytes 0x0F02 1 { msg 0 [] with seq := seq }

theorem witness_session : sessionAt open_ (9 : BitVec 32).toNat = some session := by decide +kernel
/-- In turn, an earlier one, and an early one. -/
theorem witness_message : (takeDatagram 9 1 (some (echo 1)) open_).2 = some (echo 1) ∧
    (sessionAt (takeDatagram 9 1 (some (echo 1)) open_).1 (9 : BitVec 32).toNat).any (fun q =>
      q.nextSeq.getD 1 1 == (readFrame 9 1 (echo 1)).msg.seq.toNat &&
      (readFrame 9 2 (echo 1)).msg.seq.toNat < q.nextSeq.getD 2 1 &&
      (q.stored.find? fun e => e.1 == 2 && e.2.1 == (readFrame 9 2 (echo 1)).msg.seq.toNat).isSome &&
      q.nextSeq.getD 1 1 < (readFrame 9 1 (echo 2)).msg.seq.toNat && (q.gap.filter fun e => e.1 == 1).length < 64 &&
      !(q.gap.any fun e => e.1 == 1 && e.2.1 == 2)) = true ∧
    (takeDatagram 9 1 (some (echo 2)) open_).2 = some (echo 2) := by decide +kernel
theorem witness_event_ack : (takeDatagram 9 1 (some (le 4 1)) open_).2 = some (le 4 1) ∧ (le 4 1).length = 4 ∧
    (u32 (le 4 1) 0 + 2 ^ 32 - session.talusCi) % 2 ^ 32 ≤ session.unacked.length := by decide +kernel
theorem witness_session_idle_timeout : session.lastRx + 10000000000 ≤ open_.time.clock := by decide +kernel

/-! ### The rules -/

theorem witness_frame_round_trip : 0xFFFF < 2 ^ 16 ∧ 0xFF < 2 ^ 8 ∧ (msg 0 (zeros 4072)).payload.length ≤ 4072 := by decide +kernel
theorem witness_response_layout :
    let r : Response := ⟨0xFFFF, 3, 7, 0, 0x0F00, zeros 4072⟩
    r.opcode < 2 ^ 16 ∧ r.ring < 4 ∧ r.status < 2 ^ 16 ∧ r.payload.length ≤ 4072 := by decide +kernel
/-- chan.query of no channel is taken and ends in an error; in the press it ends in a result. -/
theorem witness_errors_have_no_effect : opChanQuery ∈ opTable ∧ opChanQuery.field = true ∧
    (opResult opChanQuery (msg (h0 tyChannel) []) up).isOk = false ∧
    freshMessage opChanQuery (msg (h0 tyChannel) []) up = true ∧
    (opResult opChanQuery (msg (h0 tyChannel) []) press).isOk = true ∧
    (freshMessage opChanQuery (msg (h0 tyChannel) []) press && takes (msg (h0 tyChannel) []) press &&
      direct opChanQuery (msg (h0 tyChannel) []) press) = true := by
  refine ⟨?_, by decide +kernel, by decide +kernel, by decide +kernel, by decide +kernel, by decide +kernel⟩
  simp [opTable]
theorem witness_handle_lifetime : 0 < tyPlate ∧ tyTimer ≤ 9 ∧ (up.objs.plates.create (plate true)).any (fun r => r.1 == 0) = true ∧
    ((one 256 (plate true)).release 0).gen 0 = 0 := by decide +kernel
theorem witness_talus_holds : talusFree State.reset = false ∧ up.mbx.running = true ∧ up.mbx.held.length ≤ 1024 ∧
    up.mbx.sequence < 65536 ∧ up.mbx.talus.length + up.mbx.held.length + 1 ≤ 32768 := by decide +kernel
/-- For each of the five reasons: FENCE on the later and on the earlier message, a sync.fence later and earlier, and
one ring and handle. -/
theorem witness_fences_hold : ∀ p ∈ [(0x0601, (0 : BitVec 8), 0x0601, (1 : BitVec 8)), (0x0601, 1, 0x0601, 0), (0x0601, 0, 0x0F01, 0),
      (0x0F01, 0, 0x0601, 0), (0x0601, 0, 0x0601, 0)],
    let a := fetched p.1 p.2.1 3 .forwarded
    let e := fetched p.2.2.1 p.2.2.2 4 .waiting
    let s := flying [a, e]
    a ∈ s.mbx.inFlight ∧ a.msg.inst = e.msg.inst ∧ a.arrival < e.arrival ∧ isUrgent a.msg = false ∧ isUrgent e.msg = false ∧
      a.msg.ring = e.msg.ring ∧ a.msg.handle = e.msg.handle ∧ isBlock a.opcode = false ∧ isBlock e.opcode = false ∧
      (heldBy s e ≠ []) := by decide +kernel
theorem witness_plate_store : (∀ k < 4, imageAddr (plate true) (packedToImage (plate true) (0 + k)) ≠ 0) ∧ up.mem.wf = true ∧
    up.mem.poison = [] ∧ up.mem.bad = [] ∧ (plate true).extents.Nodup ∧ 0 < packedBytes 2 128 ∧
    (plate true).lines * strideOf 2 128 ≤ (plate true).extents.length * extentBytes ∧
    2044 + 4 ≤ (plate true).lines * packedBytes 2 128 := by decide +kernel
/-- A locked matrix with a healthy input in row 0 gives bar 0 its permit and no other bar. -/
theorem witness_permit_needs_health :
    let s := { looped true false with ilk := { (looped true false).ilk with locked := true } }
    ilkPermit s 0 = true ∧ ilkPermit s 1 = false ∧ (∀ i < 16, (s.ilk.rows.getD 1 0).getLsbD i = false) := by decide +kernel
theorem witness_arbiter_ranks :
    let w := wait 3 false
    [w] ≠ [] ∧ firstRank {} 0 [w] = some w := by decide +kernel
theorem witness_field_reset_frees : (press.objs.plates.live.map (·.1)).Nodup ∧ (press.objs.plates.at? 0).isSome = true ∧
    press.objs.plates.at? 1 = none := by decide +kernel
theorem witness_step_keeps_safe : Safe up ∧ up.pending = [] ∧ step up = .next (idleTick up) :=
  ⟨by unfold Safe; decide +kernel, by decide +kernel, rfl⟩

/-! ### Well-formed commands -/

/-- A message longer than a slot's 4,072 bytes is refused (R43). -/
theorem test_wf_message : Instr.wf (.syncEcho (msg 0 (zeros 4072))) = true ∧ Instr.wf (.syncEcho (msg 0 (zeros 4073))) = false := by
  decide +kernel
theorem test_wf_enable : Instr.wf (.mbxEnable 1) = true ∧ Instr.wf (.mbxEnable 0) = false := by decide +kernel
theorem test_wf_disable : Instr.wf (.mbxDisable 0) = true ∧ Instr.wf (.mbxDisable 1) = false := by decide +kernel
theorem test_wf_register_write : Instr.wf (.registerWrite 0 8 0) = true ∧ Instr.wf (.registerWrite 0 3 0) = false := by
  decide +kernel
theorem test_wf_command_fetch : Instr.wf (.commandFetch (List.replicate 4 [])) = true ∧
    Instr.wf (.commandFetch []) = false ∧ Instr.wf (.commandFetch [[zeros 4095], [], [], []]) = false := by decide +kernel
theorem test_wf_hello : Instr.wf (.hello 0 false (zeros 132)) = true ∧ Instr.wf (.hello 0 true (zeros 131)) = false := by decide +kernel
theorem test_wf_confirm : Instr.wf (.confirm 1 (zeros 96)) = true ∧ Instr.wf (.confirm 1 (zeros 97)) = false := by decide +kernel
theorem test_wf_head_record : Instr.wf (.headRecord 0 0 true (zeros 64)) = true ∧
    Instr.wf (.headRecord 0 0 true (zeros 63)) = false := by decide +kernel
theorem test_wf_dram_temp_read : Instr.wf (.dramTempRead (List.replicate 8 0)) = true ∧ Instr.wf (.dramTempRead []) = false := by
  decide +kernel
theorem test_wf_mem_trained : Instr.wf (.memTrained true true 12 0 (List.replicate 1024 0)) = true ∧
    Instr.wf (.memTrained true true 12 0 []) = false := by decide +kernel

/-! ### Results against the spec's own values -/

/-- The state that a command leaves. -/
def after (c : Instr) (s : State) : State :=
  match exec c s with
  | .next t => t
  | _ => s
/-- Status and payload of the newest response. -/
def answered (s : State) : Option (Nat × Bytes) := s.mbx.responses.getLast?.map fun r => (r.status, r.payload)

/-- The check value of CRC-32C (R44). -/
theorem test_crc : crc32c [0x31, 0x32, 0x33, 0x34, 0x35, 0x36, 0x37, 0x38, 0x39] = 0xE3069283 := by decide +kernel
/-- MBX_CTRL reads 0xC67C0000 after reset, INT_MASK 0xF, FAILOVER_STATUS 0x80 (20 map). -/
theorem test_reset_registers : readWord 0x1000 State.reset = 0xC67C0000 ∧ readWord 0x1204 State.reset = 0xF ∧
    readWord 0x3000 State.reset = 0x80 := by decide +kernel
/-- An 8-byte write is two registers in rising order (R533): SCRATCH at 0x10 takes the lower half. -/
theorem test_register_write : (after (.registerWrite 0x10 8 0x1_00000005) up).win.scratch = 5 := by decide +kernel
/-- sync.echo answers OK with its own bytes (R55). -/
theorem test_sync_echo : answered (after (.syncEcho (msg 0 [1, 2, 3])) up) = some (0, [1, 2, 3]) := by decide +kernel
/-- The first plate has slot 0, generation 0 and type 1: handle 0x08000000 (R71, R72). -/
theorem test_plate_create :
    ((after (.plateCreate (msg 0 ([2, 0, 0, 0] ++ le 4 128 ++ le 4 64 ++ zeros 4))) up).mbx.responses.getLast?.map fun r =>
      (r.status, r.handle)) = some (0, 0x08000000) := by decide +kernel
/-- chan.query of a handle that names no object answers NOHANDLE, with detail 0 (R46, R47). -/
theorem test_chan_query_no_handle :
    answered (after (.chanQuery (msg (h0 tyChannel) [])) up) = some (0x0300, le 4 0) := by decide +kernel
/-- A payload that is too long answers BADLEN with offset 12 (R46). -/
theorem test_chan_query_bad_len :
    answered (after (.chanQuery (msg (h0 tyChannel) [0])) press) = some (0x0202, le 4 12) := by decide +kernel
/-- A second channel that asks for a 3-bit drop from a 2-bit plate answers BADARG at drop_bits, offset 16 + 6 (R46, R81). -/
theorem test_chan_create_bad_arg :
    answered (after (.chanCreate (msg 0 (le 4 (h0 tyPlate).toNat ++ [0, 0, 3, 0] ++ le 4 0 ++ le 4 128 ++ le 4 0 ++ le 4 16))) press) =
      some (0x0201, le 4 22) := by decide +kernel
/-- A rises before B: the raw count goes from 0 to 1 (R194). -/
theorem test_encoder_count : (encAt (after (.encoderCount 0 true false 255) (counting id)) 0).count = 1 := by decide +kernel
/-- The raw count wraps at 48 bits (R197). -/
theorem test_encoder_wrap :
    (encAt (after (.encoderCount 0 true false 255) (counting fun e => { e with count := 2 ^ 47 - 1 })) 0).count = -(2 ^ 47) := by
  decide +kernel
/-- pos.set puts Φ at the line given (R206). -/
theorem test_pos_set : (after (.posSet (msg 0 (le 6 5 ++ zeros 2))) (tracked up)).pos.phi32 = 5 * 2 ^ 32 := by decide +kernel
/-- 64 good headers in a row lock a lane; 16 bad among 64 unlock it (R243). A block is 130 bits on the line (R239). -/
theorem test_lane_locks :
    (laneAt (after (.laneAlignment 0 ([true, false] ++ (List.replicate 64 [true, false]).flatten))
      (training 0 fun x => { x with align := .try 63 })) 0).isLocked = true := by decide +kernel
theorem test_lane_unlocks :
    (laneAt (after (.laneAlignment 0 ([true, true] ++ (List.replicate 64 [true, false]).flatten))
      (training 0 fun x => { x with align := .locked (List.replicate 15 true) })) 0).align = .hunt := by decide +kernel
/-- A loop below 700 ohms trips a healthy input as a short, and latches it (R452, R453). -/
theorem test_interlock_short :
    let q := ilkAt (after (.interlock 0 699 10000000) (looped true false)) 0
    (q.healthy, q.short, q.latched) = (false, true, true) := by decide +kernel
/-- A trip lowers FIRE_EN of the bar whose row names the input (R454, R455). -/
theorem test_interlock_fire_en :
    let s := { looped true false with ilk := { (looped true false).ilk with locked := true } }
    ilkPermit s 0 = true ∧ fireEn (after (.interlock 0 699 10000000) s) 0 = false := by decide +kernel
/-- A clear of RESET_SEEN clears the bits written 1 alone (R537). -/
theorem test_reset_seen : (after (.resetSeenClear 0x2 0) { up with win := { up.win with seen := 0x206 } }).win.seen = 0x204 := by
  decide +kernel
/-- A step takes the command at the front, and an empty queue idles for 10 ns (log 18). -/
theorem test_step_idles : (match step up with | .next t => t.time.clock | _ => 0) = 10 := by decide +kernel
theorem test_step_takes_front :
    (match step { up with pending := [.registerWrite 0x10 4 7, .fenceRelease] } with
      | .next t => (t.win.scratch, t.pending)
      | _ => (0, [])) = (7, [.fenceRelease]) := by decide +kernel
/-- The table gives no bits: no word spells a command. -/
theorem test_decode : decodeTableWord 16 0 = none ∧ up.withFetchWord 16 0 = up := by decide +kernel

end Sys2Proof.Tests
end

section
/-! SUPPORT. Every step keeps a safe state safe (O60), and the state after reset is safe (O59). `Safe` speaks of seven parts of the
state; an update of the others leaves it as it was, and each queue grows only behind the test of its own bound. So there is one
lemma for each operation of the model, in the model's order: `<f>_safe_iff` where the operation neither makes nor breaks safety,
`<f>_safe` where it only keeps it (a queue is emptied or cut, an image byte is stored, VDD_F is commanded), `<f>_safeOut` for a
command's meaning and `<f>_keepsSafe` for the body of a message operation. The bounds themselves are met in
`sendFieldRecord_safe_iff` (R32), `writeResponse_safe` (R41), `startMessage_safe` (R48), `writeTalus_safe` and `pcieRecord_safe`
(R60), `setVdd_safe` (R17), `opPlateData_keepsSafe` and `meetErrors_safe` (the image memory's form, log 12). -/

namespace Sys2Proof.SafetyProofs

open Sys2Proof.Machine Sys2Proof.Laws

/-! ### The bounds on their own -/

/-- The bounds of `Safe`, over the parts of the state that they speak of. -/
def WithinBounds (cells : List Host.Cell) (responses : List Response) (talus : List TalusRec) (held : List EventRec)
    (fsQueue : List (Nat × Msg × Nat)) (fieldHeld : List EventRec) (vddMv : Nat) : Prop :=
  cellsOk none cells = true ∧ responses.length ≤ 256 ∧ talus.length ≤ 32768 ∧ held.length ≤ 1024 ∧
    fsQueue.length ≤ 64 ∧ fieldHeld.length ≤ 4096 ∧ 700 ≤ vddMv ∧ vddMv ≤ 900

@[simp] theorem withinBounds_iff_safe (s : State) :
    WithinBounds s.mem.cells s.mbx.responses s.mbx.talus s.mbx.held s.saddle.fsQueue s.saddle.fieldHeld s.fabric.vddMv ↔
      Safe s := Iff.rfl

/-- A state written out is safe by seven of its parts alone. -/
@[simp] theorem safe_mk_iff (ident : Identity) (mbx : Mailbox) (eth : EthMbx) (win : Window) (objs : Objects) (store : Store)
    (mem : Memory) (bars : List Bar) (bench : Benches) (pos : Position) (sett : Sett) (vision : Vision) (vd : Vd)
    (fabric : Fabric) (ports : List EthPort) (ptp : Ptp) (time : Time) (saddle : Saddle) (ilk : Interlock)
    (thermal : Thermal) (power : Power) (cps : Failover) (cairn : Cairn) (transit : List EventRec) (fresh : Nat)
    (pending : List Instr) :
    Safe ⟨ident, mbx, eth, win, objs, store, mem, bars, bench, pos, sett, vision, vd, fabric, ports, ptp, time, saddle, ilk,
        thermal, power, cps, cairn, transit, fresh, pending⟩ ↔
      WithinBounds mem.cells mbx.responses mbx.talus mbx.held saddle.fsQueue saddle.fieldHeld fabric.vddMv := Iff.rfl

/-- Queues that grow no longer keep the bounds. -/
theorem withinBounds_of_le {c : List Host.Cell} {r r' : List Response} {t t' : List TalusRec} {h h' : List EventRec}
    {q q' : List (Nat × Msg × Nat)} {f f' : List EventRec} {v : Nat} (hs : WithinBounds c r t h q f v)
    (hr : r'.length ≤ r.length) (ht : t'.length ≤ t.length) (hh : h'.length ≤ h.length) (hq : q'.length ≤ q.length)
    (hf : f'.length ≤ f.length) : WithinBounds c r' t' h' q' f' v := by
  obtain ⟨hc, h1, h2, h3, h4, h5, h6⟩ := hs
  exact ⟨hc, Nat.le_trans hr h1, Nat.le_trans ht h2, Nat.le_trans hh h3, Nat.le_trans hq h4, Nat.le_trans hf h5, h6⟩

theorem length_drop_le {α : Type} (n : Nat) (l : List α) : (l.drop n).length ≤ l.length :=
  Nat.le_trans (Nat.le_of_eq List.length_drop) (Nat.sub_le ..)

@[simp] theorem safe_ite_iff (c : Prop) [Decidable c] (a b : State) :
    Safe (if c then a else b) ↔ if c then Safe a else Safe b := by
  split <;> rfl

/-- A fold whose step neither makes nor breaks safety. -/
@[simp] theorem foldl_safe_iff {α : Type} {f : State → α → State} (hf : ∀ s a, Safe (f s a) ↔ Safe s) (l : List α)
    (s : State) :
    Safe (l.foldl f s) ↔ Safe s := by
  induction l generalizing s with
  | nil => rfl
  | cons a l ih => rw [List.foldl_cons, ih, hf]

/-- A fold whose step keeps safe states safe. -/
@[simp] theorem foldl_safe {α : Type} {f : State → α → State} (hf : ∀ s a, Safe s → Safe (f s a)) (l : List α) {s : State}
    (hs : Safe s) : Safe (l.foldl f s) := by
  induction l generalizing s with
  | nil => exact hs
  | cons a l ih => exact ih (hf s a hs)

/-- The same of a fold that carries more than the state. -/
theorem foldl_pair_safe_iff {α β : Type} {f : State × β → α → State × β} (hf : ∀ p a, Safe (f p a).1 ↔ Safe p.1) (l : List α)
    (p : State × β) : Safe (l.foldl f p).1 ↔ Safe p.1 := by
  induction l generalizing p with
  | nil => rfl
  | cons a l ih => rw [List.foldl_cons, ih, hf]

/-! ### Outcomes and results -/

/-- The next state of an outcome, where there is one, is safe. -/
def SafeOut (o : Out) : Prop := ∀ t, o = .next t → Safe t

@[simp] theorem safeOut_next_iff (s : State) : SafeOut (.next s) ↔ Safe s :=
  ⟨fun h => h s rfl, fun h t ht => by cases ht; exact h⟩

@[simp] theorem safeOut_ite_iff (c : Prop) [Decidable c] (a b : Out) :
    SafeOut (if c then a else b) ↔ if c then SafeOut a else SafeOut b := by
  split <;> rfl

/-- A good answer leaves a safe state. -/
def SafeResult (x : OpResult) : Prop := ∀ r, x = .ok r → Safe r.state

@[simp] theorem safeResult_ok_iff (r : OpOk) : SafeResult (.ok r) ↔ Safe r.state :=
  ⟨fun h => h r rfl, fun h t ht => by cases ht; exact h⟩

@[simp] theorem safeResult_error (e : OpErr) : SafeResult (.error e) := fun _ h => by cases h

@[simp] theorem safeResult_ite_iff (c : Prop) [Decidable c] (a b : OpResult) :
    SafeResult (if c then a else b) ↔ if c then SafeResult a else SafeResult b := by
  split <;> rfl

/-- The checks of an operation pass, or it leaves no state: what is bound is safe for each value that it takes on. -/
@[simp] theorem safeResult_bind_iff {α : Type} (x : Except OpErr α) (f : α → OpResult) :
    SafeResult (x >>= f) ↔ ∀ a, x = .ok a → SafeResult (f a) := by
  cases x with
  | error e => exact iff_of_true (safeResult_error e) fun a h => by cases h
  | ok a => exact ⟨fun h b hb => by cases hb; exact h, fun h => h a rfl⟩

@[simp] theorem okState_safeResult_iff (s : State) : SafeResult (okState s) ↔ Safe s := safeResult_ok_iff _

@[simp] theorem okBytes_safeResult_iff (s : State) (b : Bytes) : SafeResult (okBytes s b) ↔ Safe s := safeResult_ok_iff _

@[simp] theorem okLate_safeResult_iff (s : State) (b : Bytes) : SafeResult (okLate s b) ↔ Safe s := safeResult_ok_iff _

/-- The body of an operation leaves safe states safe, whatever the message. -/
def KeepsSafe (d : OpDef) : Prop := ∀ (m : Msg) (s : State), Safe s → SafeResult (d.body m s)

theorem orErr_eq_ok_iff {α : Type} {x : Option α} {e : OpErr} {a : α} : orErr x e = .ok a ↔ x = some a := by
  cases x <;> simp [orErr]

/-! ### Status words and interrupts -/

@[simp] theorem sendVector_safe_iff (k : Nat) (s : State) : Safe (sendVector k s) ↔ Safe s := by
  simp [sendVector]

@[simp] theorem interrupt_safe_iff (k : Nat) (s : State) : Safe (interrupt k s) ↔ Safe s := by
  simp [interrupt]

@[simp] theorem noteStatus_safe_iff (before s : State) : Safe (noteStatus before s) ↔ Safe s := by
  simp [noteStatus]

@[simp] theorem discardWrite_safe_iff (undefinedReg : Bool) (offset : Nat) (s : State) :
    Safe (discardWrite undefinedReg offset s) ↔ Safe s := by
  simp [discardWrite]

/-! ### Events, objects, answers and the run of a message -/

@[simp] theorem takeFree_safe_iff (w : Nat) (s : State) : Safe (takeFree w s).2 ↔ Safe s := Iff.rfl

theorem commandVdd_safe (mv : Nat) (s : State) (hl : 700 ≤ mv) (hu : mv ≤ 900) (hs : Safe s) : Safe (commandVdd mv s) := by
  obtain ⟨hc, hr, ht, hh, hq, hf, -⟩ := hs
  exact ⟨hc, hr, ht, hh, hq, hf, hl, hu⟩

@[simp] theorem floatVdd_safe (s : State) (hs : Safe s) : Safe (floatVdd s) := by
  obtain ⟨hc, hr, ht, hh, hq, hf, -⟩ := hs
  exact ⟨hc, hr, ht, hh, hq, hf, (by decide : 700 ≤ 900), Nat.le_refl 900⟩

@[simp] theorem domainOff_safe_iff (n : Nat) (s : State) : Safe (domainOff n s) ↔ Safe s := Iff.rfl

@[simp] theorem hostEventTo_safe_iff (dest : Option Nat) (code : Nat) (src : BitVec 32) (args : Bytes) (s : State) :
    Safe (hostEventTo dest code src args s) ↔ Safe s := Iff.rfl

@[simp] theorem hostEvent_safe_iff (code : Nat) (src : BitVec 32) (args : Bytes) (s : State) :
    Safe (hostEvent code src args s) ↔ Safe s := Iff.rfl

/-- A record is kept on the field die only while fewer than 4,096 are (R32). -/
@[simp] theorem sendFieldRecord_safe_iff (r : EventRec) (s : State) : Safe (sendFieldRecord r s) ↔ Safe s := by
  fun_cases sendFieldRecord
  case case1 hlen =>
    have hl : (s.saddle.fieldHeld ++ [r]).length ≤ 4096 ↔ s.saddle.fieldHeld.length ≤ 4096 := by
      rw [List.length_append, List.length_singleton]
      omega
    simp only [Safe, hl]
  all_goals exact Iff.rfl

@[simp] theorem fieldEventAt_safe_iff (code : Nat) (src : BitVec 32) (web : Option Nat) (args : Bytes) (s : State) :
    Safe (fieldEventAt code src web args s) ↔ Safe s := by
  simp [fieldEventAt]

@[simp] theorem fieldEvent_safe_iff (code : Nat) (src : BitVec 32) (args : Bytes) (s : State) :
    Safe (fieldEvent code src args s) ↔ Safe s := by
  simp [fieldEvent]

@[simp] theorem deliverHeld_safe (s : State) (hs : Safe s) : Safe (deliverHeld s) := by
  fun_cases deliverHeld
  · exact hs
  · exact withinBounds_of_le hs (Nat.le_refl _) (Nat.le_refl _) (Nat.le_refl _) (Nat.le_refl _) (Nat.zero_le _)

@[simp] theorem setPlate_safe_iff (s : State) (h : BitVec 32) (f : Plate → Plate) :
    Safe (setPlate s h f) ↔ Safe s := Iff.rfl

@[simp] theorem setChannel_safe_iff (s : State) (h : BitVec 32) (f : Channel → Channel) :
    Safe (setChannel s h f) ↔ Safe s := Iff.rfl

@[simp] theorem setRun_safe_iff (s : State) (h : BitVec 32) (f : Run → Run) : Safe (setRun s h f) ↔ Safe s := Iff.rfl

@[simp] theorem setStream_safe_iff (s : State) (h : BitVec 32) (f : VdStream → VdStream) :
    Safe (setStream s h f) ↔ Safe s := Iff.rfl

@[simp] theorem setTrigger_safe_iff (s : State) (h : BitVec 32) (f : Trigger → Trigger) :
    Safe (setTrigger s h f) ↔ Safe s := Iff.rfl

@[simp] theorem setCamset_safe_iff (s : State) (h : BitVec 32) (f : CamSet → CamSet) :
    Safe (setCamset s h f) ↔ Safe s := Iff.rfl

@[simp] theorem setCalset_safe_iff (s : State) (h : BitVec 32) (f : CalSet → CalSet) :
    Safe (setCalset s h f) ↔ Safe s := Iff.rfl

@[simp] theorem setTimer_safe_iff (s : State) (h : BitVec 32) (f : Timer → Timer) :
    Safe (setTimer s h f) ↔ Safe s := Iff.rfl

@[simp] theorem setBar_safe_iff (s : State) (b : Nat) (f : Bar → Bar) : Safe (setBar s b f) ↔ Safe s := Iff.rfl

@[simp] theorem setHead_safe_iff (s : State) (b i : Nat) (f : Head → Head) : Safe (setHead s b i f) ↔ Safe s := Iff.rfl

theorem takeExtents_safe_iff {n : Nat} {s t : State} {l : List Nat} (h : takeExtents n s = some
    (l, t)) : Safe t ↔ Safe s := by
  unfold takeExtents at h
  split at h
  · cases h; rfl
  · cases h

@[simp] theorem giveExtents_safe_iff (l : List Nat) (s : State) : Safe (giveExtents l s) ↔ Safe s := Iff.rfl

@[simp] theorem writeStatusBlock_safe_iff (s : State) : Safe (writeStatusBlock s) ↔ Safe s := Iff.rfl

@[simp] theorem sessionEvent_safe_iff (id : BitVec 32) (cause : Nat) (s : State) :
    Safe (sessionEvent id cause s) ↔ Safe s := by
  simp [sessionEvent]

@[simp] theorem setSession_safe_iff (inst : Nat) (f : Session → Session) (s : State) :
    Safe (setSession inst f s) ↔ Safe s := Iff.rfl

@[simp] theorem closeSession_safe (inst cause : Nat) (s : State) (hs : Safe s) : Safe (closeSession inst cause s) := by
  fun_cases closeSession
  · exact hs
  · exact (sessionEvent_safe_iff _ _ _).mpr
      (withinBounds_of_le hs (Nat.le_refl _) (Nat.le_refl _) (Nat.le_refl _) (List.length_filter_le _ _) (Nat.le_refl _))

@[simp] theorem sendUdp_safe_iff (port : Nat) (v6 : Bool) (b : Bytes) (s : State) :
    Safe (sendUdp port v6 b s) ↔ Safe s := Iff.rfl

@[simp] theorem sendDatagram_safe (inst kind : Nat) (body : Bytes) (s : State) (hs : Safe s) :
    Safe (sendDatagram inst kind body s) := by
  unfold sendDatagram
  dsimp only
  split <;> simp [hs]

/-- The response ring takes a response only while it holds fewer than 256 (R41). -/
@[simp] theorem writeResponse_safe (inst : Nat) (r : Response) (s : State) (hs : Safe s) :
    Safe (writeResponse inst r s) := by
  fun_cases writeResponse
  case case1 hfree _ =>
    obtain ⟨hc, -, hrest⟩ := hs
    refine (interrupt_safe_iff _ _).mpr ((writeStatusBlock_safe_iff _).mpr ⟨hc, ?_, hrest⟩)
    rw [List.length_append, List.length_singleton]
    omega
  case case2 => exact hs
  case case3 => exact sendDatagram_safe _ _ _ _ hs

@[simp] theorem doneEvent_safe_iff (m : Msg) (status : Nat) (s : State) : Safe (doneEvent m status s) ↔ Safe s := Iff.rfl

theorem clearRings_safe (s : State) (m : Mailbox) (hm : m.held = s.mbx.held) (hs : Safe s) :
    Safe { s with mbx := clearRings m } := by
  obtain ⟨hc, -, -, hh, hrest⟩ := hs
  exact ⟨hc, Nat.zero_le _, Nat.zero_le _, hm ▸ hh, hrest⟩

@[simp] theorem settleDrain_safe (s : State) (hs : Safe s) : Safe (settleDrain s) := by
  unfold settleDrain
  split
  · dsimp only
    split
    · exact clearRings_safe s _ rfl hs
    · exact hs
  · exact hs

@[simp] theorem dropFlight_safe (place : Nat) (s : State) (hs : Safe s) : Safe (dropFlight place s) := by
  simp [dropFlight, hs]

@[simp] theorem keepFlight_safe_iff (op : Nat) (m : Msg) (place : Nat) (phase : MsgPhase) (s : State) :
    Safe (keepFlight op m place phase s) ↔ Safe s := Iff.rfl

@[simp] theorem answer_safe (op : Nat) (m : Msg) (place st : Nat) (handle : Option (BitVec 32)) (payload : Bytes)
    (final : Option Nat) (s : State) (hs : Safe s) : Safe (answer op m place st handle payload final s) := by
  have hw : ∀ r, Safe (writeResponse m.inst r s) := fun r => writeResponse_safe _ r s hs
  unfold answer
  dsimp only
  split
  · simp [hs, hw]
  · exact dropFlight_safe _ _ (by simp [hs, hw])

@[simp] theorem finishFlight_safe_iff (op : Nat) (m : Msg) (status : Nat) (s : State) :
    Safe (finishFlight op m status s) ↔ Safe s := Iff.rfl

/-- What an operation answers leaves a safe state: its checks change nothing (R46). -/
theorem opResult_safeResult {d : OpDef} (hd : KeepsSafe d) (m : Msg) (s : State) (hs : Safe s) :
    SafeResult (opResult d m s) :=
  (safeResult_bind_iff _ _).mpr fun _ _ => hd m s hs

@[simp] theorem runOp_safe (d : OpDef) (m : Msg) (place : Nat) (s : State) (hd : KeepsSafe d) (hs : Safe s) :
    Safe (runOp d m place s) := by
  fun_cases runOp
  case case1 r hr => exact answer_safe _ _ _ _ _ _ _ _ (opResult_safeResult hd m s hs r hr)
  case case2 => exact answer_safe _ _ _ _ _ _ _ _ hs

/-- The FS's queue takes a message only while it holds fewer than 64 (R48). -/
@[simp] theorem startMessage_safe (d : OpDef) (m : Msg) (place : Nat) (s : State) (hd : KeepsSafe d) (hs : Safe s) :
    Safe (startMessage d m place s) := by
  fun_cases startMessage
  case case1 | case2 => exact answer_safe _ _ _ _ _ _ _ _ hs
  case case3 hfree _ =>
    obtain ⟨hc, hr, ht, hh, -, hrest⟩ := hs
    refine ⟨hc, hr, ht, hh, ?_, hrest⟩
    rw [List.length_append, List.length_singleton]
    exact Nat.lt_of_not_le hfree
  case case4 => exact runOp_safe d m place s hd hs

@[simp] theorem takeNew_safe (d : OpDef) (m : Msg) (s : State) (hd : KeepsSafe d) (hs : Safe s) : Safe (takeNew d m s) := by
  fun_cases takeNew
  · exact runOp_safe d m _ s hd hs
  · exact startMessage_safe d m _ s hd hs
  · exact hs

@[simp] theorem message_safe (d : OpDef) (m : Msg) (s : State) (hd : KeepsSafe d) (hs : Safe s) : Safe (message d m s) := by
  fun_cases message
  case case2 => exact startMessage_safe d m _ s hd hs
  case case4 =>
    exact runOp_safe d m _ _ hd (withinBounds_of_le hs (Nat.le_refl _) (Nat.le_refl _) (Nat.le_refl _) (length_drop_le ..)
      (Nat.le_refl _))
  case case6 => exact takeNew_safe d m s hd hs
  all_goals exact hs

@[simp] theorem done_safeOut_iff (before after : State) : SafeOut (done before after) ↔ Safe after :=
  (safeOut_next_iff _).trans (noteStatus_safe_iff before after)

/-! ### Plates -/

@[simp] theorem opPlateCreate_keepsSafe : KeepsSafe opPlateCreate := fun m s hs => by
  simp only [opPlateCreate, safeResult_bind_iff, orErr_eq_ok_iff]
  rintro ⟨ext, s1⟩ hext ⟨i, t⟩ -
  exact (safeResult_ok_iff _).mpr ((takeExtents_safe_iff hext).mpr hs)

theorem storePacked_wf (p : Plate) (fuel o : Nat) (b : Bytes) (m : Memory) (hm : m.wf = true) :
    (storePacked p fuel o b m).wf = true := by
  induction fuel generalizing o b m with
  | zero => exact hm
  | succ fuel ih =>
    unfold storePacked
    split
    · exact hm
    · exact ih _ _ _ (memStore_wf hm)

theorem storeDigest_wf (p : Plate) (i : Nat) (d : BitVec 384) (m : Memory) (hm : m.wf = true) :
    (storeDigest p i d m).wf = true :=
  memStore_wf (memStore_wf hm)

theorem withMem_safe (s : State) (m : Memory) (hm : m.wf = true) (hs : Safe s) : Safe { s with mem := m } := by
  obtain ⟨-, hrest⟩ := hs
  exact ⟨hm, hrest⟩

@[simp] theorem opPlateData_keepsSafe : KeepsSafe opPlateData := fun m s hs => by
  simp only [opPlateData, safeResult_bind_iff]
  rintro p - - -
  refine (okState_safeResult_iff _).mpr ((setPlate_safe_iff _ _ _).mpr (withMem_safe s _ ?_ hs))
  exact storeDigest_wf _ _ _ _ (storePacked_wf _ _ _ _ _ hs.1)

@[simp] theorem damagePlate_safe_iff (h : BitVec 32) (off : Nat) (s : State) : Safe (damagePlate h off s) ↔ Safe s := by
  unfold damagePlate
  dsimp only
  split <;> simp

@[simp] theorem damageRead_safe_iff (h : BitVec 32) (p : Plate) (o n : Nat) (s : State) :
    Safe (damageRead h p o n s) ↔ Safe s := by
  simp [damageRead]

@[simp] theorem opPlateRead_keepsSafe : KeepsSafe opPlateRead := fun m s hs => by
  simp [opPlateRead, hs]

@[simp] theorem opPlateSeal_keepsSafe : KeepsSafe opPlateSeal := fun m s hs => by
  simp only [opPlateSeal, safeResult_bind_iff]
  intros
  split <;> simp [hs]

@[simp] theorem opPlateDestroy_keepsSafe : KeepsSafe opPlateDestroy := fun m s hs => by
  simp [opPlateDestroy, hs]

@[simp] theorem opPlateQuery_keepsSafe : KeepsSafe opPlateQuery := fun m s hs => by
  simp [opPlateQuery, hs]

@[simp] theorem opPlateStoreQuery_keepsSafe : KeepsSafe opPlateStoreQuery := fun m s hs => by
  simp [opPlateStoreQuery, hs]

/-! ### FIRE_EN -/

@[simp] theorem noteFireEn_safe_iff (cause : Nat) (before s : State) : Safe (noteFireEn cause before s) ↔ Safe s := by
  simp [noteFireEn]

/-! ### Lines of a run -/

@[simp] theorem armRun_safe_iff (h : BitVec 32) (first : Nat) (s : State) : Safe (armRun h first s) ↔ Safe s := by
  unfold armRun
  dsimp only
  split <;> simp

@[simp] theorem parkBars_safe_iff (s : State) : Safe (parkBars s) ↔ Safe s := Iff.rfl

/-! ### The image memory -/

@[simp] theorem damageAddress_safe_iff (a : Nat) (s : State) : Safe (damageAddress a s) ↔ Safe s := by
  refine foldl_safe_iff (fun s e => ?_) _ s
  split <;> simp

@[simp] theorem readUncorrectable_safe_iff (a cause : Nat) (s : State) : Safe (readUncorrectable a cause s) ↔ Safe s := by
  simp [readUncorrectable]

@[simp] theorem readCorrected_safe_iff (a : Nat) (scrub : Bool) (s : State) : Safe (readCorrected a scrub s) ↔ Safe s := by
  simp [readCorrected]

theorem execScrubPass_safeOut (s : State) (hs : Safe s) : SafeOut (execScrubPass s) := by
  rw [execScrubPass, safeOut_next_iff]
  split
  · exact hs
  · exact (fieldEvent_safe_iff _ _ _ _).mpr hs

theorem execPowerDownEntry_safeOut (rank : Fin 8) (s : State) (hs : Safe s) : SafeOut (execPowerDownEntry rank s) := by
  simp [execPowerDownEntry, hs]

theorem execSelfRefreshEntry_safeOut (s : State) (hs : Safe s) : SafeOut (execSelfRefreshEntry s) := by
  simp [execSelfRefreshEntry, hs]

@[simp] theorem wakeMemory_safe_iff (s : State) : Safe (wakeMemory s) ↔ Safe s := by
  simp [wakeMemory]

theorem execSelfRefreshExit_safeOut (s : State) (hs : Safe s) : SafeOut (execSelfRefreshExit s) := by
  unfold execSelfRefreshExit
  dsimp only
  split <;> simp [hs]

theorem execZqCalibration_safeOut (s : State) (hs : Safe s) : SafeOut (execZqCalibration s) := by
  simp [execZqCalibration, hs]

@[simp] theorem rankTemp_safe_iff (temps : List Int) (r : Nat) (s : State) : Safe (rankTemp temps r s) ↔ Safe s := by
  simp only [rankTemp, safe_ite_iff]
  repeat' split
  all_goals simp [-fieldEvent_frame]

theorem execDramTempRead_safeOut (temps : List Int) (s : State) (hs : Safe s) : SafeOut (execDramTempRead temps s) := by
  simp [execDramTempRead, hs]

theorem execMemTrained_safeOut (stepsPass probePass : Bool) (margin : Nat) (rank : Fin 8) (words : List (BitVec 32))
    (s : State) (hs : Safe s) :
    SafeOut (execMemTrained stepsPass probePass margin rank words s) := by
  simp [execMemTrained, hs]

@[simp] theorem opDiagMemConfig_keepsSafe : KeepsSafe opDiagMemConfig := fun m s hs => by
  simp [opDiagMemConfig, hs]

@[simp] theorem opDiagMemQuery_keepsSafe : KeepsSafe opDiagMemQuery := fun m s hs => by
  simp [opDiagMemQuery, hs]

@[simp] theorem opDiagMemTraining_keepsSafe : KeepsSafe opDiagMemTraining := fun m s hs => by
  simp [opDiagMemTraining, hs]

/-! ### Audit records -/

@[simp] theorem enterRecord_safe_iff (ty : Nat) (session : BitVec 32) (flags entries : Nat) (body : Bytes) (s : State) :
    Safe (enterRecord ty session flags entries body s) ↔ Safe s := Iff.rfl

@[simp] theorem writeRecord_safe_iff (ty : Nat) (session : BitVec 32) (flags entries : Nat) (body : Bytes) (s : State) :
    Safe (writeRecord ty session flags entries body s) ↔ Safe s := by
  simp [writeRecord]

@[simp] theorem enterDue_safe_iff (fuel : Nat) (s : State) : Safe (enterDue fuel s) ↔ Safe s := by
  fun_induction enterDue <;> simp_all

@[simp] theorem recordRun_safe_iff (h : BitVec 32) (r : Run) (cause : Nat) (s : State) :
    Safe (recordRun h r cause s) ↔ Safe s := by
  simp [recordRun]

@[simp] theorem flushWaiting_safe_iff (s : State) : Safe (flushWaiting s) ↔ Safe s := by
  simp [flushWaiting]

@[simp] theorem auditRuns_safe_iff (p : Run → Bool) (f : RunAudit → RunAudit) (s : State) :
    Safe (auditRuns p f s) ↔ Safe s := Iff.rfl

/-! ### Variable data -/

@[simp] theorem finishItem_safe_iff (slot seq : Nat) (fin : ItemState) (cause : Nat) (v : Verdict) (s : State) :
    Safe (finishItem slot seq fin cause v s) ↔ Safe s := by
  unfold finishItem
  split
  · rfl
  · split
    · rfl
    · simp only [safe_ite_iff, fieldEvent_safe_iff, fieldEventAt_safe_iff, ite_self]
      split <;> rfl

@[simp] theorem finishItems_safe_iff (slot : Nat) (seqs : List Nat) (fin : ItemState) (cause : Nat) (s : State) :
    Safe (finishItems slot seqs fin cause s) ↔ Safe s := by
  simp [finishItems]

@[simp] theorem setItem_safe_iff (slot seq : Nat) (f : Item → Item) (s : State) :
    Safe (setItem slot seq f s) ↔ Safe s := Iff.rfl

@[simp] theorem settleItems_safe_iff (r : Run) (cause firstBlank : Nat) (s : State) :
    Safe (settleItems r cause firstBlank s) ↔ Safe s := by
  simp [settleItems]

@[simp] theorem opVdCreate_keepsSafe : KeepsSafe opVdCreate := fun m s hs => by
  simp only [opVdCreate, safeResult_bind_iff, orErr_eq_ok_iff]
  rintro - - - - - - ⟨ext, s1⟩ hext ⟨i, t⟩ -
  exact (safeResult_ok_iff _).mpr ((takeExtents_safe_iff hext).mpr hs)

@[simp] theorem opVdDestroy_keepsSafe : KeepsSafe opVdDestroy := fun m s hs => by
  simp [opVdDestroy, hs]

@[simp] theorem opVdAttach_keepsSafe : KeepsSafe opVdAttach := fun m s hs => by
  simp [opVdAttach, hs]

@[simp] theorem opVdDetach_keepsSafe : KeepsSafe opVdDetach := fun m s hs => by
  simp [opVdDetach, hs]

@[simp] theorem opVdPush_keepsSafe : KeepsSafe opVdPush := fun m s hs => by
  simp [opVdPush, hs]

@[simp] theorem opVdVerifyConfig_keepsSafe : KeepsSafe opVdVerifyConfig := fun m s hs => by
  simp [opVdVerifyConfig, hs]

@[simp] theorem opVdRejectConfig_keepsSafe : KeepsSafe opVdRejectConfig := fun m s hs => by
  simp [opVdRejectConfig, hs]

@[simp] theorem opVdCancel_keepsSafe : KeepsSafe opVdCancel := fun m s hs => by
  simp [opVdCancel, hs]

@[simp] theorem opVdResults_keepsSafe : KeepsSafe opVdResults := fun m s hs => by
  simp [opVdResults, hs]

@[simp] theorem opVdQuery_keepsSafe : KeepsSafe opVdQuery := fun m s hs => by
  simp [opVdQuery, hs]

@[simp] theorem opVdRecovery_keepsSafe : KeepsSafe opVdRecovery := fun m s hs => by
  simp [opVdRecovery, hs]

@[simp] theorem opVdFontWrite_keepsSafe : KeepsSafe opVdFontWrite := fun m s hs => by
  simp [opVdFontWrite, hs]

theorem execItemRendered_safeOut (slot : Fin 16) (s : State) (hs : Safe s) : SafeOut (execItemRendered slot s) := by
  unfold execItemRendered
  dsimp only
  repeat' split
  all_goals simp [hs]

theorem execItemContentVoid_safeOut (slot : Fin 16) (s : State) (hs : Safe s) : SafeOut (execItemContentVoid slot s) := by
  unfold execItemContentVoid
  repeat' split
  all_goals simp [hs]

theorem execItemLastLine_safeOut (slot : Fin 16) (seq : BitVec 64) (s : State) (hs : Safe s) :
    SafeOut (execItemLastLine slot seq s) := by
  unfold execItemLastLine
  repeat' split
  all_goals simp [hs]

theorem execItemVerdict_safeOut (slot : Fin 16) (seq : BitVec 64) (s : State) (hs : Safe s) :
    SafeOut (execItemVerdict slot seq s) := by
  unfold execItemVerdict
  dsimp only
  repeat' split
  all_goals simp [hs]

theorem execVerifyTimeout_safeOut (slot : Fin 16) (seq : BitVec 64) (s : State) (hs : Safe s) :
    SafeOut (execVerifyTimeout slot seq s) := by
  unfold execVerifyTimeout
  repeat' split
  all_goals simp [hs]

@[simp] theorem setRejects_safe_iff (slot : Nat) (f : List Reject → List Reject) (s : State) :
    Safe (setRejects slot f s) ↔ Safe s := Iff.rfl

theorem execRejectStart_safeOut (slot : Fin 16) (s : State) (hs : Safe s) : SafeOut (execRejectStart slot s) := by
  simp [execRejectStart, hs]

theorem execRejectEnd_safeOut (slot : Fin 16) (s : State) (hs : Safe s) : SafeOut (execRejectEnd slot s) := by
  simp [execRejectEnd, hs]

theorem execRejectOverflow_safeOut (slot : Fin 16) (s : State) (hs : Safe s) : SafeOut (execRejectOverflow slot s) := by
  unfold execRejectOverflow
  dsimp only
  split <;> simp [hs]

@[simp] theorem vdEngineFault_safe_iff (engine cause : Nat) (s : State) : Safe (vdEngineFault engine cause s) ↔ Safe s := by
  simp [vdEngineFault]

theorem execVdFault_safeOut (engine : Fin 2) (cause : Fin 3) (s : State) (hs : Safe s) :
    SafeOut (execVdFault engine cause s) := by
  simp [execVdFault, hs]

/-! ### Bench tables -/

@[simp] theorem pushServeAt_safe_iff (b item line at_ : Nat) (s : State) :
    Safe (pushServeAt b item line at_ s) ↔ Safe s := by
  simp [pushServeAt]

@[simp] theorem pushServe_safe_iff (b item line : Nat) (s : State) : Safe (pushServe b item line s) ↔ Safe s := by
  simp [pushServe]

@[simp] theorem stageNozzles_safe_iff (b owner : Nat) (l : List (Nat × Edit)) (s : State) :
    Safe (stageNozzles b owner l s) ↔ Safe s := Iff.rfl

@[simp] theorem enterTable_safe_iff (b : Nat) (h : BitVec 32) (owner k : Nat) (line : Option Nat) (s : State) :
    Safe (enterTable b h owner k line s) ↔ Safe s := by
  fun_cases enterTable <;> simp

@[simp] theorem disturb_safe_iff (b line : Nat) (s : State) : Safe (disturb b line s) ↔ Safe s := Iff.rfl

@[simp] theorem emitSwitch_safe_iff (b : Nat) (w : Switch) (line : Option Nat) (s : State) :
    Safe (emitSwitch b w line s) ↔ Safe s := by
  simp [emitSwitch]

@[simp] theorem switchTables_safe_iff (b : Nat) (h : BitVec 32) (owner : Nat) (seq : BitVec 32) (keys : List Nat)
    (line : Option Nat) (s : State) :
    Safe (switchTables b h owner seq keys line s) ↔ Safe s := by
  unfold switchTables
  dsimp only
  split <;> simp

@[simp] theorem ownerCommit_safe_iff (b : Nat) (h : BitVec 32) (owner : Nat) (s : State) :
    Safe (ownerCommit b h owner s).1 ↔ Safe s := by
  unfold ownerCommit
  dsimp only
  repeat' split
  all_goals simp

@[simp] theorem settleTables_safe_iff (h : BitVec 32) (s : State) : Safe (settleTables h s) ↔ Safe s := by
  unfold settleTables
  dsimp only
  split <;> simp

@[simp] theorem opBenchToneWrite_keepsSafe : KeepsSafe opBenchToneWrite := fun m s hs => by
  simp [opBenchToneWrite, hs]

@[simp] theorem opBenchNozzleWrite_keepsSafe : KeepsSafe opBenchNozzleWrite := fun m s hs => by
  simp only [opBenchNozzleWrite, safeResult_bind_iff]
  intros
  repeat' split
  all_goals simp [hs]

@[simp] theorem opBenchScreenDefine_keepsSafe : KeepsSafe opBenchScreenDefine := fun m s hs => by
  simp [opBenchScreenDefine, hs]

@[simp] theorem opBenchScreenWrite_keepsSafe : KeepsSafe opBenchScreenWrite := fun m s hs => by
  simp [opBenchScreenWrite, hs]

@[simp] theorem opBenchSubstWrite_keepsSafe : KeepsSafe opBenchSubstWrite := fun m s hs => by
  simp [opBenchSubstWrite, hs]

@[simp] theorem opBenchStitchWrite_keepsSafe : KeepsSafe opBenchStitchWrite := fun m s hs => by
  simp [opBenchStitchWrite, hs]

@[simp] theorem opBenchDropmapWrite_keepsSafe : KeepsSafe opBenchDropmapWrite := fun m s hs => by
  simp [opBenchDropmapWrite, hs]

@[simp] theorem opBenchCommit_keepsSafe : KeepsSafe opBenchCommit := fun m s hs => by
  simp only [opBenchCommit, safeResult_bind_iff]
  intros
  repeat' split
  all_goals simp [hs]

@[simp] theorem dropStaged_safe_iff (b : Nat) (h : BitVec 32) (k : Nat) (s : State) :
    Safe (dropStaged b h k s) ↔ Safe s := by
  fun_cases dropStaged <;> simp

@[simp] theorem opBenchDiscard_keepsSafe : KeepsSafe opBenchDiscard := fun m s hs => by
  simp [opBenchDiscard, hs]

@[simp] theorem opBenchRead_keepsSafe : KeepsSafe opBenchRead := fun m s hs => by
  simp [opBenchRead, hs]

theorem execTableSwitched_safeOut (bar : Fin 8) (s : State) (hs : Safe s) : SafeOut (execTableSwitched bar s) := by
  simp [execTableSwitched, hs]

/-! ### Channels and runs -/

@[simp] theorem opChanCreate_keepsSafe : KeepsSafe opChanCreate := fun m s hs => by
  simp [opChanCreate, hs]

@[simp] theorem opChanDestroy_keepsSafe : KeepsSafe opChanDestroy := fun m s hs => by
  simp [opChanDestroy, hs]

@[simp] theorem opChanQuery_keepsSafe : KeepsSafe opChanQuery := fun m s hs => by
  simp [opChanQuery, hs]

@[simp] theorem opChanNextPlate_keepsSafe : KeepsSafe opChanNextPlate := fun m s hs => by
  simp [opChanNextPlate, hs]

@[simp] theorem decideGroup_safe_iff (h : BitVec 32) (group : Option Nat) (s : State) :
    Safe (decideGroup h group s) ↔ Safe s := by
  unfold decideGroup
  dsimp only
  repeat' split
  all_goals simp

theorem execSwitchDecision_safeOut (run : Fin 8) (s : State) (hs : Safe s) : SafeOut (execSwitchDecision run s) := by
  unfold execSwitchDecision
  dsimp only
  split <;> simp [hs]

@[simp] theorem renewHistory_safe_iff (lane web64 : Nat) (s : State) : Safe (renewHistory lane web64 s) ↔ Safe s := Iff.rfl

@[simp] theorem completeSwitch_safe_iff (h : BitVec 32) (web : Nat) (s : State) :
    Safe (completeSwitch h web s) ↔ Safe s := by
  fun_cases completeSwitch <;> simp

theorem execPlateSwitched_safeOut (chan : Fin 64) (s : State) (hs : Safe s) : SafeOut (execPlateSwitched chan s) := by
  unfold execPlateSwitched
  repeat' split
  all_goals simp [hs]

@[simp] theorem dropSwitches_safe_iff (h : BitVec 32) (upTo web : Nat) (s : State) :
    Safe (dropSwitches h upTo web s) ↔ Safe s := by
  unfold dropSwitches
  dsimp only
  split <;> simp

@[simp] theorem unbind_safe_iff (r : Run) (upTo : Nat) (s : State) : Safe (unbind r upTo s) ↔ Safe s := by
  simp [unbind]

@[simp] theorem endRun_safe_iff (h : BitVec 32) (cause last : Nat) (s : State) : Safe (endRun h cause last s) ↔ Safe s := by
  unfold endRun
  dsimp only
  repeat' split
  all_goals simp

@[simp] theorem opRunCreate_keepsSafe : KeepsSafe opRunCreate := fun m s hs => by
  have hv : 700 ≤ s.fabric.vddMv ∧ s.fabric.vddMv ≤ 900 := hs.2.2.2.2.2.2
  simp only [opRunCreate, safeResult_bind_iff]
  intros
  refine (safeResult_ok_iff _).mpr (foldl_safe (fun s c h => (setChannel_safe_iff s c _).mpr h) _ ?_)
  exact commandVdd_safe _ _ (by omega) (by omega) hs

@[simp] theorem opRunStart_keepsSafe : KeepsSafe opRunStart := fun m s hs => by
  simp [opRunStart, hs]

@[simp] theorem opRunStop_keepsSafe : KeepsSafe opRunStop := fun m s hs => by
  simp [opRunStop, hs]

@[simp] theorem drainRun_safe_iff (r : Run) (blank : Nat) (s : State) : Safe (drainRun r blank s) ↔ Safe s := by
  simp [drainRun]

@[simp] theorem opRunAbort_keepsSafe : KeepsSafe opRunAbort := fun m s hs => by
  simp only [opRunAbort, safeResult_bind_iff]
  intros
  repeat' split
  all_goals simp [hs]

@[simp] theorem opRunDestroy_keepsSafe : KeepsSafe opRunDestroy := fun m s hs => by
  simp [opRunDestroy, hs]

@[simp] theorem opRunQuery_keepsSafe : KeepsSafe opRunQuery := fun m s hs => by
  simp [opRunQuery, hs]

/-! ### Output lines -/

@[simp] theorem enterDemand_safe_iff (b : Nat) (s0 : State) (src : Src) (zone : Zone) (slot x y t : Nat) (s : State) :
    Safe (enterDemand b s0 src zone slot x y t s) ↔ Safe s := by
  simp [enterDemand]

@[simp] theorem decideItems_safe_iff (b n : Nat) (t : BarTable) (s : State) : Safe (decideItems b n t s) ↔ Safe s := by
  simp [decideItems]

@[simp] theorem noteLost_safe_iff (b n lost : Nat) (s : State) : Safe (noteLost b n lost s) ↔ Safe s := by
  simp [noteLost]

@[simp] theorem damageReads_safe_iff (s0 : State) (src : Src) (x y : Nat) (s : State) :
    Safe (damageReads s0 src x y s) ↔ Safe s := by
  fun_cases damageReads <;> simp

@[simp] theorem screenSlot_safe_iff (b n : Nat) (t : BarTable) (srcs : List Src) (s : State) (e : Nat × SlotRec)
    (acc : State × List (Nat × Nat × Nat) × Nat) : Safe (screenSlot b n t srcs s e acc).1 ↔ Safe acc.1 := by
  refine foldl_pair_safe_iff (fun acc k => ?_) _ acc
  split <;> simp

@[simp] theorem shadowLine_safe_iff (b n : Nat) (s : State) : Safe (shadowLine b n s) ↔ Safe s := Iff.rfl

theorem execOutputLineScreen_safeOut (bar : Fin 8) (s : State) (hs : Safe s) : SafeOut (execOutputLineScreen bar s) := by
  rw [execOutputLineScreen, safeOut_next_iff]
  dsimp only
  split
  · split
    · exact hs
    · refine (shadowLine_safe_iff _ _ _).mpr ((noteLost_safe_iff _ _ _ _).mpr ?_)
      refine (foldl_pair_safe_iff (fun acc e => screenSlot_safe_iff ..) _ _).mpr ?_
      exact (decideItems_safe_iff _ _ _ _).mpr hs
  · exact hs

/-! ### Packets -/

@[simp] theorem setLink_safe_iff (s : State) (k : Nat) (f : Link → Link) : Safe (setLink s k f) ↔ Safe s := Iff.rfl

@[simp] theorem setLane_safe_iff (s : State) (l : Nat) (f : Lane → Lane) : Safe (setLane s l f) ↔ Safe s := Iff.rfl

@[simp] theorem logTx_safe_iff (k type l : Nat) (bytes : Bytes) (s : State) :
    Safe (logTx k type l bytes s) ↔ Safe s := Iff.rfl

@[simp] theorem putControl_safe_iff (k l : Nat) (payload : Bytes) (s : State) :
    Safe (putControl k l payload s) ↔ Safe s := Iff.rfl

@[simp] theorem putPacket_safe_iff (k type : Nat) (body : Bytes) (s : State) : Safe (putPacket k type body s) ↔ Safe s := by
  fun_cases putPacket <;> simp

@[simp] theorem flushGeneral_safe_iff (k fuel : Nat) (s : State) : Safe (flushGeneral k fuel s) ↔ Safe s := by
  fun_induction flushGeneral
  case case3 ih => exact ih.trans (putPacket_safe_iff _ _ _ _)
  all_goals rfl

@[simp] theorem sendGeneral_safe_iff (k type : Nat) (body : Bytes) (s : State) :
    Safe (sendGeneral k type body s) ↔ Safe s := by
  simp [sendGeneral]

@[simp] theorem sendMark_safe_iff (k cls : Nat) (body : Bytes) (s : State) :
    Safe (sendMark k cls body s) ↔ Safe s := Iff.rfl

@[simp] theorem headCommand_safe_iff (b mask cmd : Nat) (s : State) : Safe (headCommand b mask cmd s) ↔ Safe s := by
  simp [headCommand]

@[simp] theorem takePacket_safe_iff (k type : Nat) (s : State) : Safe (takePacket k type s) ↔ Safe s := Iff.rfl

/-! ### The line sequencer -/

@[simp] theorem noteSlack_safe_iff (b n : Nat) (s : State) : Safe (noteSlack b n s) ↔ Safe s := by
  simp [noteSlack]

@[simp] theorem itemsOnLine_safe_iff (b n : Nat) (p : Item → Bool) (f : Item → Item) (s : State) :
    Safe (itemsOnLine b n p f s) ↔ Safe s := by
  fun_cases itemsOnLine <;> simp

@[simp] theorem loseFireLine_safe_iff (b n : Nat) (s : State) : Safe (loseFireLine b n s) ↔ Safe s := by
  simp [loseFireLine]

@[simp] theorem tellMissed_safe_iff (b : Nat) (s : State) : Safe (tellMissed b s) ↔ Safe s := by
  simp [tellMissed]

@[simp] theorem missLine_safe_iff (b n : Nat) (s : State) : Safe (missLine b n s) ↔ Safe s := by
  simp [missLine]

@[simp] theorem handLine_safe_iff (b n : Nat) (missed : Bool) (blocks : List FireBlock) (s : State) :
    Safe (handLine b n missed blocks s) ↔ Safe s := by
  simp [handLine]

@[simp] theorem startDrop_safe_iff (b n : Nat) (drop : Option (Nat × Nat)) (s : State) :
    Safe (startDrop b n drop s) ↔ Safe s := by
  fun_cases startDrop <;> simp

@[simp] theorem itemsFired_safe_iff (b n : Nat) (s : State) : Safe (itemsFired b n s) ↔ Safe s := by
  fun_cases itemsFired <;> simp

theorem execFireLinePack_safeOut (bar : Fin 8) (s : State) (hs : Safe s) : SafeOut (execFireLinePack bar s) := by
  unfold execFireLinePack
  dsimp only
  split <;> simp [hs]

@[simp] theorem handLate_safe_iff (b n out : Nat) (t : BarTable) (s : State) : Safe (handLate b n out t s) ↔ Safe s := by
  simp [handLate]

theorem execLineDeadline_safeOut (bar : Fin 8) (s : State) (hs : Safe s) : SafeOut (execLineDeadline bar s) := by
  unfold execLineDeadline
  dsimp only
  split <;> simp [hs]

@[simp] theorem countLine_safe_iff (src : Src) (y : Nat) (s : State) : Safe (countLine src y s) ↔ Safe s := Iff.rfl

@[simp] theorem countFired_safe_iff (b n : Nat) (s : State) : Safe (countFired b n s) ↔ Safe s := by
  simp [countFired]

@[simp] theorem startRuns_safe_iff (b n : Nat) (s : State) : Safe (startRuns b n s) ↔ Safe s := by
  simp [startRuns]

@[simp] theorem noteRate_safe_iff (b : Nat) (s : State) : Safe (noteRate b s) ↔ Safe s := by
  simp [noteRate]

@[simp] theorem endRuns_safe_iff (s : State) : Safe (endRuns s) ↔ Safe s := by
  refine foldl_safe_iff (fun s e => ?_) _ s
  split
  · rfl
  · split
    · rfl
    · simp

@[simp] theorem dropDrained_safe_iff (b : Nat) (s : State) : Safe (dropDrained b s) ↔ Safe s := Iff.rfl

@[simp] theorem dropInstant_safe_iff (b n : Nat) (fired : Bool) (s : State) :
    Safe (dropInstant b n fired s) ↔ Safe s := Iff.rfl

@[simp] theorem suppressLine_safe_iff (b n : Nat) (s : State) : Safe (suppressLine b n s) ↔ Safe s := by
  simp [suppressLine]

@[simp] theorem fireLine_safe_iff (b n : Nat) (s : State) : Safe (fireLine b n s) ↔ Safe s := by
  simp [fireLine]

@[simp] theorem fireNext_safe_iff (b : Nat) (s : State) : Safe (fireNext b s) ↔ Safe s := by
  unfold fireNext
  dsimp only
  split <;> simp

theorem execFireInstant_safeOut (bar : Fin 8) (s : State) (hs : Safe s) : SafeOut (execFireInstant bar s) := by
  simp [execFireInstant, hs]

@[simp] theorem skipLines_safe_iff (s : State) : Safe (skipLines s) ↔ Safe s := by
  refine foldl_safe_iff (fun s b => ?_) _ s
  split <;> simp

/-! ### Heads -/

@[simp] theorem withCauses_safe_iff (b slot : Nat) (f : List Nat → List Nat) (s : State) :
    Safe (withCauses b slot f s) ↔ Safe s := Iff.rfl

@[simp] theorem recordCause_safe_iff (b slot : Nat) (cause : Option Nat) (s : State) :
    Safe (recordCause b slot cause s) ↔ Safe s := Iff.rfl

@[simp] theorem judgeHead_safe_iff (b slot : Nat) (s : State) : Safe (judgeHead b slot s) ↔ Safe s := by
  unfold judgeHead
  dsimp only
  repeat' split
  all_goals simp

@[simp] theorem opBarGeomWrite_keepsSafe : KeepsSafe opBarGeomWrite := fun m s hs => by
  simp [opBarGeomWrite, hs]

@[simp] theorem opBarGeomCommit_keepsSafe : KeepsSafe opBarGeomCommit := fun m s hs => by
  simp only [opBarGeomCommit]
  split <;> simp [hs]

@[simp] theorem opBarQuery_keepsSafe : KeepsSafe opBarQuery := fun m s hs => by
  simp [opBarQuery, hs]

@[simp] theorem opHeadQuery_keepsSafe : KeepsSafe opHeadQuery := fun m s hs => by
  simp [opHeadQuery, hs]

@[simp] theorem opHeadBlank_keepsSafe : KeepsSafe opHeadBlank := fun m s hs => by
  simp [opHeadBlank, hs]

@[simp] theorem opHeadUnblank_keepsSafe : KeepsSafe opHeadUnblank := fun m s hs => by
  simp [opHeadUnblank, hs]

@[simp] theorem opHeadBandMap_keepsSafe : KeepsSafe opHeadBandMap := fun m s hs => by
  simp [opHeadBandMap, hs]

@[simp] theorem opBarFireEnable_keepsSafe : KeepsSafe opBarFireEnable := fun m s hs => by
  simp [opBarFireEnable, hs]

@[simp] theorem opSysThermalHead_keepsSafe : KeepsSafe opSysThermalHead := fun m s hs => by
  simp [opSysThermalHead, hs]

@[simp] theorem opSysThermalResume_keepsSafe : KeepsSafe opSysThermalResume := fun m s hs => by
  simp [opSysThermalResume, hs]

theorem execHeadRecord_safeOut (bar : Fin 8) (slot : Fin 32) (present : Bool) (record : Bytes) (s : State) (hs : Safe s) :
    SafeOut (execHeadRecord bar slot present record s) := by
  simp [execHeadRecord, hs]

@[simp] theorem headReport_safe_iff (b slot : Nat) (valid : Bool) (t : Int) (s : State) :
    Safe (headReport b slot valid t s) ↔ Safe s := by
  unfold headReport
  dsimp only
  repeat' split
  all_goals simp

theorem execHeadTemp_safeOut (bar : Fin 8) (entries : List (Fin 32 × Bool × Int)) (s : State) (hs : Safe s) :
    SafeOut (execHeadTemp bar entries s) := by
  simp [execHeadTemp, hs]

theorem execHeadReportMissing_safeOut (bar : Fin 8) (slot : Fin 32) (s : State) (hs : Safe s) :
    SafeOut (execHeadReportMissing bar slot s) := by
  simp [execHeadReportMissing, hs]

theorem execHeadLost_safeOut (bar : Fin 8) (slot : Fin 32) (s : State) (hs : Safe s) :
    SafeOut (execHeadLost bar slot s) := by
  simp [execHeadLost, hs]

theorem execDriverStatus_safeOut (bar : Fin 8) (freeLines : Nat) (faults : BitVec 16) (s : State) (hs : Safe s) :
    SafeOut (execDriverStatus bar freeLines faults s) := by
  simp [execDriverStatus, hs]

theorem execHeadBlanked_safeOut (bar : Fin 8) (slot : Fin 32) (s : State) (hs : Safe s) :
    SafeOut (execHeadBlanked bar slot s) := by
  simp [execHeadBlanked, hs]

theorem execHeadResumed_safeOut (bar : Fin 8) (slot : Fin 32) (s : State) (hs : Safe s) :
    SafeOut (execHeadResumed bar slot s) := by
  simp [execHeadResumed, hs]

@[simp] theorem sendServe_safe_iff (b : Nat) (s : State) : Safe (sendServe b s) ↔ Safe s := by
  simp [sendServe]

theorem execServe_safeOut (bar : Fin 8) (s : State) (hs : Safe s) : SafeOut (execServe bar s) := by
  unfold execServe
  dsimp only
  split <;> simp [hs]

/-! ### The spare bench and the sequencers -/

@[simp] theorem setBench_safe_iff (s : State) (i : Nat) (f : Bench → Bench) : Safe (setBench s i f) ↔ Safe s := Iff.rfl

@[simp] theorem benchRotated_safe_iff (b leaving taking cause matched : Nat) (s : State) :
    Safe (benchRotated b leaving taking cause matched s) ↔ Safe s := by
  simp [benchRotated]

@[simp] theorem tellNoSpare_safe_iff (s : State) : Safe (tellNoSpare s) ↔ Safe s := by
  simp [tellNoSpare]

@[simp] theorem removeBench_safe_iff (i : Nat) (s : State) : Safe (removeBench i s) ↔ Safe s := by
  simp [removeBench]

@[simp] theorem declareBench_safe_iff (i cause : Nat) (s : State) : Safe (declareBench i cause s) ↔ Safe s := by
  unfold declareBench
  dsimp only
  repeat' split
  all_goals simp

theorem execBenchFault_safeOut (bench : Fin 9) (cause : Fin 2) (s : State) (hs : Safe s) :
    SafeOut (execBenchFault bench cause s) := by
  unfold execBenchFault
  repeat' split
  all_goals simp [hs]

@[simp] theorem abandonLoan_safe_iff (i b : Nat) (s : State) : Safe (abandonLoan i b s) ↔ Safe s := by
  unfold abandonLoan
  dsimp only
  split <;> simp

theorem execSpareTakeover_safeOut (bar : Fin 8) (s : State) (hs : Safe s) : SafeOut (execSpareTakeover bar s) := by
  unfold execSpareTakeover
  dsimp only
  split <;> simp [hs]

theorem execShadowMismatch_safeOut (slot : Fin 32) (rescreenAgrees : Bool) (s : State) (hs : Safe s) :
    SafeOut (execShadowMismatch slot rescreenAgrees s) := by
  unfold execShadowMismatch
  dsimp only
  repeat' split
  all_goals simp [hs]

theorem execRotationPeriod_safeOut (s : State) (hs : Safe s) : SafeOut (execRotationPeriod s) := by
  unfold execRotationPeriod
  dsimp only
  repeat' split
  all_goals simp [hs]

theorem execBenchTestDone_safeOut (bench : Fin 9) (pass : Bool) (s : State) (hs : Safe s) :
    SafeOut (execBenchTestDone bench pass s) := by
  unfold execBenchTestDone
  repeat' split
  all_goals simp [hs]

theorem execSpareLoadDone_safeOut (s : State) (hs : Safe s) : SafeOut (execSpareLoadDone s) := by
  unfold execSpareLoadDone
  dsimp only
  split <;> simp [hs]

@[simp] theorem opBenchStatus_keepsSafe : KeepsSafe opBenchStatus := fun m s hs => by
  simp [opBenchStatus, hs]

@[simp] theorem opBenchRotation_keepsSafe : KeepsSafe opBenchRotation := fun m s hs => by
  simp [opBenchRotation, hs]

@[simp] theorem driveOther_safe_iff (s : State) : Safe (driveOther s) ↔ Safe s := Iff.rfl

@[simp] theorem sequencerTakeover_safe_iff (s : State) : Safe (sequencerTakeover s) ↔ Safe s := by
  simp [sequencerTakeover]

theorem execLsMismatch_safeOut (bar : Fin 8) (dev : SeqDev) (s : State) (hs : Safe s) :
    SafeOut (execLsMismatch bar dev s) := by
  simp [execLsMismatch, hs]

theorem execLsbTestDone_safeOut (pass : Bool) (s : State) (hs : Safe s) : SafeOut (execLsbTestDone pass s) := by
  unfold execLsbTestDone
  dsimp only
  split
  · split
    · simp [hs]
    · simp [-fieldEventAt_frame, hs]
  · simp [hs]

theorem execLsaStop_safeOut (bar : Fin 8) (s : State) (hs : Safe s) : SafeOut (execLsaStop bar s) := by
  simp [execLsaStop, hs]

/-! ### Pulses and compares -/

@[simp] theorem fieldPulse_safe_iff (out slot stop : Nat) (s : State) :
    Safe (fieldPulse out slot stop s) ↔ Safe s := Iff.rfl

@[simp] theorem endFieldPulse_safe_iff (slot : Nat) (s : State) : Safe (endFieldPulse slot s) ↔ Safe s := Iff.rfl

@[simp] theorem expirePulse_safe_iff (slot : Nat) (s : State) : Safe (expirePulse slot s) ↔ Safe s := Iff.rfl

@[simp] theorem posEvent_safe_iff (code : Nat) (src : BitVec 32) (args : Bytes) (s : State) :
    Safe (posEvent code src args s) ↔ Safe s := by
  simp [posEvent]

@[simp] theorem compareHit_safe_iff (slot : Nat) (late : Option Nat) (s : State) :
    Safe (compareHit slot late s) ↔ Safe s := by
  unfold compareHit
  dsimp only
  repeat' split
  all_goals simp

@[simp] theorem checkCounts_safe_iff (input : Nat) (before after : Int) (s : State) :
    Safe (checkCounts input before after s) ↔ Safe s := by
  refine foldl_safe_iff (fun s e => ?_) _ s
  split <;> simp

@[simp] theorem checkPositions_safe_iff (s : State) : Safe (checkPositions s) ↔ Safe s := by
  refine foldl_safe_iff (fun s e => ?_) _ s
  split <;> simp

@[simp] theorem opCmpCreate_keepsSafe : KeepsSafe opCmpCreate := fun m s hs => by
  simp [opCmpCreate, hs]

@[simp] theorem opCmpArm_keepsSafe : KeepsSafe opCmpArm := fun m s hs => by
  simp only [opCmpArm, safeResult_bind_iff]
  intros
  repeat' split
  all_goals simp [hs]

@[simp] theorem opCmpDisarm_keepsSafe : KeepsSafe opCmpDisarm := fun m s hs => by
  simp [opCmpDisarm, hs]

@[simp] theorem opCmpDestroy_keepsSafe : KeepsSafe opCmpDestroy := fun m s hs => by
  simp [opCmpDestroy, hs]

@[simp] theorem opCmpQuery_keepsSafe : KeepsSafe opCmpQuery := fun m s hs => by
  simp [opCmpQuery, hs]

theorem execComparePulseEnd_safeOut (trigger : Fin 128) (s : State) (hs : Safe s) :
    SafeOut (execComparePulseEnd trigger s) := by
  simp [execComparePulseEnd, hs]

/-! ### Encoders -/

@[simp] theorem setEnc_safe_iff (s : State) (i : Nat) (f : Encoder → Encoder) : Safe (setEnc s i f) ↔ Safe s := Iff.rfl

@[simp] theorem webCount_safe_iff (d c : Int) (s : State) : Safe (webCount d c s) ↔ Safe s := by
  simp [webCount]

@[simp] theorem takeEdge_safe_iff (i : Nat) (aEdge a b : Bool) (s : State) : Safe (takeEdge i aEdge a b s) ↔ Safe s := by
  simp [takeEdge]

@[simp] theorem takeIllegal_safe_iff (i : Nat) (s : State) : Safe (takeIllegal i s) ↔ Safe s := by
  simp [takeIllegal]

theorem execEncoderCount_safeOut (input : Fin 4) (a b : Bool) (samples : Nat) (s : State) (hs : Safe s) :
    SafeOut (execEncoderCount input a b samples s) := by
  unfold execEncoderCount
  dsimp only
  split <;> simp [hs]

theorem execZEdge_safeOut (input : Fin 4) (z : Bool) (samples : Nat) (s : State) (hs : Safe s) :
    SafeOut (execZEdge input z samples s) := by
  simp [execZEdge, hs]

@[simp] theorem freezeFor_safe_iff (i : Nat) (s : State) : Safe (freezeFor i s) ↔ Safe s := Iff.rfl

@[simp] theorem faultEvent_safe_iff (i cause : Nat) (s : State) : Safe (faultEvent i cause s) ↔ Safe s := by
  simp [faultEvent]

theorem execEncFault_safeOut (input : Fin 4) (illegal clears : Bool) (s : State) (hs : Safe s) :
    SafeOut (execEncFault input illegal clears s) := by
  simp [execEncFault, hs]

theorem execStandstill_safeOut (s : State) (hs : Safe s) : SafeOut (execStandstill s) := by
  unfold execStandstill
  dsimp only
  split <;> simp [hs]

/-! ### Training of links -/

@[simp] theorem linkEvent_safe_iff (k cause : Nat) (s : State) : Safe (linkEvent k cause s) ↔ Safe s := by
  simp [linkEvent]

@[simp] theorem setLanes_safe_iff (k : Nat) (f : Lane → Lane) (s : State) : Safe (setLanes k f s) ↔ Safe s := by
  simp [setLanes]

@[simp] theorem remapEvent_safe_iff (b lane kind spare : Nat) (s : State) :
    Safe (remapEvent b lane kind spare s) ↔ Safe s := by
  simp [remapEvent]

@[simp] theorem leaveActive_safe_iff (k : Nat) (s : State) : Safe (leaveActive k s) ↔ Safe s := by
  simp [leaveActive]

@[simp] theorem startPass_safe_iff (k : Nat) (second : Option Nat) (s : State) : Safe (startPass k second s) ↔ Safe s := by
  simp [startPass, takeFree]

@[simp] theorem failPass_safe_iff (k : Nat) (refused : Bool) (s : State) : Safe (failPass k refused s) ↔ Safe s := by
  simp [failPass]

@[simp] theorem requestPass_safe_iff (k : Nat) (s : State) : Safe (requestPass k s) ↔ Safe s := by
  simp [requestPass]

@[simp] theorem startLanePass_safe_iff (k logical : Nat) (s : State) : Safe (startLanePass k logical s) ↔ Safe s := Iff.rfl

@[simp] theorem laneReturned_safe_iff (k logical : Nat) (s : State) : Safe (laneReturned k logical s) ↔ Safe s := by
  simp [laneReturned]

@[simp] theorem enterPhase_safe_iff (k ph : Nat) (s : State) : Safe (enterPhase k ph s) ↔ Safe s := Iff.rfl

@[simp] theorem chooseRequest_safe_iff (l : Nat) (s : State) : Safe (chooseRequest l s) ↔ Safe s := by
  unfold chooseRequest
  dsimp only [takeFree]
  split <;> simp

@[simp] theorem sendProbe_safe_iff (l : Nat) (s : State) : Safe (sendProbe l s) ↔ Safe s := Iff.rfl

@[simp] theorem fillBlock_safe_iff (l : Nat) (s : State) : Safe (fillBlock l s) ↔ Safe s := by
  unfold fillBlock
  dsimp only
  repeat' split
  all_goals simp

@[simp] theorem fillLane_safe_iff (l fuel : Nat) (s : State) : Safe (fillLane l fuel s) ↔ Safe s := by
  fun_induction fillLane <;> simp_all

@[simp] theorem tickLane_safe_iff (l : Nat) (s : State) : Safe (tickLane l s) ↔ Safe s := by
  simp [tickLane]

@[simp] theorem tickLanes_safe_iff (s : State) : Safe (tickLanes s) ↔ Safe s := by
  simp [tickLanes]

@[simp] theorem laneBack_safe_iff (l : Nat) (s : State) : Safe (laneBack l s) ↔ Safe s := by
  fun_cases laneBack <;> simp

theorem settleBlock_safe_iff {l : Nat} {s t : State} (h : settleBlock l s = some t) : Safe t ↔ Safe s := by
  revert h
  fun_cases settleBlock <;> rintro ⟨⟩ <;> rfl

@[simp] theorem settleBlocks_safe_iff (l fuel : Nat) (s : State) : Safe (settleBlocks l fuel s) ↔ Safe s := by
  fun_induction settleBlocks
  case case3 hb ih => exact ih.trans (settleBlock_safe_iff hb)
  all_goals rfl

@[simp] theorem settleRx_safe_iff (l : Nat) (s : State) : Safe (settleRx l s) ↔ Safe s := by
  simp [settleRx]

@[simp] theorem onBlock_safe_iff (l type : Nat) {f : Bytes → State → State} (hf : ∀ p t, Safe (f p t) ↔ Safe t)
    (s : State) :
    Safe (onBlock l type f s) ↔ Safe s := by
  fun_cases onBlock
  case case2 => exact (settleRx_safe_iff _ _).trans (hf _ _)
  all_goals rfl

theorem execLaneAlignment_safeOut (lane : Fin 24) (line : List Bool) (s : State) (hs : Safe s) :
    SafeOut (execLaneAlignment lane line s) := by
  simp [execLaneAlignment, hs]

@[simp] theorem takeTs1_safe_iff (l : Nat) (b : Bytes) (s : State) : Safe (takeTs1 l b s) ↔ Safe s := by
  simp [takeTs1]

@[simp] theorem takeInverted_safe_iff (l : Nat) (b : Bytes) (s : State) : Safe (takeInverted l b s) ↔ Safe s := by
  simp [takeInverted]

theorem execTs1_safeOut (lane : Fin 24) (s : State) (hs : Safe s) : SafeOut (execTs1 lane s) := by
  unfold execTs1
  dsimp only
  split <;> simp [hs]

theorem execTs2_safeOut (lane : Fin 24) (s : State) (hs : Safe s) : SafeOut (execTs2 lane s) := by
  simp [execTs2, hs]

@[simp] theorem failLanePass_safe_iff (k : Nat) (s : State) : Safe (failLanePass k s) ↔ Safe s := Iff.rfl

@[simp] theorem takeConfig_safe_iff (k : Nat) (b : Bytes) (s : State) : Safe (takeConfig k b s) ↔ Safe s := by
  simp [takeConfig]

theorem execConfig_safeOut (lane : Fin 24) (s : State) (hs : Safe s) : SafeOut (execConfig lane s) := by
  simp [execConfig, hs]

@[simp] theorem takeLat_safe_iff (l : Nat) (b : Bytes) (s : State) : Safe (takeLat l b s) ↔ Safe s := by
  simp [takeLat]

theorem execLat_safeOut (lane : Fin 24) (s : State) (hs : Safe s) : SafeOut (execLat lane s) := by
  simp [execLat, hs]

@[simp] theorem goActive_safe_iff (k : Nat) (s : State) : Safe (goActive k s) ↔ Safe s := by
  simp [goActive]

@[simp] theorem leaveConfig_safe_iff (k : Nat) (s : State) : Safe (leaveConfig k s) ↔ Safe s := by
  simp [leaveConfig]

@[simp] theorem nextPhase_safe_iff (k ph : Nat) (s : State) : Safe (nextPhase k ph s) ↔ Safe s := by
  fun_cases nextPhase <;> simp

theorem execTrainingPhaseAdvance_safeOut (link : Fin 14) (s : State) (hs : Safe s) :
    SafeOut (execTrainingPhaseAdvance link s) := by
  unfold execTrainingPhaseAdvance
  repeat' split
  all_goals simp [hs]

theorem execTrainingTimeout_safeOut (link : Fin 14) (s : State) (hs : Safe s) : SafeOut (execTrainingTimeout link s) := by
  unfold execTrainingTimeout
  dsimp only
  repeat' split
  all_goals simp [hs]

theorem execTrainingRetry_safeOut (link : Fin 14) (s : State) (hs : Safe s) : SafeOut (execTrainingRetry link s) := by
  unfold execTrainingRetry
  dsimp only
  repeat' split
  all_goals simp [hs]

/-! ### Tracking, marks and the cascade -/

@[simp] theorem noteSlip_safe_iff (e : Int) (s : State) : Safe (noteSlip e s) ↔ Safe s := by
  simp [noteSlip]

@[simp] theorem loopStep_safe_iff (s : State) : Safe (loopStep s) ↔ Safe s := by
  simp [loopStep]

@[simp] theorem setMark_safe_iff (s : State) (k : Nat) (f : MarkInput → MarkInput) :
    Safe (setMark s k f) ↔ Safe s := Iff.rfl

@[simp] theorem markEvent_safe_iff (k : Nat) (pos : Int) (flags : Nat) (s : State) :
    Safe (markEvent k pos flags s) ↔ Safe s := by
  simp [markEvent]

@[simp] theorem markMissed_safe_iff (s : State) (k : Nat) : Safe (markMissed s k) ↔ Safe s := by
  simp [markMissed]

theorem execMark_safeOut (input : Fin 2) (falling : Bool) (held : Nat) (s : State) (hs : Safe s) :
    SafeOut (execMark input falling held s) := by
  simp [execMark, hs]

theorem execLoopUpdate_safeOut (s : State) (hs : Safe s) : SafeOut (execLoopUpdate s) := by
  simp [execLoopUpdate, hs]

@[simp] theorem setEmu_safe_iff (s : State) (k : Nat) (f : EmuOut → EmuOut) : Safe (setEmu s k f) ↔ Safe s := Iff.rfl

theorem execEmuEdge_safeOut (output : Fin 4) (s : State) (hs : Safe s) : SafeOut (execEmuEdge output s) := by
  simp [execEmuEdge, hs]

@[simp] theorem opPosEncoderConfig_keepsSafe : KeepsSafe opPosEncoderConfig := fun m s hs => by
  simp [opPosEncoderConfig, hs]

@[simp] theorem retrack_safe_iff (source role num den : Nat) (s : State) :
    Safe (retrack source role num den s) ↔ Safe s := by
  simp [retrack]

@[simp] theorem opPosTrackConfig_keepsSafe : KeepsSafe opPosTrackConfig := fun m s hs => by
  simp [opPosTrackConfig, hs]

@[simp] theorem opPosQuery_keepsSafe : KeepsSafe opPosQuery := fun m s hs => by
  simp [opPosQuery, hs]

@[simp] theorem camerasBack_safe_iff (s : State) : Safe (camerasBack s) ↔ Safe s := Iff.rfl

@[simp] theorem shiftMarks_safe_iff (d : Int) (s : State) : Safe (shiftMarks d s) ↔ Safe s := Iff.rfl

@[simp] theorem setLine_safe_iff (line : Nat) (s : State) : Safe (setLine line s) ↔ Safe s := by
  simp [setLine]

@[simp] theorem opPosSet_keepsSafe : KeepsSafe opPosSet := fun m s hs => by
  simp [opPosSet, hs]

@[simp] theorem opPosTrim_keepsSafe : KeepsSafe opPosTrim := fun m s hs => by
  simp [opPosTrim, hs]

@[simp] theorem opPosMarkConfig_keepsSafe : KeepsSafe opPosMarkConfig := fun m s hs => by
  simp [opPosMarkConfig, hs]

@[simp] theorem opPosEmuConfig_keepsSafe : KeepsSafe opPosEmuConfig := fun m s hs => by
  simp [opPosEmuConfig, hs]

@[simp] theorem opPosFaultClear_keepsSafe : KeepsSafe opPosFaultClear := fun m s hs => by
  simp [opPosFaultClear, hs]

theorem execPositionWordSend_safeOut (s : State) (hs : Safe s) : SafeOut (execPositionWordSend s) := by
  simp [execPositionWordSend, hs]

@[simp] theorem loseCascade_safe_iff (cause : Nat) (s : State) : Safe (loseCascade cause s) ↔ Safe s := by
  simp [loseCascade]

@[simp] theorem takePosition_safe_iff (th : Int) (s : State) : Safe (takePosition th s) ↔ Safe s := by
  simp [takePosition]

@[simp] theorem applyWord_safe_iff (th : Int) (s : State) : Safe (applyWord th s) ↔ Safe s := by
  simp [applyWord]

@[simp] theorem validWord_safe_iff (word : Bytes) (s : State) : Safe (validWord word s) ↔ Safe s := by
  simp [validWord]

@[simp] theorem missWords_safe_iff (n : Nat) (s : State) : Safe (missWords n s) ↔ Safe s := by
  simp [missWords]

@[simp] theorem takeWord_safe_iff (word : Bytes) (s : State) : Safe (takeWord word s) ↔ Safe s := by
  simp [takeWord]

theorem execPositionWordReceive_safeOut (s : State) (hs : Safe s) : SafeOut (execPositionWordReceive s) := by
  simp [execPositionWordReceive, hs]

theorem execCascadeWordTimeout_safeOut (s : State) (hs : Safe s) : SafeOut (execCascadeWordTimeout s) := by
  unfold execCascadeWordTimeout
  repeat' split
  all_goals simp [hs]

/-! ### Camera lines -/

@[simp] theorem setFace_safe_iff (s : State) (k : Nat) (f : Face → Face) : Safe (setFace s k f) ↔ Safe s := Iff.rfl

@[simp] theorem setCam_safe_iff (s : State) (slot : Nat) (f : CamSet → CamSet) : Safe (setCam s slot f) ↔ Safe s := Iff.rfl

/-! ### Vision -/

@[simp] theorem setFrame_safe_iff (s : State) (k slot f : Nat) (g : FrameAcc → FrameAcc) :
    Safe (setFrame s k slot f g) ↔ Safe s := Iff.rfl

@[simp] theorem nextPair_safe_iff (k slot : Nat) (cam : CamSet) (s : State) : Safe (nextPair k slot cam s) ↔ Safe s := by
  unfold nextPair
  dsimp only
  split <;> simp

@[simp] theorem runPairs_safe_iff (k slot : Nat) (cam : CamSet) (fuel : Nat) (s : State) :
    Safe (runPairs k slot cam fuel s) ↔ Safe s := by
  fun_induction runPairs <;> simp_all

@[simp] theorem finishPairs_safe_iff (k slot f : Nat) (cam : CamSet) (fuel : Nat) (s : State) :
    Safe (finishPairs k slot f cam fuel s) ↔ Safe s := by
  fun_induction finishPairs <;> simp_all

@[simp] theorem excludeBins_safe_iff (k : Nat) (cols : List Nat) (s : State) :
    Safe (excludeBins k cols s) ↔ Safe s := Iff.rfl

@[simp] theorem flatField_safe_iff (k slot : Nat) (acc : FrameAcc) (s : State) :
    Safe (flatField k slot acc s) ↔ Safe s := by
  unfold flatField
  dsimp only
  split <;> simp

@[simp] theorem endFrame_safe_iff (k slot f : Nat) (s : State) : Safe (endFrame k slot f s) ↔ Safe s := by
  unfold endFrame
  dsimp only
  repeat' split
  all_goals simp

@[simp] theorem settleLine_safe_iff (k line : Nat) (s : State) : Safe (settleLine k line s) ↔ Safe s := Iff.rfl

@[simp] theorem missCameraLine_safe_iff (k slot line : Nat) (s : State) : Safe (missCameraLine k slot line s) ↔ Safe s := by
  unfold missCameraLine
  dsimp only
  split <;> simp

@[simp] theorem discardBelow_safe_iff (k slot bound : Nat) (s : State) : Safe (discardBelow k slot bound s) ↔ Safe s := by
  simp [discardBelow]

@[simp] theorem leaveFace_safe_iff (k : Nat) (s : State) : Safe (leaveFace k s) ↔ Safe s := by
  unfold leaveFace
  dsimp only
  split <;> simp

@[simp] theorem enterFace_safe_iff (k slot : Nat) (s : State) : Safe (enterFace k slot s) ↔ Safe s := by
  simp [enterFace]

@[simp] theorem camCmd_safe_iff (k cmd set : Nat) (exposure : Bytes) (s : State) :
    Safe (camCmd k cmd set exposure s) ↔ Safe s := by
  simp [camCmd]

@[simp] theorem applyCommit_safe_iff (slot frame : Nat) (p : CamCommit) (s : State) :
    Safe (applyCommit slot frame p s) ↔ Safe s := by
  unfold applyCommit
  dsimp only
  split <;> simp

@[simp] theorem countDropped_safe_iff (slot f : Nat) (s : State) : Safe (countDropped slot f s) ↔ Safe s := by
  unfold countDropped
  dsimp only
  split <;> simp

@[simp] theorem frameStart_safe_iff (k slot : Nat) (cam : CamSet) (s : State) :
    Safe (frameStart k slot cam s) ↔ Safe s := by
  unfold frameStart
  dsimp only
  repeat' split
  all_goals simp

@[simp] theorem startDue_safe_iff (k slot : Nat) (cam : CamSet) (s : State) : Safe (startDue k slot cam s) ↔ Safe s := by
  fun_cases startDue <;> simp

theorem execFrameStart_safeOut (face : Fin 2) (s : State) (hs : Safe s) : SafeOut (execFrameStart face s) := by
  unfold execFrameStart
  repeat' split
  all_goals simp [hs]

@[simp] theorem sendTrigger_safe_iff (k slot : Nat) (cam : CamSet) (s : State) :
    Safe (sendTrigger k slot cam s) ↔ Safe s := Iff.rfl

theorem execCameraTrigger_safeOut (face : Fin 2) (s : State) (hs : Safe s) : SafeOut (execCameraTrigger face s) := by
  unfold execCameraTrigger
  dsimp only
  repeat' split
  all_goals simp [hs]

@[simp] theorem takeLinePacket_safe_iff (k slot lane ptype : Nat) (b : Bytes) (s : State) :
    Safe (takeLinePacket k slot lane ptype b s) ↔ Safe s := by
  unfold takeLinePacket
  dsimp only
  repeat' split
  all_goals simp

theorem execCameraLinePacket_safeOut (face lane : Fin 2) (ptype : BitVec 8) (body : List Byte) (s : State) (hs : Safe s) :
    SafeOut (execCameraLinePacket face lane ptype body s) := by
  unfold execCameraLinePacket
  dsimp only
  repeat' split
  all_goals simp [hs]

@[simp] theorem takeLine_safe_iff (k slot line : Nat) (cam : CamSet) (acc : FrameAcc) (ls : List SensorLine) (s : State) :
    Safe (takeLine k slot line cam acc ls s) ↔ Safe s := by
  unfold takeLine
  dsimp only
  split <;> simp

theorem execFaceLineComplete_safeOut (face : Fin 2) (s : State) (hs : Safe s) : SafeOut (execFaceLineComplete face s) := by
  unfold execFaceLineComplete
  dsimp only
  repeat' split
  all_goals simp [hs]

theorem execHubStatus_safeOut (face : Fin 2) (body : List Byte) (s : State) (hs : Safe s) :
    SafeOut (execHubStatus face body s) := by
  unfold execHubStatus
  dsimp only
  split <;> simp [hs]

theorem execFrameEnd_safeOut (face : Fin 2) (s : State) (hs : Safe s) : SafeOut (execFrameEnd face s) := by
  unfold execFrameEnd
  dsimp only
  repeat' split
  all_goals simp [hs]

theorem execCaptureDone_safeOut (face : Fin 2) (s : State) (hs : Safe s) : SafeOut (execCaptureDone face s) := by
  unfold execCaptureDone
  dsimp only
  repeat' split
  all_goals simp [hs]

@[simp] theorem loopState_safe_iff (slot cause : Nat) (s : State) : Safe (loopState slot cause s) ↔ Safe s := by
  fun_cases loopState <;> simp

@[simp] theorem dropCaptures_safe_iff (slot status : Nat) (s : State) : Safe (dropCaptures slot status s) ↔ Safe s := by
  fun_cases dropCaptures <;> simp

@[simp] theorem visionEngineFault_safe_iff (engine cause : Nat) (s : State) :
    Safe (visionEngineFault engine cause s) ↔ Safe s := by
  simp [visionEngineFault]

theorem execVisionFault_safeOut (engine : Fin 2) (cause : Fin 3) (s : State) (hs : Safe s) :
    SafeOut (execVisionFault engine cause s) := by
  simp [execVisionFault, hs]

/-! ### Arbitration -/

@[simp] theorem setArb_safe_iff (s : State) (cluster : Bool) (i : Nat) (f : Arbiter → Arbiter) :
    Safe (setArb s cluster i f) ↔ Safe s := by
  unfold setArb
  dsimp only
  split <;> simp

@[simp] theorem arbLockEvent_safe_iff (port owner cause seg : Nat) (s : State) :
    Safe (arbLockEvent port owner cause seg s) ↔ Safe s := by
  simp [arbLockEvent]

@[simp] theorem expireLock_safe_iff (p : Nat) (s : State) : Safe (expireLock p s) ↔ Safe s := by
  fun_cases expireLock <;> simp

theorem execLockExpiry_safeOut (port : Fin 4) (s : State) (hs : Safe s) : SafeOut (execLockExpiry port s) := by
  simp [execLockExpiry, hs]

@[simp] theorem meetErrors_safe (p addr : Nat) (scrub : Bool) (flips : EccFlips) (s : State) (hs : Safe s) :
    Safe (meetErrors p addr scrub flips s) := by
  unfold meetErrors
  dsimp only
  split
  · exact (readUncorrectable_safe_iff _ _ _).mpr hs
  · obtain ⟨hc, hrest⟩ := hs
    refine (setArb_safe_iff _ _ _ _).mpr ((readCorrected_safe_iff _ _ _).mpr ⟨?_, hrest⟩)
    change cellsOk none (ite _ _ _) = true
    split
    · exact hc
    · exact cellsOk_cellsWrite hc
  · exact hs

@[simp] theorem grantSegment_safe (p : Nat) (w : Waiting) (flips : EccFlips) (s : State) (hs : Safe s) :
    Safe (grantSegment p w flips s) := by
  simp [grantSegment, hs]

@[simp] theorem enterPort_safe_iff (p : Nat) (req : ArbReq) (now : Bool) (s : State) :
    Safe (enterPort p req now s) ↔ Safe s := by
  simp [enterPort]

@[simp] theorem takeEmergency_safe (p : Nat) (w : Waiting) (flips : EccFlips) (s : State) (hs : Safe s) :
    Safe (takeEmergency p w flips s) := by
  have hread : ∀ (l : List Nat) (first : Nat),
      Safe (l.foldl (fun s k => meetErrors p (first + 64 * k) false (if k = 0 then flips else noFlips) s) s) :=
    fun l first => foldl_safe (fun s k h => meetErrors_safe p _ false _ s h) l hs
  unfold takeEmergency
  dsimp only
  split
  · simp [hs]
  · split
    · simp [hs]
    · simp [hs, hread]

@[simp] theorem commitShadows_safe_iff (p : Nat) (s : State) : Safe (commitShadows p s) ↔ Safe s := Iff.rfl

theorem execEmergencyTake_safeOut (port : Fin 4) (refresh : Bool) (flips : EccFlips) (s : State) (hs : Safe s) :
    SafeOut (execEmergencyTake port refresh flips s) := by
  unfold execEmergencyTake
  dsimp only
  split <;> simp [hs]

@[simp] theorem portDecision_safe (p : Nat) (flips : EccFlips) (s : State) (hs : Safe s) :
    Safe (portDecision p flips s) := by
  unfold portDecision
  dsimp only
  repeat' split
  all_goals simp [hs]

@[simp] theorem clusterDecision_safe_iff (k : Nat) (s : State) : Safe (clusterDecision k s) ↔ Safe s := by
  unfold clusterDecision
  dsimp only
  split <;> simp

theorem execArbDecision_safeOut (cluster : Bool) (index : Fin 4) (flips : EccFlips) (s : State) (hs : Safe s) :
    SafeOut (execArbDecision cluster index flips s) := by
  simp [execArbDecision, hs]

theorem execSleepWake_safeOut (port : Fin 4) (flips : EccFlips) (s : State) (hs : Safe s) :
    SafeOut (execSleepWake port flips s) := by
  unfold execSleepWake
  dsimp only
  split <;> simp [hs]

@[simp] theorem engineFault_safe_iff (id : Nat) (s : State) : Safe (engineFault id s) ↔ Safe s := by
  unfold engineFault
  dsimp only [takeFree]
  repeat' split
  all_goals simp

@[simp] theorem protocolFault_safe_iff (req : ArbReq) (s : State) : Safe (protocolFault req s) ↔ Safe s := by
  simp [protocolFault]

theorem execArbRequest_safeOut (cluster : Bool) (index : Fin 4) (req : ArbReq) (flips : EccFlips) (s : State)
    (hs : Safe s) :
    SafeOut (execArbRequest cluster index req flips s) := by
  simp [execArbRequest, hs]

theorem execRefreshDue_safeOut (port : Fin 4) (rank : Fin 2) (s : State) (hs : Safe s) :
    SafeOut (execRefreshDue port rank s) := by
  simp [execRefreshDue, hs]

theorem execLockBroken_safeOut (requester : Fin 32) (s : State) (hs : Safe s) : SafeOut (execLockBroken requester s) := by
  rw [execLockBroken, safeOut_next_iff]
  refine (foldl_safe_iff (fun s p => ?_) _ s).mpr hs
  split <;> simp

@[simp] theorem opDiagArbPrio_keepsSafe : KeepsSafe opDiagArbPrio := fun m s hs => by
  simp [opDiagArbPrio, hs]

@[simp] theorem opDiagArbCommit_keepsSafe : KeepsSafe opDiagArbCommit := fun m s hs => by
  simp [opDiagArbCommit, hs]

@[simp] theorem opDiagArbQuery_keepsSafe : KeepsSafe opDiagArbQuery := fun m s hs => by
  simp [opDiagArbQuery, hs]

/-! ### Device time -/

@[simp] theorem jumpField_safe_iff (t : Nat) (s : State) : Safe (jumpField t s) ↔ Safe s := Iff.rfl

@[simp] theorem stepTime_safe_iff (d : Int) (s : State) : Safe (stepTime d s) ↔ Safe s := Iff.rfl

theorem execTimeWordSend_safeOut (s : State) (hs : Safe s) : SafeOut (execTimeWordSend s) := by
  simp [execTimeWordSend, hs]

theorem execTimeWordReceive_safeOut (crcOk : Bool) (s : State) (hs : Safe s) : SafeOut (execTimeWordReceive crcOk s) := by
  unfold execTimeWordReceive
  dsimp only
  split <;> simp [hs]

theorem execHeartbeatEcho_safeOut (roundTrip turnaround : Nat) (s : State) (hs : Safe s) :
    SafeOut (execHeartbeatEcho roundTrip turnaround s) := by
  simp [execHeartbeatEcho, hs]

theorem execSaddleTimeLoss_safeOut (s : State) (hs : Safe s) : SafeOut (execSaddleTimeLoss s) := by
  simp [execSaddleTimeLoss, hs]

/-! ### Servo and PTP -/

@[simp] theorem servoTo_safe_iff (st : ServoState) (cause : Nat) (s : State) : Safe (servoTo st cause s) ↔ Safe s := by
  simp [servoTo]

@[simp] theorem servoStep_safe_iff (o : Int) (s : State) : Safe (servoStep o s) ↔ Safe s := Iff.rfl

@[simp] theorem loseMaster_safe_iff (s : State) : Safe (loseMaster s) ↔ Safe s := by
  unfold loseMaster
  dsimp only
  split <;> simp

@[simp] theorem acceptMaster_safe_iff (o : Int) (s : State) : Safe (acceptMaster o s) ↔ Safe s := by
  simp [acceptMaster]

@[simp] theorem candidateSample_safe_iff (gm : BitVec 64) (o : Int) (s : State) :
    Safe (candidateSample gm o s) ↔ Safe s := by
  simp [candidateSample]

@[simp] theorem masterSample_safe_iff (o : Int) (s : State) : Safe (masterSample o s) ↔ Safe s := by
  simp [masterSample]

theorem execSyncMessage_safeOut (gm : BitVec 64) (offsetNs : Int) (s : State) (hs : Safe s) :
    SafeOut (execSyncMessage gm offsetNs s) := by
  unfold execSyncMessage
  dsimp only
  repeat' split
  all_goals simp [hs]

@[simp] theorem ptpSend_safe_iff (kind : PtpKind) (inserted twoStep : Bool) (correction : Int) (stamp : Nat) (s : State) :
    Safe (ptpSend kind inserted twoStep correction stamp s) ↔ Safe s := Iff.rfl

@[simp] theorem ptpSync_safe_iff (s : State) : Safe (ptpSync s) ↔ Safe s := by
  simp [ptpSync]

@[simp] theorem ptpPdelayResp_safe_iff (correction : Int) (t2 t3 : Nat) (s : State) :
    Safe (ptpPdelayResp correction t2 t3 s) ↔ Safe s := by
  simp [ptpPdelayResp]

@[simp] theorem takeAnnounce_safe_iff (gm : BitVec 64) (rank : List Nat) (utc : Int) (s : State) :
    Safe (takeAnnounce gm rank utc s) ↔ Safe s := by
  simp [takeAnnounce]

theorem execPtpMessage_safeOut (msg : PtpMsg) (s : State) (hs : Safe s) : SafeOut (execPtpMessage msg s) := by
  unfold execPtpMessage
  dsimp only
  repeat' split
  all_goals simp [hs]

theorem execSyncTimeout_safeOut (s : State) (hs : Safe s) : SafeOut (execSyncTimeout s) := by
  unfold execSyncTimeout
  repeat' split
  all_goals simp [hs]

theorem execAnnounceTimeout_safeOut (s : State) (hs : Safe s) : SafeOut (execAnnounceTimeout s) := by
  unfold execAnnounceTimeout
  dsimp only
  split <;> simp [hs]

theorem execPtpTransmitInterval_safeOut (s : State) (hs : Safe s) : SafeOut (execPtpTransmitInterval s) := by
  simp [execPtpTransmitInterval, hs]

@[simp] theorem ptpFailover_safe_iff (port : Nat) (s : State) : Safe (ptpFailover port s) ↔ Safe s := by
  simp [ptpFailover]

@[simp] theorem opTimePtpConfig_keepsSafe : KeepsSafe opTimePtpConfig := fun m s hs => by
  simp [opTimePtpConfig, hs]

@[simp] theorem opTimeServoConfig_keepsSafe : KeepsSafe opTimeServoConfig := fun m s hs => by
  simp [opTimeServoConfig, hs]

@[simp] theorem opTimeSet_keepsSafe : KeepsSafe opTimeSet := fun m s hs => by
  simp [opTimeSet, hs]

@[simp] theorem opTimeQuery_keepsSafe : KeepsSafe opTimeQuery := fun m s hs => by
  simp [opTimeQuery, hs]

/-! ### Ports and sessions -/

@[simp] theorem setEth_safe_iff (s : State) (p : Nat) (f : EthPort → EthPort) : Safe (setEth s p f) ↔ Safe s := Iff.rfl

@[simp] theorem ethLinkEvent_safe_iff (p st : Nat) (s : State) : Safe (ethLinkEvent p st s) ↔ Safe s := Iff.rfl

@[simp] theorem linkDown_safe_iff (p : Nat) (s : State) : Safe (linkDown p s) ↔ Safe s := by
  simp [linkDown]

theorem execEthLink_safeOut (port : Fin 2) (up : Bool) (duplicate : Option Bool) (s : State) (hs : Safe s) :
    SafeOut (execEthLink port up duplicate s) := by
  unfold execEthLink
  dsimp only
  split <;> simp [hs]

@[simp] theorem takeFragment_safe_iff (p : Nat) (g : Fragment) (s : State) : Safe (takeFragment p g s) ↔ Safe s := by
  simp [takeFragment]

theorem execEthFrameReceive_safeOut (port : Fin 2) (frame : EthFrame) (s : State) (hs : Safe s) :
    SafeOut (execEthFrameReceive port frame s) := by
  unfold execEthFrameReceive
  dsimp only
  repeat' split
  all_goals simp [hs]

theorem execFragmentTimeout_safeOut (s : State) (hs : Safe s) : SafeOut (execFragmentTimeout s) := by
  simp [execFragmentTimeout, hs]

@[simp] theorem applyEth_safe (p : Nat) (s : State) (hs : Safe s) : Safe (applyEth p s) := by
  unfold applyEth
  split
  · exact hs
  · dsimp only
    split
    · refine foldl_safe (fun s q h => closeSession_safe _ _ _ h) _ ?_
      simp [hs]
    · simp [hs]

@[simp] theorem opSysEthConfig_keepsSafe : KeepsSafe opSysEthConfig := fun m s hs => by
  simp [opSysEthConfig, hs]

@[simp] theorem opSysEthQuery_keepsSafe : KeepsSafe opSysEthQuery := fun m s hs => by
  simp [opSysEthQuery, hs]

theorem execHello_safeOut (port : Fin 2) (v6 : Bool) (body : Bytes) (s : State) (hs : Safe s) :
    SafeOut (execHello port v6 body s) := by
  simp [execHello, hs]

theorem execConfirm_safeOut (session : BitVec 32) (body : Bytes) (s : State) (hs : Safe s) :
    SafeOut (execConfirm session body s) := by
  unfold execConfirm
  dsimp only
  split <;> simp [hs]

theorem execHandshakeTimeout_safeOut (session : BitVec 32) (s : State) (hs : Safe s) :
    SafeOut (execHandshakeTimeout session s) := by
  simp [execHandshakeTimeout, hs]

@[simp] theorem takeDatagram_safe (session : BitVec 32) (counter : Nat) (plain : Option Bytes) (s : State) (hs : Safe s) :
    Safe (takeDatagram session counter plain s).1 := by
  fun_cases takeDatagram <;> simp [hs]

@[simp] theorem sessionWrite_safe (inst : Nat) (r : EventRec) (s : State) (hs : Safe s) : Safe (sessionWrite inst r s) := by
  fun_cases sessionWrite <;> simp [hs]

@[simp] theorem sessionRecord_safe (inst : Nat) (r : EventRec) (s : State) (hs : Safe s) :
    Safe (sessionRecord inst r s) := by
  fun_cases sessionRecord <;> simp [hs]

@[simp] theorem flushSession_safe (inst fuel : Nat) (s : State) (hs : Safe s) : Safe (flushSession inst fuel s) := by
  fun_induction flushSession <;> simp_all

theorem execEventAck_safeOut (session : BitVec 32) (counter : Nat) (plain : Option (List Byte)) (s : State) (hs : Safe s) :
    SafeOut (execEventAck session counter plain s) := by
  unfold execEventAck
  dsimp only
  split <;> simp [hs]

theorem execEventResend_safeOut (session : BitVec 32) (s : State) (hs : Safe s) : SafeOut (execEventResend session s) := by
  rw [execEventResend, safeOut_next_iff]
  split
  · exact hs
  · refine (setSession_safe_iff _ _ _).mpr (foldl_safe (fun s e h => ?_) _ hs)
    split
    · exact sendDatagram_safe _ _ _ _ h
    · exact h

theorem execClose_safeOut (session : BitVec 32) (counter : Nat) (plain : Option (List Byte)) (s : State) (hs : Safe s) :
    SafeOut (execClose session counter plain s) := by
  unfold execClose
  dsimp only
  split <;> simp [hs]

theorem execSessionIdleTimeout_safeOut (session : BitVec 32) (s : State) (hs : Safe s) :
    SafeOut (execSessionIdleTimeout session s) := by
  unfold execSessionIdleTimeout
  repeat' split
  all_goals simp [hs]

/-! ### The passing of time -/

@[simp] theorem passTime_safe_iff (s : State) : Safe (passTime s) ↔ Safe s := Iff.rfl

@[simp] theorem noteMemIdle_safe_iff (s : State) : Safe (noteMemIdle s) ↔ Safe s := by
  simp [noteMemIdle]

@[simp] theorem idleTick_safe (s : State) (hs : Safe s) : Safe (idleTick s) := by
  simp [idleTick, hs]

/-! ### The cam messages -/

@[simp] theorem opCamCreate_keepsSafe : KeepsSafe opCamCreate := fun m s hs => by
  simp only [opCamCreate, safeResult_bind_iff, orErr_eq_ok_iff]
  rintro ⟨ext, s1⟩ hext ⟨i, t⟩ -
  exact (safeResult_ok_iff _).mpr ((takeExtents_safe_iff hext).mpr hs)

@[simp] theorem opCamDestroy_keepsSafe : KeepsSafe opCamDestroy := fun m s hs => by
  simp [opCamDestroy, hs]

@[simp] theorem opCamSensorWrite_keepsSafe : KeepsSafe opCamSensorWrite := fun m s hs => by
  simp [opCamSensorWrite, hs]

@[simp] theorem opCamExposureWrite_keepsSafe : KeepsSafe opCamExposureWrite := fun m s hs => by
  simp [opCamExposureWrite, hs]

@[simp] theorem opCamParamWrite_keepsSafe : KeepsSafe opCamParamWrite := fun m s hs => by
  simp [opCamParamWrite, hs]

@[simp] theorem opCamCommit_keepsSafe : KeepsSafe opCamCommit := fun m s hs => by
  simp [opCamCommit, hs]

@[simp] theorem opCamActivate_keepsSafe : KeepsSafe opCamActivate := fun m s hs => by
  simp [opCamActivate, hs]

@[simp] theorem opCamStatsRead_keepsSafe : KeepsSafe opCamStatsRead := fun m s hs => by
  simp [opCamStatsRead, hs]

@[simp] theorem opCamCapture_keepsSafe : KeepsSafe opCamCapture := fun m s hs => by
  simp [opCamCapture, hs]

@[simp] theorem opCamFrameRead_keepsSafe : KeepsSafe opCamFrameRead := fun m s hs => by
  simp [opCamFrameRead, hs]

@[simp] theorem opCamQuery_keepsSafe : KeepsSafe opCamQuery := fun m s hs => by
  simp [opCamQuery, hs]

/-! ### Statistics -/

theorem execFrameStats_safeOut (face : Fin 2) (s : State) (hs : Safe s) : SafeOut (execFrameStats face s) := by
  unfold execFrameStats
  dsimp only
  repeat' split
  all_goals simp [hs]

/-! ### The colour loop -/

@[simp] theorem setCal_safe_iff (s : State) (slot : Nat) (f : CalSet → CalSet) : Safe (setCal s slot f) ↔ Safe s := Iff.rfl

@[simp] theorem stageGains_safe_iff (q : CalSet) (c : Channel) (bins : Option (List Nat)) (s : State) :
    Safe (stageGains q c bins s) ↔ Safe s := Iff.rfl

@[simp] theorem moveReg_safe_iff (slot : Nat) (q : CalSet) (c : Channel) (r : Run) (s : State) :
    Safe (moveReg slot q c r s) ↔ Safe s := by
  unfold moveReg
  dsimp only
  repeat' split
  all_goals simp

@[simp] theorem moveLane_safe_iff (r : Run) (s : State) : Safe (moveLane r s) ↔ Safe s := by
  refine foldl_safe_iff (fun s e => ?_) _ s
  split <;> simp

@[simp] theorem registrationEnd_safe_iff (slot : Nat) (q0 : CalSet) (c : Channel) (r : Run) (s : State) :
    Safe (registrationEnd slot q0 c r s) ↔ Safe s := by
  unfold registrationEnd
  dsimp only
  repeat' split
  all_goals simp

@[simp] theorem tellBins_safe_iff (slot first : Nat) (q : CalSet) (r : Run) (s : State) :
    Safe (tellBins slot first q r s) ↔ Safe s := by
  simp [tellBins]

theorem execLoopWindowEnd_safeOut (calset : Fin 64) (s : State) (hs : Safe s) : SafeOut (execLoopWindowEnd calset s) := by
  unfold execLoopWindowEnd
  dsimp only
  repeat' split
  all_goals simp [hs]

@[simp] theorem reportLoop_safe_iff (slot : Nat) (line : Option Nat) (s : State) :
    Safe (reportLoop slot line s) ↔ Safe s := by
  unfold reportLoop
  dsimp only
  split <;> simp

theorem execLoopCommit_safeOut (calset : Fin 64) (s : State) (hs : Safe s) : SafeOut (execLoopCommit calset s) := by
  unfold execLoopCommit
  dsimp only
  repeat' split
  all_goals simp [hs]

@[simp] theorem reportGate_safe_iff (b : Nat) (line : Option Nat) (s : State) : Safe (reportGate b line s) ↔ Safe s := by
  simp [reportGate]

@[simp] theorem gateCommit_safe_iff (b : Nat) (s : State) : Safe (gateCommit b s) ↔ Safe s := by
  simp [gateCommit]

theorem execHeldCommit_safeOut (bar : Fin 8) (gate : Bool) (s : State) (hs : Safe s) :
    SafeOut (execHeldCommit bar gate s) := by
  simp [execHeldCommit, hs]

@[simp] theorem endRecalc_safe_iff (slot status : Nat) (s : State) : Safe (endRecalc slot status s) ↔ Safe s := by
  unfold endRecalc
  dsimp only
  repeat' split
  all_goals simp

@[simp] theorem recompute_safe_iff (q : CalSet) (c : Channel) (reverting : Bool) (s : State) :
    Safe (recompute q c reverting s) ↔ Safe s := by
  simp [recompute]

@[simp] theorem startRecalc_safe_iff (slot : Nat) (reverting : Bool) (op : Nat) (m : Msg) (s : State) :
    Safe (startRecalc slot reverting op m s).1 ↔ Safe s := by
  unfold startRecalc
  dsimp only
  repeat' split
  all_goals simp

theorem execRecalculationDone_safeOut (calset : Fin 64) (s : State) (hs : Safe s) :
    SafeOut (execRecalculationDone calset s) := by
  unfold execRecalculationDone
  dsimp only
  repeat' split
  all_goals simp [hs]

theorem execRecalcSpareFail_safeOut (s : State) (hs : Safe s) : SafeOut (execRecalcSpareFail s) := by
  unfold execRecalcSpareFail
  dsimp only
  repeat' split
  all_goals simp [hs]

/-! ### Calibration messages -/

@[simp] theorem opCalCreate_keepsSafe : KeepsSafe opCalCreate := fun m s hs => by
  simp only [opCalCreate, safeResult_bind_iff, orErr_eq_ok_iff]
  rintro ⟨ext, s1⟩ hext ⟨i, t⟩ -
  exact (safeResult_ok_iff _).mpr ((takeExtents_safe_iff hext).mpr hs)

@[simp] theorem opCalDestroy_keepsSafe : KeepsSafe opCalDestroy := fun m s hs => by
  simp [opCalDestroy, hs]

@[simp] theorem opCalAttach_keepsSafe : KeepsSafe opCalAttach := fun m s hs => by
  simp [opCalAttach, hs]

@[simp] theorem opCalDetach_keepsSafe : KeepsSafe opCalDetach := fun m s hs => by
  simp [opCalDetach, hs]

@[simp] theorem opCalParamWrite_keepsSafe : KeepsSafe opCalParamWrite := fun m s hs => by
  simp [opCalParamWrite, hs]

@[simp] theorem opCalRead_keepsSafe : KeepsSafe opCalRead := fun m s hs => by
  simp [opCalRead, hs]

@[simp] theorem acceptRecalc_safeResult (m : Msg) (op : Nat) (reverting : Bool) (s : State) (hs : Safe s) :
    SafeResult (acceptRecalc m op reverting s) := by
  simp [acceptRecalc, hs]

@[simp] theorem opCalWrite_keepsSafe : KeepsSafe opCalWrite := fun m s hs => by
  simp [opCalWrite, hs]

@[simp] theorem opLoopHold_keepsSafe : KeepsSafe opLoopHold := fun m s hs => by
  simp [opLoopHold, hs]

@[simp] theorem opLoopRelease_keepsSafe : KeepsSafe opLoopRelease := fun m s hs => by
  simp [opLoopRelease, hs]

@[simp] theorem opLoopResume_keepsSafe : KeepsSafe opLoopResume := fun m s hs => by
  simp [opLoopResume, hs]

@[simp] theorem opCalRecalc_keepsSafe : KeepsSafe opCalRecalc := fun m s hs => by
  simp [opCalRecalc, hs]

@[simp] theorem opCalQuery_keepsSafe : KeepsSafe opCalQuery := fun m s hs => by
  simp [opCalQuery, hs]

@[simp] theorem opCalChanQuery_keepsSafe : KeepsSafe opCalChanQuery := fun m s hs => by
  simp [opCalChanQuery, hs]

/-! ### Drop gates -/

@[simp] theorem setGate_safe_iff (s : State) (b : Nat) (f : Gate → Gate) : Safe (setGate s b f) ↔ Safe s := Iff.rfl

theorem execDropGate_safeOut (bar : Fin 8) (body : List Byte) (s : State) (hs : Safe s) :
    SafeOut (execDropGate bar body s) := by
  simp [execDropGate, hs]

@[simp] theorem markNozzle_safe_iff (b idx kind : Nat) (s : State) : Safe (markNozzle b idx kind s) ↔ Safe s := by
  simp [markNozzle]

@[simp] theorem endCycle_safe_iff (b : Nat) (s : State) : Safe (endCycle b s) ↔ Safe s := by
  fun_cases endCycle <;> simp

@[simp] theorem takeResult_safe_iff (b slot idx : Nat) (drops : List (Nat × Option Nat)) (s : State) :
    Safe (takeResult b slot idx drops s) ↔ Safe s := by
  simp [takeResult]

theorem execDropTestResult_safeOut (bar : Fin 8) (s : State) (hs : Safe s) : SafeOut (execDropTestResult bar s) := by
  unfold execDropTestResult
  dsimp only
  repeat' split
  all_goals simp [hs]

theorem execGateFault_safeOut (bar : Fin 8) (s : State) (hs : Safe s) : SafeOut (execGateFault bar s) := by
  simp [execGateFault, hs]

@[simp] theorem pauseLoops_safe_iff (on : Bool) (s : State) : Safe (pauseLoops on s) ↔ Safe s := by
  simp [pauseLoops]

@[simp] theorem opCalGateConfig_keepsSafe : KeepsSafe opCalGateConfig := fun m s hs => by
  simp [opCalGateConfig, hs]

@[simp] theorem opCalGateWindow_keepsSafe : KeepsSafe opCalGateWindow := fun m s hs => by
  simp [opCalGateWindow, hs]

@[simp] theorem opCalGateClear_keepsSafe : KeepsSafe opCalGateClear := fun m s hs => by
  simp [opCalGateClear, hs]

@[simp] theorem opCalGateQuery_keepsSafe : KeepsSafe opCalGateQuery := fun m s hs => by
  simp [opCalGateQuery, hs]

/-! ### Slack and voltage -/

theorem vddLeast_bounds (s : State) : 700 ≤ vddLeast s ∧ vddLeast s ≤ 900 := by
  unfold vddLeast
  split <;> decide

theorem clampNat_bounds {lo hi : Nat} (h : lo ≤ hi) (n : Nat) : lo ≤ clampNat lo hi n ∧ clampNat lo hi n ≤ hi := by
  unfold clampNat
  split
  · omega
  · split <;> omega

@[simp] theorem setVdd_safe (mv : Nat) (s : State) (hs : Safe s) : Safe (setVdd mv s) := by
  obtain ⟨hlow, hhigh⟩ := vddLeast_bounds s
  obtain ⟨hl, hu⟩ := clampNat_bounds hhigh mv
  exact commandVdd_safe _ s (Nat.le_trans hlow hl) hu hs

@[simp] theorem slackReport_safe_iff (b : Nat) (s : State) : Safe (slackReport b s) ↔ Safe s := by
  fun_cases slackReport <;> simp

@[simp] theorem limitReport_safe_iff (s : State) : Safe (limitReport s) ↔ Safe s := by
  fun_cases limitReport <;> simp

@[simp] theorem avsStep_safe (s : State) (hs : Safe s) : Safe (avsStep s) := by
  fun_cases avsStep <;> simp [hs]

theorem execSlackWindowEnd_safeOut (bar : Fin 8) (s : State) (hs : Safe s) : SafeOut (execSlackWindowEnd bar s) := by
  unfold execSlackWindowEnd
  dsimp only [takeFree]
  split <;> simp [hs]

theorem execAvsIdleStep_safeOut (s : State) (hs : Safe s) : SafeOut (execAvsIdleStep s) := by
  simp [execAvsIdleStep, hs]

@[simp] theorem opDiagAvsConfig_keepsSafe : KeepsSafe opDiagAvsConfig := fun m s hs => by
  have hv : 700 ≤ s.fabric.vddMv ∧ s.fabric.vddMv ≤ 900 := hs.2.2.2.2.2.2
  simp only [opDiagAvsConfig, okState_safeResult_iff, limitReport_safe_iff]
  refine foldl_safe (fun s e h => (slackReport_safe_iff _ _).mpr h) _ (commandVdd_safe _ _ ?_ ?_ hs)
  · split <;> omega
  · split <;> omega

@[simp] theorem opDiagSlackQuery_keepsSafe : KeepsSafe opDiagSlackQuery := fun m s hs => by
  simp [opDiagSlackQuery, hs]

/-! ### Temperature -/

@[simp] theorem setSensor_safe_iff (s : State) (i : Nat) (f : TempSensor → TempSensor) :
    Safe (setSensor s i f) ↔ Safe s := Iff.rfl

@[simp] theorem renewDemands_safe_iff (s : State) : Safe (renewDemands s) ↔ Safe s := by
  simp [renewDemands]

@[simp] theorem evaluateStep_safe_iff (s : State) : Safe (evaluateStep s) ↔ Safe s := by
  simp [evaluateStep]

@[simp] theorem sensorFault_safe_iff (i cause : Nat) (s : State) : Safe (sensorFault i cause s) ↔ Safe s := by
  unfold sensorFault
  repeat' split
  all_goals simp

@[simp] theorem checkZone_safe_iff (z : Nat) (s : State) : Safe (checkZone z s) ↔ Safe s := by
  unfold checkZone
  dsimp only
  repeat' split
  all_goals simp

@[simp] theorem takeReading_safe_iff (i cause : Nat) (v : Int) (s : State) : Safe (takeReading i cause v s) ↔ Safe s := by
  simp [takeReading]

@[simp] theorem compareZone_safe_iff (z : Nat) (s : State) : Safe (compareZone z s) ↔ Safe s := by
  simp [compareZone]

@[simp] theorem readSupply_safe_iff (i : Nat) (s : State) : Safe (readSupply i s) ↔ Safe s := by
  unfold readSupply
  dsimp only
  repeat' split
  all_goals simp

@[simp] theorem readSupplies_safe_iff (s : State) : Safe (readSupplies s) ↔ Safe s := by
  simp [readSupplies]

theorem execSensorRound_safeOut (readings : List (Fin 26 × SensorSample)) (s : State) (hs : Safe s) :
    SafeOut (execSensorRound readings s) := by
  simp [execSensorRound, hs]

@[simp] theorem opSysTempConfig_keepsSafe : KeepsSafe opSysTempConfig := fun m s hs => by
  simp [opSysTempConfig, hs]

@[simp] theorem opSysTempQuery_keepsSafe : KeepsSafe opSysTempQuery := fun m s hs => by
  simp [opSysTempQuery, hs]

/-! ### Saddle -/

@[simp] theorem turnChannel_safe_iff (ret : Bool) (k : Nat) (on : Bool) (s : State) :
    Safe (turnChannel ret k on s) ↔ Safe s := by
  unfold turnChannel
  dsimp only
  split <;> simp

@[simp] theorem bringUpSaddle_safe_iff (s : State) : Safe (bringUpSaddle s) ↔ Safe s := by
  simp [bringUpSaddle]

theorem execSaddleFrame_safeOut (ret : Bool) (channel : Fin 14) (cls : SaddleClass) (bytes : Nat) (crcOk : Bool)
    (s : State) (hs : Safe s) :
    SafeOut (execSaddleFrame ret channel cls bytes crcOk s) := by
  unfold execSaddleFrame
  dsimp only
  repeat' split
  all_goals simp [hs]

theorem execIdlePatternCheck_safeOut (ret : Bool) (channel : Fin 14) (pass : Bool) (s : State) (hs : Safe s) :
    SafeOut (execIdlePatternCheck ret channel pass s) := by
  fun_cases execIdlePatternCheck <;> simp [hs]

theorem execChannelReturn_safeOut (ret : Bool) (channel : Fin 14) (s : State) (hs : Safe s) :
    SafeOut (execChannelReturn ret channel s) := by
  fun_cases execChannelReturn <;> simp [hs]

theorem execSaddleHeartbeat_safeOut (ret : Bool) (t24 t25 : Int) (s : State) (hs : Safe s) :
    SafeOut (execSaddleHeartbeat ret t24 t25 s) := by
  simp [execSaddleHeartbeat, hs]

theorem execHostSideLost_safeOut (s : State) (hs : Safe s) : SafeOut (execHostSideLost s) := by
  simp [execHostSideLost, hs]

theorem execHostSideBack_safeOut (s : State) (hs : Safe s) : SafeOut (execHostSideBack s) := by
  simp [execHostSideBack, hs]

theorem execFieldUnreachable_safeOut (s : State) (hs : Safe s) : SafeOut (execFieldUnreachable s) := by
  simp [execFieldUnreachable, hs]

@[simp] theorem tellRecovered_safe_iff (s : State) : Safe (tellRecovered s) ↔ Safe s := by
  simp [tellRecovered]

@[simp] theorem reportFieldReset_safe_iff (s : State) : Safe (reportFieldReset s) ↔ Safe s := by
  unfold reportFieldReset
  dsimp only
  split <;> simp

theorem execFieldReachable_safeOut (s : State) (hs : Safe s) : SafeOut (execFieldReachable s) := by
  simp [execFieldReachable, hs]

@[simp] theorem opSysSaddleQuery_keepsSafe : KeepsSafe opSysSaddleQuery := fun m s hs => by
  simp [opSysSaddleQuery, hs]

/-! ### Interlocks -/

@[simp] theorem setIlk_safe_iff (s : State) (i : Nat) (f : IlkInput → IlkInput) : Safe (setIlk s i f) ↔ Safe s := Iff.rfl

@[simp] theorem ilkEvent_safe_iff (i state : Nat) (rearmed : Bool) (t : Nat) (before s : State) :
    Safe (ilkEvent i state rearmed t before s) ↔ Safe s := by
  simp [ilkEvent]

theorem execInterlock_safeOut (input : Fin 16) (ohms held : Nat) (s : State) (hs : Safe s) :
    SafeOut (execInterlock input ohms held s) := by
  simp [execInterlock, hs]

theorem execInterlockHealthy_safeOut (input : Fin 16) (ohms : Nat) (s : State) (hs : Safe s) :
    SafeOut (execInterlockHealthy input ohms s) := by
  unfold execInterlockHealthy
  dsimp only
  repeat' split
  all_goals simp [hs]

@[simp] theorem opSysInterlockConfig_keepsSafe : KeepsSafe opSysInterlockConfig := fun m s hs => by
  simp [opSysInterlockConfig, hs]

@[simp] theorem opSysInterlockLock_keepsSafe : KeepsSafe opSysInterlockLock := fun m s hs => by
  simp [opSysInterlockLock, hs]

@[simp] theorem opSysInterlockRearm_keepsSafe : KeepsSafe opSysInterlockRearm := fun m s hs => by
  simp [opSysInterlockRearm, hs]

@[simp] theorem opSysInterlockQuery_keepsSafe : KeepsSafe opSysInterlockQuery := fun m s hs => by
  simp [opSysInterlockQuery, hs]

/-! ### Resets -/

@[simp] theorem recordReset_safe_iff (code reach : Nat) (s : State) : Safe (recordReset code reach s) ↔ Safe s := Iff.rfl

@[simp] theorem recordFreedRuns_safe_iff (s : State) : Safe (recordFreedRuns s) ↔ Safe s := by
  simp [recordFreedRuns]

@[simp] theorem recoverItems_safe_iff (s : State) : Safe (recoverItems s) ↔ Safe s := Iff.rfl

@[simp] theorem dropFieldMessages_safe (s : State) (hs : Safe s) : Safe (dropFieldMessages s) :=
  foldl_safe (fun s _ h => answer_safe _ _ _ _ _ _ _ s h) _ hs

/-- What a reset of the field die clears lies within the bounds; the mailbox is left. -/
@[simp] theorem clearField_safe (whole : Bool) (s : State) (hs : Safe s) : Safe (clearField whole s) := by
  obtain ⟨-, hr, ht, hh, -⟩ := hs
  exact ⟨rfl, hr, ht, hh, Nat.zero_le _, Nat.zero_le _, (by decide : 700 ≤ 900), Nat.le_refl 900⟩

@[simp] theorem resetField_safe (whole : Bool) (s : State) (hs : Safe s) : Safe (resetField whole s) := by
  have h2 : Safe (noteFireEn 2 s { s with power := { s.power with fieldReset := true } }) := by
    rw [noteFireEn_safe_iff]
    exact hs
  unfold resetField
  dsimp only
  generalize noteFireEn 2 s _ = s2 at h2 ⊢
  refine floatVdd_safe _ (clearField_safe _ _ ?_)
  split
  · exact h2
  · simp [h2]

@[simp] theorem markDebug_safe_iff (s : State) : Safe (markDebug s) ↔ Safe s := Iff.rfl

/-- A reset of the host die empties its queues and cuts what goes back to the field die to 4,096 records (R508). -/
@[simp] theorem resetHost_safe (whole : Bool) (s : State) (hs : Safe s) : Safe (resetHost whole s) := by
  have hm : Safe (if s.cairn.dbg.isSome then markDebug s else s) := by simp [hs]
  unfold resetHost
  dsimp only
  generalize (if s.cairn.dbg.isSome then markDebug s else s) = u at hm ⊢
  obtain ⟨hc, -, -, -, -, -, hv⟩ := hm
  split
  all_goals
    exact ⟨hc, Nat.zero_le _, Nat.zero_le _, Nat.zero_le _, Nat.zero_le _, List.length_take_le .., hv⟩

@[simp] theorem resetBoth_safe (s : State) (hs : Safe s) : Safe (resetBoth s) := by
  simp [resetBoth, hs]

@[simp] theorem powerOnHost_safe (s : State) (hs : Safe s) : Safe (powerOnHost s) := by
  simp [powerOnHost, hs]

@[simp] theorem fieldSource_safe (code : Nat) (s : State) (hs : Safe s) : Safe (fieldSource code s) := by
  simp [fieldSource, hs]

theorem execSupplyGood_safeOut (field : Bool) (s : State) (hs : Safe s) : SafeOut (execSupplyGood field s) := by
  simp [execSupplyGood, hs]

theorem execBrownOut_safeOut (supply : Fin 12) (mv : Nat) (s : State) (hs : Safe s) :
    SafeOut (execBrownOut supply mv s) := by
  simp [execBrownOut, hs]

theorem execRstN_safeOut (low : Bool) (edges : Nat) (s : State) (hs : Safe s) : SafeOut (execRstN low edges s) := by
  simp [execRstN, hs]

theorem execFrstN_safeOut (low : Bool) (edges : Nat) (s : State) (hs : Safe s) : SafeOut (execFrstN low edges s) := by
  simp [execFrstN, hs]

@[simp] theorem loseReference_safe (field : Bool) (s : State) (hs : Safe s) : Safe (loseReference field s) := by
  simp [loseReference, hs]

theorem execReferenceLoss_safeOut (field : Bool) (s : State) (hs : Safe s) : SafeOut (execReferenceLoss field s) := by
  simp [execReferenceLoss, hs]

theorem execReferenceReturn_safeOut (field : Bool) (s : State) (hs : Safe s) : SafeOut (execReferenceReturn field s) := by
  simp [execReferenceReturn, hs]

theorem execClockFailure_safeOut (domain : Fin 14) (s : State) (hs : Safe s) : SafeOut (execClockFailure domain s) := by
  simp [execClockFailure, hs]

theorem execFsWatchdog_safeOut (lockup : Bool) (s : State) (hs : Safe s) : SafeOut (execFsWatchdog lockup s) := by
  simp [execFsWatchdog, hs]

theorem execComparatorTrip_safeOut (sensor : Fin 26) (s : State) (hs : Safe s) : SafeOut (execComparatorTrip sensor s) := by
  simp [execComparatorTrip, hs]

theorem execThermalOffRestart_safeOut (s : State) (hs : Safe s) : SafeOut (execThermalOffRestart s) := by
  unfold execThermalOffRestart
  dsimp only
  split <;> simp [hs]

@[simp] theorem standbyEvent_safe_iff (cp cause : Nat) (st : StandbyState) (s : State) :
    Safe (standbyEvent cp cause st s) ↔ Safe s := Iff.rfl

@[simp] theorem resetScope_safe (code scope : Nat) (s : State) (hs : Safe s) : Safe (resetScope code scope s) := by
  fun_cases resetScope <;> simp [hs]

theorem execSoftwareReset_safeOut (s : State) (hs : Safe s) : SafeOut (execSoftwareReset s) := by
  fun_cases execSoftwareReset <;> simp [hs]

@[simp] theorem opSysReset_keepsSafe : KeepsSafe opSysReset := fun m s hs => by
  simp [opSysReset, hs]

@[simp] theorem extend_safe_iff (k : Nat) (digest : BitVec 384) (s : State) : Safe (extend k digest s) ↔ Safe s := Iff.rfl

@[simp] theorem loadOptions_safe_iff (s : State) : Safe (loadOptions s) ↔ Safe s := by
  simp [loadOptions]

@[simp] theorem opSysOptionRead_keepsSafe : KeepsSafe opSysOptionRead := fun m s hs => by
  simp [opSysOptionRead, hs]

@[simp] theorem opSysOptionWrite_keepsSafe : KeepsSafe opSysOptionWrite := fun m s hs => by
  simp [opSysOptionWrite, hs]

@[simp] theorem sendSymbol_safe (s : State) (hs : Safe s) : Safe (sendSymbol s) := by
  simp [sendSymbol, hs]

@[simp] theorem releaseHost_safe (s : State) (hs : Safe s) : Safe (releaseHost s) := by
  simp [releaseHost, hs]

@[simp] theorem releaseField_safe_iff (s : State) : Safe (releaseField s) ↔ Safe s := by
  simp [releaseField]

theorem execResetRelease_safeOut (field : Bool) (s : State) (hs : Safe s) : SafeOut (execResetRelease field s) := by
  simp [execResetRelease, hs]

theorem execFieldResetSymbol_safeOut (s : State) (hs : Safe s) : SafeOut (execFieldResetSymbol s) := by
  simp [execFieldResetSymbol, hs]

theorem execOptionCopy_safeOut (s : State) (hs : Safe s) : SafeOut (execOptionCopy s) := by
  simp [execOptionCopy, hs]

@[simp] theorem opSysBootQuery_keepsSafe : KeepsSafe opSysBootQuery := fun m s hs => by
  simp [opSysBootQuery, hs]

@[simp] theorem opSysPowerQuery_keepsSafe : KeepsSafe opSysPowerQuery := fun m s hs => by
  simp [opSysPowerQuery, hs]

/-! ### Boot -/

@[simp] theorem setBank_safe_iff (s : State) (die bank : Nat) (f : Bank → Bank) :
    Safe (setBank s die bank f) ↔ Safe s := Iff.rfl

@[simp] theorem rejectBank_safe (bank die : Nat) (s : State) (hs : Safe s) : Safe (rejectBank bank die s) := by
  simp [rejectBank, hs]

theorem execMeasuredBoot_safeOut (check : ImageCheck) (s : State) (hs : Safe s) : SafeOut (execMeasuredBoot check s) := by
  unfold execMeasuredBoot
  dsimp only
  repeat' split
  all_goals simp [hs]

theorem execFieldImageApproval_safeOut (check : ImageCheck) (s : State) (hs : Safe s) :
    SafeOut (execFieldImageApproval check s) := by
  have hv : Safe (commandVdd 900 s) := commandVdd_safe 900 s (by decide) (Nat.le_refl _) hs
  unfold execFieldImageApproval
  dsimp only
  split
  · exact (safeOut_next_iff _).mpr hs
  · split
    · rw [done_safeOut_iff, extend_safe_iff, extend_safe_iff]
      exact hv
    · simp [hs]

theorem execBootTimeout_safeOut (s : State) (hs : Safe s) : SafeOut (execBootTimeout s) := by
  fun_cases execBootTimeout <;> simp [hs]

@[simp] theorem advanceCounter_safe_iff (die : Nat) (s : State) : Safe (advanceCounter die s) ↔ Safe s := by
  simp [advanceCounter]

@[simp] theorem bootRecord_safe_iff (s : State) : Safe (bootRecord s) ↔ Safe s := by
  simp [bootRecord]

@[simp] theorem reportThermalOff_safe_iff (s : State) : Safe (reportThermalOff s) ↔ Safe s := by
  simp [reportThermalOff]

theorem execMailboxReady_safeOut (s : State) (hs : Safe s) : SafeOut (execMailboxReady s) := by
  simp [execMailboxReady, hs]

/-! ### Cairn -/

@[simp] theorem opAuditOpen_keepsSafe : KeepsSafe opAuditOpen := fun m s hs => by
  simp [opAuditOpen, hs]

@[simp] theorem opAuditClose_keepsSafe : KeepsSafe opAuditClose := fun m s hs => by
  simp [opAuditClose, hs]

@[simp] theorem opAuditRead_keepsSafe : KeepsSafe opAuditRead := fun m s hs => by
  simp [opAuditRead, hs]

@[simp] theorem opAuditAck_keepsSafe : KeepsSafe opAuditAck := fun m s hs => by
  simp [opAuditAck, hs]

@[simp] theorem opAuditQuote_keepsSafe : KeepsSafe opAuditQuote := fun m s hs => by
  simp [opAuditQuote, hs]

@[simp] theorem opAuditFwBegin_keepsSafe : KeepsSafe opAuditFwBegin := fun m s hs => by
  simp [opAuditFwBegin, hs]

@[simp] theorem opAuditFwData_keepsSafe : KeepsSafe opAuditFwData := fun m s hs => by
  simp [opAuditFwData, hs]

@[simp] theorem opAuditFwSeal_keepsSafe : KeepsSafe opAuditFwSeal := fun m s hs => by
  simp [opAuditFwSeal, hs]

@[simp] theorem opAuditFwQuery_keepsSafe : KeepsSafe opAuditFwQuery := fun m s hs => by
  simp [opAuditFwQuery, hs]

@[simp] theorem opAuditKeyEnrol_keepsSafe : KeepsSafe opAuditKeyEnrol := fun m s hs => by
  simp [opAuditKeyEnrol, hs]

@[simp] theorem debugEvent_safe_iff (opened : Bool) (d : DebugSession) (s : State) :
    Safe (debugEvent opened d s) ↔ Safe s := Iff.rfl

@[simp] theorem closeDebug_safe_iff (s : State) : Safe (closeDebug s) ↔ Safe s := by
  unfold closeDebug
  dsimp only
  split <;> simp

@[simp] theorem opAuditDebugChallenge_keepsSafe : KeepsSafe opAuditDebugChallenge := fun m s hs => by
  simp [opAuditDebugChallenge, hs]

@[simp] theorem opAuditDebugOpen_keepsSafe : KeepsSafe opAuditDebugOpen := fun m s hs => by
  simp [opAuditDebugOpen, hs]

@[simp] theorem opAuditDebugClose_keepsSafe : KeepsSafe opAuditDebugClose := fun m s hs => by
  simp [opAuditDebugClose, hs]

theorem execDebugSessionExpiry_safeOut (s : State) (hs : Safe s) : SafeOut (execDebugSessionExpiry s) := by
  unfold execDebugSessionExpiry
  repeat' split
  all_goals simp [hs]

theorem execDebugChallengeExpiry_safeOut (s : State) (hs : Safe s) : SafeOut (execDebugChallengeExpiry s) := by
  unfold execDebugChallengeExpiry
  dsimp only
  split <;> simp [hs]

@[simp] theorem debugAccess_safe_iff (write : Bool) (segment : Nat) (s : State) :
    Safe (debugAccess write segment s) ↔ Safe s := by
  simp [debugAccess]

theorem execDebugRequest_safeOut (req : DebugReq) (s : State) (hs : Safe s) : SafeOut (execDebugRequest req s) := by
  fun_cases execDebugRequest <;> simp [hs]

/-! ### Fail-over -/

@[simp] theorem pathEvent_safe_iff (cp : Nat) (wire lost : Bool) (s : State) :
    Safe (pathEvent cp wire lost s) ↔ Safe s := Iff.rfl

theorem execHeartbeat_safeOut (cp : Fin 2) (wire : Bool) (seq : BitVec 4) (fault : Bool) (s : State) (hs : Safe s) :
    SafeOut (execHeartbeat cp wire seq fault s) := by
  simp [execHeartbeat, hs]

@[simp] theorem switchTo_safe_iff (who cause : Nat) (left : StandbyState) (s : State) :
    Safe (switchTo who cause left s) ↔ Safe s := by
  unfold switchTo
  dsimp only [takeFree]
  split <;> simp

@[simp] theorem declareCp_safe (cp cause code : Nat) (s : State) (hs : Safe s) : Safe (declareCp cp cause code s) := by
  simp [declareCp, hs]

theorem execCpDeclaration_safeOut (cp : Fin 2) (s : State) (hs : Safe s) : SafeOut (execCpDeclaration cp s) := by
  simp [execCpDeclaration, hs]

theorem execCpWatchdog_safeOut (cp : Fin 2) (lockup : Bool) (s : State) (hs : Safe s) :
    SafeOut (execCpWatchdog cp lockup s) := by
  simp [execCpWatchdog, hs]

theorem execCpStandby_safeOut (s : State) (hs : Safe s) : SafeOut (execCpStandby s) := by
  simp [execCpStandby, hs]

theorem execStandbySelftestDone_safeOut (pass : Bool) (s : State) (hs : Safe s) :
    SafeOut (execStandbySelftestDone pass s) := by
  unfold execStandbySelftestDone
  dsimp only
  split <;> simp [hs]

theorem execSnapshotComplete_safeOut (s : State) (hs : Safe s) : SafeOut (execSnapshotComplete s) := by
  simp [execSnapshotComplete, hs]

@[simp] theorem opSysFailoverConfig_keepsSafe : KeepsSafe opSysFailoverConfig := fun m s hs => by
  simp [opSysFailoverConfig, hs]

@[simp] theorem opSysFailoverQuery_keepsSafe : KeepsSafe opSysFailoverQuery := fun m s hs => by
  simp [opSysFailoverQuery, hs]

/-! ### Links -/

@[simp] theorem takeGood_safe_iff (k : Nat) (packet : Bytes) (s : State) : Safe (takeGood k packet s) ↔ Safe s := Iff.rfl

theorem execPacketReceive_safeOut (lane : Fin 24) (s : State) (hs : Safe s) : SafeOut (execPacketReceive lane s) := by
  unfold execPacketReceive
  dsimp only
  repeat' split
  all_goals simp [hs]

@[simp] theorem replay_safe_iff (l : Nat) (from_ : BitVec 16) (s : State) : Safe (replay l from_ s) ↔ Safe s := Iff.rfl

@[simp] theorem noteFarLock_safe_iff (k flags : Nat) (s : State) : Safe (noteFarLock k flags s) ↔ Safe s := by
  simp [noteFarLock]

@[simp] theorem takeAck_safe_iff (l : Nat) (block : Bytes) (s : State) : Safe (takeAck l block s) ↔ Safe s := by
  simp [takeAck]

theorem execAck_safeOut (lane : Fin 24) (s : State) (hs : Safe s) : SafeOut (execAck lane s) := by
  simp [execAck, hs]

@[simp] theorem sendAck_safe_iff (k l : Nat) (s : State) : Safe (sendAck k l s) ↔ Safe s := Iff.rfl

theorem execAckSend_safeOut (lane : Fin 24) (s : State) (hs : Safe s) : SafeOut (execAckSend lane s) := by
  simp [execAckSend, hs]

theorem execReplayTimeout_safeOut (lane : Fin 24) (s : State) (hs : Safe s) : SafeOut (execReplayTimeout lane s) := by
  unfold execReplayTimeout
  dsimp only
  split <;> simp [hs]

theorem execResume_safeOut (lane : Fin 24) (s : State) (hs : Safe s) : SafeOut (execResume lane s) := by
  simp [execResume, hs]

theorem execSync_safeOut (lane : Fin 24) (s : State) (hs : Safe s) : SafeOut (execSync lane s) := by
  simp [execSync, hs]

theorem execTimeBlock_safeOut (face : Fin 2) (s : State) (hs : Safe s) : SafeOut (execTimeBlock face s) := by
  simp [execTimeBlock, hs]

@[simp] theorem sendEye_safe_iff (l : Nat) (s : State) : Safe (sendEye l s) ↔ Safe s := Iff.rfl

theorem execEye_safeOut (lane : Fin 24) (s : State) (hs : Safe s) : SafeOut (execEye lane s) := by
  simp [execEye, hs]

@[simp] theorem judgeLane_safe_iff (l cond : Nat) (s : State) : Safe (judgeLane l cond s) ↔ Safe s := by
  simp [judgeLane]

theorem execLaneHealth_safeOut (lane : Fin 24) (s : State) (hs : Safe s) : SafeOut (execLaneHealth lane s) := by
  simp [execLaneHealth, hs]

@[simp] theorem remapLane_safe_iff (b lane : Nat) (s : State) : Safe (remapLane b lane s) ↔ Safe s := by
  unfold remapLane
  dsimp only
  repeat' split
  all_goals simp

theorem execLaneRemapped_safeOut (bar : Fin 8) (lane : Fin 2) (s : State) (hs : Safe s) :
    SafeOut (execLaneRemapped bar lane s) := by
  simp [execLaneRemapped, hs]

theorem execSpareCoreTimeout_safeOut (spare : Fin 2) (s : State) (hs : Safe s) : SafeOut
    (execSpareCoreTimeout spare s) := by
  unfold execSpareCoreTimeout
  dsimp only
  split <;> simp [hs]

theorem execLinkLost_safeOut (bar : Fin 8) (s : State) (hs : Safe s) : SafeOut (execLinkLost bar s) := by
  simp [execLinkLost, hs]

theorem execLinkReturn_safeOut (bar : Fin 8) (s : State) (hs : Safe s) : SafeOut (execLinkReturn bar s) := by
  simp [execLinkReturn, hs]

@[simp] theorem opSettConfig_keepsSafe : KeepsSafe opSettConfig := fun m s hs => by
  simp [opSettConfig, hs]

@[simp] theorem opSettQuery_keepsSafe : KeepsSafe opSettQuery := fun m s hs => by
  simp [opSettQuery, hs]

@[simp] theorem opSettRetrain_keepsSafe : KeepsSafe opSettRetrain := fun m s hs => by
  simp [opSettRetrain, hs]

@[simp] theorem returnLane_safe_iff (k lane : Nat) (s : State) : Safe (returnLane k lane s) ↔ Safe s := by
  simp [returnLane]

@[simp] theorem opSettRemap_keepsSafe : KeepsSafe opSettRemap := fun m s hs => by
  simp [opSettRemap, hs]

/-! ### sync -/

@[simp] theorem opSyncFence_keepsSafe : KeepsSafe opSyncFence := fun m s hs => by
  simp [opSyncFence, hs]

@[simp] theorem opSyncEcho_keepsSafe : KeepsSafe opSyncEcho := fun m s hs => by
  simp [opSyncEcho, hs]

/-! ### Time triggers, timers and captures -/

@[simp] theorem outputPulse_safe_iff (out slot stop : Nat) (s : State) : Safe (outputPulse out slot stop s) ↔ Safe s := by
  simp [outputPulse]

@[simp] theorem endPulses_safe_iff (slot : Nat) (s : State) : Safe (endPulses slot s) ↔ Safe s := Iff.rfl

@[simp] theorem givePulse_safe_iff (slot : Nat) (s : State) : Safe (givePulse slot s) ↔ Safe s := by
  unfold givePulse
  dsimp only
  repeat' split
  all_goals simp

theorem execTriggerPulse_safeOut (trigger : Fin 128) (s : State) (hs : Safe s) : SafeOut (execTriggerPulse trigger s) := by
  unfold execTriggerPulse
  repeat' split
  all_goals simp [hs]

theorem execTriggerPulseEnd_safeOut (trigger : Fin 128) (s : State) (hs : Safe s) :
    SafeOut (execTriggerPulseEnd trigger s) := by
  simp [execTriggerPulseEnd, hs]

@[simp] theorem opTimeTriggerCreate_keepsSafe : KeepsSafe opTimeTriggerCreate := fun m s hs => by
  simp [opTimeTriggerCreate, hs]

@[simp] theorem opTimeTriggerArm_keepsSafe : KeepsSafe opTimeTriggerArm := fun m s hs => by
  simp only [opTimeTriggerArm, safeResult_bind_iff]
  intros
  split <;> simp [hs]

@[simp] theorem opTimeTriggerDisarm_keepsSafe : KeepsSafe opTimeTriggerDisarm := fun m s hs => by
  simp [opTimeTriggerDisarm, hs]

@[simp] theorem opTimeTriggerDestroy_keepsSafe : KeepsSafe opTimeTriggerDestroy := fun m s hs => by
  simp [opTimeTriggerDestroy, hs]

@[simp] theorem opTimeTriggerQuery_keepsSafe : KeepsSafe opTimeTriggerQuery := fun m s hs => by
  simp only [opTimeTriggerQuery, safeResult_bind_iff]
  intros
  split <;> simp [hs]

@[simp] theorem expireTimer_safe_iff (slot : Nat) (t : Timer) (s : State) : Safe (expireTimer slot t s) ↔ Safe s := by
  simp [expireTimer]

theorem execTimerExpired_safeOut (timer : Fin 32) (s : State) (hs : Safe s) : SafeOut (execTimerExpired timer s) := by
  unfold execTimerExpired
  repeat' split
  all_goals simp [hs]

@[simp] theorem opTimeTimerCreate_keepsSafe : KeepsSafe opTimeTimerCreate := fun m s hs => by
  simp [opTimeTimerCreate, hs]

@[simp] theorem opTimeTimerStop_keepsSafe : KeepsSafe opTimeTimerStop := fun m s hs => by
  simp [opTimeTimerStop, hs]

@[simp] theorem opTimeTimerDestroy_keepsSafe : KeepsSafe opTimeTimerDestroy := fun m s hs => by
  simp [opTimeTimerDestroy, hs]

@[simp] theorem setCapture_safe_iff (s : State) (i : Nat) (f : CaptureIn → CaptureIn) :
    Safe (setCapture s i f) ↔ Safe s := Iff.rfl

@[simp] theorem reportLost_safe_iff (i : Nat) (s : State) : Safe (reportLost i s) ↔ Safe s := by
  simp [reportLost]

theorem execCapture_safeOut (input : Fin 6) (falling : Bool) (held : Nat) (s : State) (hs : Safe s) :
    SafeOut (execCapture input falling held s) := by
  simp [execCapture, hs]

@[simp] theorem opTimeCaptureConfig_keepsSafe : KeepsSafe opTimeCaptureConfig := fun m s hs => by
  simp [opTimeCaptureConfig, hs]

@[simp] theorem opTimeCaptureRead_keepsSafe : KeepsSafe opTimeCaptureRead := fun m s hs => by
  simp [opTimeCaptureRead, hs]

/-! ### The host window -/

@[simp] theorem setupError_safe_iff (ring : Nat) (s : State) : Safe (setupError ring s) ↔ Safe s := by
  simp [setupError]

@[simp] theorem ringError_safe_iff (ring cause : Nat) (s : State) : Safe (ringError ring cause s) ↔ Safe s := by
  simp [ringError]

@[simp] theorem enableMailbox_safe (s : State) (hs : Safe s) : Safe (enableMailbox s) := by
  unfold enableMailbox
  split
  · obtain ⟨hc, -, -, hrest⟩ := hs
    exact ⟨hc, Nat.zero_le _, Nat.zero_le _, hrest⟩
  · exact (setupError_safe_iff _ _).mpr hs

@[simp] theorem stopMailbox_safe (s : State) (hs : Safe s) : Safe (stopMailbox s) := by
  simp [stopMailbox, hs]

@[simp] theorem writeMbxCtrl_safe (v : BitVec 32) (s : State) (hs : Safe s) : Safe (writeMbxCtrl v s) := by
  simp [writeMbxCtrl, hs]

@[simp] theorem writePi_safe_iff (n : Nat) (v : BitVec 32) (s : State) : Safe (writePi n v s) ↔ Safe s := by
  simp [writePi]

@[simp] theorem writeCi_safe (talus : Bool) (v : BitVec 32) (s : State) (hs : Safe s) : Safe (writeCi talus v s) := by
  unfold writeCi
  extract_lets n adv m
  split
  · exact (ringError_safe_iff _ _ _).mpr hs
  · cases talus
    · exact withinBounds_of_le hs (length_drop_le ..) (Nat.le_refl _) (Nat.le_refl _) (Nat.le_refl _) (Nat.le_refl _)
    · exact withinBounds_of_le hs (Nat.le_refl _) (length_drop_le ..) (Nat.le_refl _) (Nat.le_refl _) (Nat.le_refl _)

@[simp] theorem writeSetup_safe_iff (reg : SetupReg) (v : BitVec 32) (s : State) : Safe (writeSetup reg v s) ↔ Safe s := by
  fun_cases writeSetup <;> simp

@[simp] theorem clearMbxStatus_safe_iff (v : BitVec 32) (s : State) : Safe (clearMbxStatus v s) ↔ Safe s := Iff.rfl

@[simp] theorem clearWinErr_safe_iff (v : BitVec 32) (s : State) : Safe (clearWinErr v s) ↔ Safe s := Iff.rfl

@[simp] theorem clearResetSeen_safe_iff (v newer : BitVec 32) (s : State) :
    Safe (clearResetSeen v newer s) ↔ Safe s := Iff.rfl

@[simp] theorem sendVectors_safe_iff (p : Nat → Bool) (s : State) : Safe (sendVectors p s) ↔ Safe s := by
  simp [sendVectors]

@[simp] theorem clearIntStatus_safe_iff (v newer : BitVec 32) (s : State) : Safe (clearIntStatus v newer s) ↔ Safe s := by
  simp [clearIntStatus]

@[simp] theorem writeIntMask_safe_iff (v : BitVec 32) (s : State) : Safe (writeIntMask v s) ↔ Safe s := by
  simp [writeIntMask]

@[simp] theorem writeMsix_safe_iff (i : Nat) (v : BitVec 32) (s : State) : Safe (writeMsix i v s) ↔ Safe s := by
  simp [writeMsix]

@[simp] theorem writeRingReg_safe (n k : Nat) (v : BitVec 32) (s : State) (hs : Safe s) : Safe (writeRingReg n k v s) := by
  fun_cases writeRingReg <;> simp [hs]

@[simp] theorem writeWord_safe (o : Nat) (v : BitVec 32) (s : State) (hs : Safe s) : Safe (writeWord o v s) := by
  simp [writeWord, hs]

@[simp] theorem windowWrite_safeOut {f : State → State} {s : State} (hf : Safe (f s)) (hs : Safe s) :
    SafeOut (windowWrite f s) := by
  fun_cases windowWrite
  · exact (safeOut_next_iff _).mpr hs
  · exact (safeOut_next_iff _).mpr hf

theorem execMbxEnable_safeOut (value : BitVec 32) (s : State) (hs : Safe s) : SafeOut (execMbxEnable value s) := by
  simp [execMbxEnable, hs]

theorem execMbxDisable_safeOut (value : BitVec 32) (s : State) (hs : Safe s) : SafeOut (execMbxDisable value s) := by
  simp [execMbxDisable, hs]

theorem execMbxEthEnable_safeOut (value : BitVec 32) (s : State) (hs : Safe s) : SafeOut (execMbxEthEnable value s) := by
  simp [execMbxEthEnable, hs]

theorem execDoorbell_safeOut (ring : Fin 4) (value : BitVec 32) (s : State) (hs : Safe s) :
    SafeOut (execDoorbell ring value s) := by
  simp [execDoorbell, hs]

theorem execConsumerIndexWrite_safeOut (talus : Bool) (value : BitVec 32) (s : State) (hs : Safe s) :
    SafeOut (execConsumerIndexWrite talus value s) := by
  simp [execConsumerIndexWrite, hs]

theorem execRingSetupWrite_safeOut (reg : SetupReg) (value : BitVec 32) (s : State) (hs : Safe s) :
    SafeOut (execRingSetupWrite reg value s) := by
  simp [execRingSetupWrite, hs]

theorem execMbxStatusClear_safeOut (value : BitVec 32) (s : State) (hs : Safe s) : SafeOut
    (execMbxStatusClear value s) := by
  simp [execMbxStatusClear, hs]

theorem execWinErrClear_safeOut (value : BitVec 32) (s : State) (hs : Safe s) : SafeOut (execWinErrClear value s) := by
  simp [execWinErrClear, hs]

theorem execResetSeenClear_safeOut (value newer : BitVec 32) (s : State) (hs : Safe s) :
    SafeOut (execResetSeenClear value newer s) := by
  simp [execResetSeenClear, hs]

theorem execIntStatusClear_safeOut (value newer : BitVec 32) (s : State) (hs : Safe s) :
    SafeOut (execIntStatusClear value newer s) := by
  simp [execIntStatusClear, hs]

theorem execIntMaskWrite_safeOut (value : BitVec 32) (s : State) (hs : Safe s) : SafeOut (execIntMaskWrite value s) := by
  simp [execIntMaskWrite, hs]

theorem execRegisterWrite_safeOut (offset : BitVec 16) (size : Nat) (value : BitVec 64) (s : State) (hs : Safe s) :
    SafeOut (execRegisterWrite offset size value s) := by
  simp [execRegisterWrite, hs]

theorem execHoldoffExpiry_safeOut (vector : Fin 2) (s : State) (hs : Safe s) : SafeOut (execHoldoffExpiry vector s) := by
  simp [execHoldoffExpiry, hs]

theorem execPerstN_safeOut (s : State) (hs : Safe s) : SafeOut (execPerstN s) := by
  have h1 : Safe (writeMbxCtrl 0xC67C0000 (recordReset 16 5 s)) := by simp [hs]
  refine (safeOut_next_iff _).mpr ((noteStatus_safe_iff _ _).mpr ?_)
  dsimp only
  generalize writeMbxCtrl 0xC67C0000 (recordReset 16 5 s) = s1 at h1 ⊢
  split
  · exact h1
  · exact clearRings_safe s1 _ rfl h1

/-! ### The mailbox engine -/

theorem opTable_keepsSafe : ∀ d ∈ opTable, KeepsSafe d := by
  simp only [opTable, List.forall_mem_append, List.forall_mem_cons]
  simp

theorem opOf_keepsSafe {code : Nat} {d : OpDef} (h : opOf code = some d) : KeepsSafe d :=
  opTable_keepsSafe d (List.mem_of_find?_eq_some h)

@[simp] theorem tryStart_safe (e : InFlight) (s : State) (hs : Safe s) : Safe (tryStart e s) := by
  fun_cases tryStart
  case case1 d hd => exact startMessage_safe d _ _ _ (opOf_keepsSafe hd) hs
  all_goals exact hs

@[simp] theorem takeFrame_safe (f : Frame) (place : Nat) (behind : List Ahead) (s : State) (hs : Safe s) :
    Safe (takeFrame f place behind s) := by
  fun_cases takeFrame <;> simp [hs]

@[simp] theorem fetchFrom_safe (ring : Fin 4) (credits : List Nat) (slots : List (List Bytes)) (s : State) (hs : Safe s) :
    Safe (fetchFrom ring credits slots s) := by
  unfold fetchFrom
  dsimp only
  split <;> simp [hs]

theorem execCommandFetch_safeOut (slots : List (List (List Byte))) (s : State) (hs : Safe s) :
    SafeOut (execCommandFetch slots s) := by
  fun_cases execCommandFetch <;> simp [hs]

theorem execFenceRelease_safeOut (s : State) (hs : Safe s) : SafeOut (execFenceRelease s) := by
  fun_cases execFenceRelease <;> simp [hs]

theorem execFenceWait_safeOut (s : State) (hs : Safe s) : SafeOut (execFenceWait s) := by
  unfold execFenceWait
  dsimp only
  repeat' split
  all_goals simp [hs]

theorem execMessageCompletion_safeOut (s : State) (hs : Safe s) : SafeOut (execMessageCompletion s) := by
  unfold execMessageCompletion
  dsimp only
  split <;> simp [hs]

/-- The Talus queue takes a record only while it holds fewer than 32,768 (R60). -/
theorem writeTalus_safe (r : EventRec) (s : State) (hfree : talusFree s = true) (hs : Safe s) : Safe (writeTalus r s) := by
  obtain ⟨hc, hr, -, hrest⟩ := hs
  have hlen : s.mbx.talus.length < 32768 := by
    simp only [talusFree, Bool.and_eq_true, decide_eq_true_eq] at hfree
    exact hfree.2
  refine (interrupt_safe_iff _ _).mpr ((writeStatusBlock_safe_iff _).mpr ⟨hc, hr, ?_, hrest⟩)
  rw [List.length_append, List.length_singleton]
  exact hlen

@[simp] theorem flushTalus_safe (fuel : Nat) (s : State) (hs : Safe s) : Safe (flushTalus fuel s) := by
  fun_induction flushTalus
  case case3 s hfull _ ih =>
    have hfree : talusFree s = true := by simpa using hfull
    exact ih (writeTalus_safe _ _ hfree hs)
  case case5 s hfull _ r rest hheld ih =>
    have hfree : talusFree s = true := by simpa using hfull
    refine ih (writeTalus_safe _ _ hfree (withinBounds_of_le hs (Nat.le_refl _) (Nat.le_refl _) ?_ (Nat.le_refl _)
      (Nat.le_refl _)))
    rw [hheld]
    exact Nat.le_succ _
  all_goals exact hs

/-- The CP holds a record only while it holds fewer than 1,024 (R60). -/
@[simp] theorem pcieRecord_safe (r : EventRec) (s : State) (hs : Safe s) : Safe (pcieRecord r s) := by
  have hf := flushTalus_safe 1026 s hs
  unfold pcieRecord
  dsimp only
  split
  next hfree => exact writeTalus_safe _ _ hfree.1 hf
  next =>
    split
    next hlen =>
      obtain ⟨hc, hr, ht, -, hrest⟩ := hf
      refine ⟨hc, hr, ht, ?_, hrest⟩
      rw [List.length_append, List.length_singleton]
      exact hlen
    next => exact hf

theorem execEventRecordWrite_safeOut (s : State) (hs : Safe s) : SafeOut (execEventRecordWrite s) := by
  rw [execEventRecordWrite, safeOut_next_iff]
  split
  · exact hs
  · split
    · exact hs
    · refine settleDrain_safe _ (foldl_safe (fun s q h => ?_) _ ?_)
      · simp [h]
      · split
        · exact pcieRecord_safe _ _ hs
        · exact hs

theorem execTalusLost_safeOut (s : State) (hs : Safe s) : SafeOut (execTalusLost s) := by
  simp [execTalusLost, hs]

@[simp] theorem takeSessionFrame_safe (inst : Nat) (f : Frame) (s : State) (hs : Safe s) :
    Safe (takeSessionFrame inst f s) := by
  simp [takeSessionFrame, hs]

@[simp] theorem takeGap_safe (inst : Nat) (ring : Fin 4) (fuel : Nat) (s : State) (hs : Safe s) :
    Safe (takeGap inst ring fuel s) := by
  fun_induction takeGap <;> simp_all

theorem execMessage_safeOut (session : BitVec 32) (ring : Fin 4) (counter : Nat) (plain : Option (List Byte)) (s : State)
    (hs : Safe s) : SafeOut (execMessage session ring counter plain s) := by
  have h1 : Safe (takeDatagram session counter plain s).1 := takeDatagram_safe _ _ _ _ hs
  unfold execMessage
  dsimp only
  generalize takeDatagram session counter plain s = d at h1 ⊢
  repeat' split
  all_goals simp [h1]

theorem execSeqGapTimeout_safeOut (session : BitVec 32) (ring : Fin 4) (s : State) (hs : Safe s) :
    SafeOut (execSeqGapTimeout session ring s) := by
  simp [execSeqGapTimeout, hs]

theorem execFmsCommandExecute_safeOut (s : State) (hs : Safe s) : SafeOut (execFmsCommandExecute s) := by
  have hrest : ∀ e rest, s.saddle.fsQueue = e :: rest → Safe { s with saddle := { s.saddle with fsQueue := rest } } :=
    fun e rest hq => withinBounds_of_le hs (Nat.le_refl _) (Nat.le_refl _) (Nat.le_refl _)
      (by rw [hq]; exact Nat.le_succ _) (Nat.le_refl _)
  unfold execFmsCommandExecute
  split
  · exact (safeOut_next_iff _).mpr hs
  · split
    next => exact (safeOut_next_iff _).mpr hs
    next hq =>
      have h1 := hrest _ _ hq
      dsimp only
      split
      next => exact (safeOut_next_iff _).mpr h1
      next hd => exact (done_safeOut_iff _ _).mpr (runOp_safe _ _ _ _ (opOf_keepsSafe hd) h1)

theorem execQuietPointReturn_safeOut (s : State) (hs : Safe s) : SafeOut (execQuietPointReturn s) := by
  simp [execQuietPointReturn, hs]

/-! ### The dispatch and the step -/

/-- The row of a message: whatever becomes of the message, the state stays safe. -/
theorem message_safeOut {d : OpDef} (hd : KeepsSafe d) (m : Msg) (s : State) (hs : Safe s) : SafeOut (.next (message d m s)) :=
  (safeOut_next_iff _).mpr (message_safe d m s hd hs)

/-- The row of a message that may change a status word. -/
theorem done_message_safeOut {d : OpDef} (hd : KeepsSafe d) (m : Msg) (s : State) (hs : Safe s) :
    SafeOut (done s (message d m s)) :=
  (done_safeOut_iff _ _).mpr (message_safe d m s hd hs)

/-- Every command keeps a safe state safe. -/
theorem exec_safeOut (i : Instr) (s : State) (hs : Safe s) : SafeOut (exec i s) := by
  cases i with
  | syncFence m => exact message_safeOut opSyncFence_keepsSafe m s hs
  | syncEcho m => exact message_safeOut opSyncEcho_keepsSafe m s hs
  | chanCreate m => exact message_safeOut opChanCreate_keepsSafe m s hs
  | chanDestroy m => exact message_safeOut opChanDestroy_keepsSafe m s hs
  | chanQuery m => exact message_safeOut opChanQuery_keepsSafe m s hs
  | chanNextPlate m => exact message_safeOut opChanNextPlate_keepsSafe m s hs
  | runCreate m => exact message_safeOut opRunCreate_keepsSafe m s hs
  | runStart m => exact message_safeOut opRunStart_keepsSafe m s hs
  | runStop m => exact message_safeOut opRunStop_keepsSafe m s hs
  | runAbort m => exact message_safeOut opRunAbort_keepsSafe m s hs
  | runDestroy m => exact message_safeOut opRunDestroy_keepsSafe m s hs
  | runQuery m => exact message_safeOut opRunQuery_keepsSafe m s hs
  | plateCreate m => exact message_safeOut opPlateCreate_keepsSafe m s hs
  | plateData m => exact message_safeOut opPlateData_keepsSafe m s hs
  | plateRead m => exact message_safeOut opPlateRead_keepsSafe m s hs
  | plateSeal m => exact message_safeOut opPlateSeal_keepsSafe m s hs
  | plateDestroy m => exact message_safeOut opPlateDestroy_keepsSafe m s hs
  | plateQuery m => exact message_safeOut opPlateQuery_keepsSafe m s hs
  | plateStoreQuery m => exact message_safeOut opPlateStoreQuery_keepsSafe m s hs
  | benchToneWrite m => exact message_safeOut opBenchToneWrite_keepsSafe m s hs
  | benchNozzleWrite m => exact message_safeOut opBenchNozzleWrite_keepsSafe m s hs
  | benchScreenDefine m => exact message_safeOut opBenchScreenDefine_keepsSafe m s hs
  | benchScreenWrite m => exact message_safeOut opBenchScreenWrite_keepsSafe m s hs
  | benchSubstWrite m => exact message_safeOut opBenchSubstWrite_keepsSafe m s hs
  | benchStitchWrite m => exact message_safeOut opBenchStitchWrite_keepsSafe m s hs
  | benchDropmapWrite m => exact message_safeOut opBenchDropmapWrite_keepsSafe m s hs
  | benchCommit m => exact message_safeOut opBenchCommit_keepsSafe m s hs
  | benchDiscard m => exact message_safeOut opBenchDiscard_keepsSafe m s hs
  | benchRead m => exact message_safeOut opBenchRead_keepsSafe m s hs
  | benchStatus m => exact message_safeOut opBenchStatus_keepsSafe m s hs
  | benchRotation m => exact message_safeOut opBenchRotation_keepsSafe m s hs
  | barGeomWrite m => exact message_safeOut opBarGeomWrite_keepsSafe m s hs
  | barGeomCommit m => exact message_safeOut opBarGeomCommit_keepsSafe m s hs
  | barQuery m => exact message_safeOut opBarQuery_keepsSafe m s hs
  | headQuery m => exact message_safeOut opHeadQuery_keepsSafe m s hs
  | headBlank m => exact message_safeOut opHeadBlank_keepsSafe m s hs
  | headUnblank m => exact message_safeOut opHeadUnblank_keepsSafe m s hs
  | headBandMap m => exact message_safeOut opHeadBandMap_keepsSafe m s hs
  | barFireEnable m => exact message_safeOut opBarFireEnable_keepsSafe m s hs
  | posEncoderConfig m => exact message_safeOut opPosEncoderConfig_keepsSafe m s hs
  | posTrackConfig m => exact message_safeOut opPosTrackConfig_keepsSafe m s hs
  | posQuery m => exact message_safeOut opPosQuery_keepsSafe m s hs
  | posSet m => exact message_safeOut opPosSet_keepsSafe m s hs
  | posTrim m => exact message_safeOut opPosTrim_keepsSafe m s hs
  | posMarkConfig m => exact message_safeOut opPosMarkConfig_keepsSafe m s hs
  | posEmuConfig m => exact message_safeOut opPosEmuConfig_keepsSafe m s hs
  | posFaultClear m => exact message_safeOut opPosFaultClear_keepsSafe m s hs
  | cmpCreate m => exact message_safeOut opCmpCreate_keepsSafe m s hs
  | cmpArm m => exact message_safeOut opCmpArm_keepsSafe m s hs
  | cmpDisarm m => exact message_safeOut opCmpDisarm_keepsSafe m s hs
  | cmpDestroy m => exact message_safeOut opCmpDestroy_keepsSafe m s hs
  | cmpQuery m => exact message_safeOut opCmpQuery_keepsSafe m s hs
  | settConfig m => exact message_safeOut opSettConfig_keepsSafe m s hs
  | settQuery m => exact message_safeOut opSettQuery_keepsSafe m s hs
  | settRetrain m => exact message_safeOut opSettRetrain_keepsSafe m s hs
  | settRemap m => exact message_safeOut opSettRemap_keepsSafe m s hs
  | camCreate m => exact message_safeOut opCamCreate_keepsSafe m s hs
  | camDestroy m => exact message_safeOut opCamDestroy_keepsSafe m s hs
  | camSensorWrite m => exact message_safeOut opCamSensorWrite_keepsSafe m s hs
  | camExposureWrite m => exact message_safeOut opCamExposureWrite_keepsSafe m s hs
  | camParamWrite m => exact message_safeOut opCamParamWrite_keepsSafe m s hs
  | camCommit m => exact message_safeOut opCamCommit_keepsSafe m s hs
  | camActivate m => exact message_safeOut opCamActivate_keepsSafe m s hs
  | camStatsRead m => exact message_safeOut opCamStatsRead_keepsSafe m s hs
  | camCapture m => exact message_safeOut opCamCapture_keepsSafe m s hs
  | camFrameRead m => exact message_safeOut opCamFrameRead_keepsSafe m s hs
  | camQuery m => exact message_safeOut opCamQuery_keepsSafe m s hs
  | calCreate m => exact message_safeOut opCalCreate_keepsSafe m s hs
  | calDestroy m => exact message_safeOut opCalDestroy_keepsSafe m s hs
  | calAttach m => exact message_safeOut opCalAttach_keepsSafe m s hs
  | calDetach m => exact message_safeOut opCalDetach_keepsSafe m s hs
  | calParamWrite m => exact message_safeOut opCalParamWrite_keepsSafe m s hs
  | calRead m => exact message_safeOut opCalRead_keepsSafe m s hs
  | calWrite m => exact message_safeOut opCalWrite_keepsSafe m s hs
  | loopHold m => exact message_safeOut opLoopHold_keepsSafe m s hs
  | loopRelease m => exact message_safeOut opLoopRelease_keepsSafe m s hs
  | loopResume m => exact message_safeOut opLoopResume_keepsSafe m s hs
  | calRecalc m => exact message_safeOut opCalRecalc_keepsSafe m s hs
  | calQuery m => exact message_safeOut opCalQuery_keepsSafe m s hs
  | calChanQuery m => exact message_safeOut opCalChanQuery_keepsSafe m s hs
  | calGateConfig m => exact message_safeOut opCalGateConfig_keepsSafe m s hs
  | calGateWindow m => exact message_safeOut opCalGateWindow_keepsSafe m s hs
  | calGateClear m => exact message_safeOut opCalGateClear_keepsSafe m s hs
  | calGateQuery m => exact message_safeOut opCalGateQuery_keepsSafe m s hs
  | vdCreate m => exact message_safeOut opVdCreate_keepsSafe m s hs
  | vdDestroy m => exact message_safeOut opVdDestroy_keepsSafe m s hs
  | vdAttach m => exact message_safeOut opVdAttach_keepsSafe m s hs
  | vdDetach m => exact message_safeOut opVdDetach_keepsSafe m s hs
  | vdPush m => exact message_safeOut opVdPush_keepsSafe m s hs
  | vdVerifyConfig m => exact message_safeOut opVdVerifyConfig_keepsSafe m s hs
  | vdRejectConfig m => exact message_safeOut opVdRejectConfig_keepsSafe m s hs
  | vdCancel m => exact message_safeOut opVdCancel_keepsSafe m s hs
  | vdResults m => exact message_safeOut opVdResults_keepsSafe m s hs
  | vdQuery m => exact message_safeOut opVdQuery_keepsSafe m s hs
  | vdRecovery m => exact message_safeOut opVdRecovery_keepsSafe m s hs
  | vdFontWrite m => exact message_safeOut opVdFontWrite_keepsSafe m s hs
  | diagMemConfig m => exact message_safeOut opDiagMemConfig_keepsSafe m s hs
  | diagMemQuery m => exact message_safeOut opDiagMemQuery_keepsSafe m s hs
  | diagMemTraining m => exact message_safeOut opDiagMemTraining_keepsSafe m s hs
  | diagArbPrio m => exact message_safeOut opDiagArbPrio_keepsSafe m s hs
  | diagArbCommit m => exact message_safeOut opDiagArbCommit_keepsSafe m s hs
  | diagArbQuery m => exact message_safeOut opDiagArbQuery_keepsSafe m s hs
  | diagAvsConfig m => exact message_safeOut opDiagAvsConfig_keepsSafe m s hs
  | diagSlackQuery m => exact message_safeOut opDiagSlackQuery_keepsSafe m s hs
  | sysEthConfig m => exact message_safeOut opSysEthConfig_keepsSafe m s hs
  | sysEthQuery m => exact message_safeOut opSysEthQuery_keepsSafe m s hs
  | timePtpConfig m => exact message_safeOut opTimePtpConfig_keepsSafe m s hs
  | timeServoConfig m => exact message_safeOut opTimeServoConfig_keepsSafe m s hs
  | timeSet m => exact message_safeOut opTimeSet_keepsSafe m s hs
  | timeQuery m => exact message_safeOut opTimeQuery_keepsSafe m s hs
  | timeTriggerCreate m => exact message_safeOut opTimeTriggerCreate_keepsSafe m s hs
  | timeTriggerArm m => exact message_safeOut opTimeTriggerArm_keepsSafe m s hs
  | timeTriggerDisarm m => exact message_safeOut opTimeTriggerDisarm_keepsSafe m s hs
  | timeTriggerDestroy m => exact message_safeOut opTimeTriggerDestroy_keepsSafe m s hs
  | timeTriggerQuery m => exact message_safeOut opTimeTriggerQuery_keepsSafe m s hs
  | timeTimerCreate m => exact message_safeOut opTimeTimerCreate_keepsSafe m s hs
  | timeTimerStop m => exact message_safeOut opTimeTimerStop_keepsSafe m s hs
  | timeTimerDestroy m => exact message_safeOut opTimeTimerDestroy_keepsSafe m s hs
  | timeCaptureConfig m => exact message_safeOut opTimeCaptureConfig_keepsSafe m s hs
  | timeCaptureRead m => exact message_safeOut opTimeCaptureRead_keepsSafe m s hs
  | sysInterlockConfig m => exact message_safeOut opSysInterlockConfig_keepsSafe m s hs
  | sysInterlockLock m => exact message_safeOut opSysInterlockLock_keepsSafe m s hs
  | sysInterlockRearm m => exact message_safeOut opSysInterlockRearm_keepsSafe m s hs
  | sysInterlockQuery m => exact message_safeOut opSysInterlockQuery_keepsSafe m s hs
  | sysSaddleQuery m => exact message_safeOut opSysSaddleQuery_keepsSafe m s hs
  | sysTempConfig m => exact done_message_safeOut opSysTempConfig_keepsSafe m s hs
  | sysTempQuery m => exact message_safeOut opSysTempQuery_keepsSafe m s hs
  | sysThermalHead m => exact message_safeOut opSysThermalHead_keepsSafe m s hs
  | sysThermalResume m => exact message_safeOut opSysThermalResume_keepsSafe m s hs
  | sysReset m => exact message_safeOut opSysReset_keepsSafe m s hs
  | sysBootQuery m => exact message_safeOut opSysBootQuery_keepsSafe m s hs
  | sysOptionRead m => exact message_safeOut opSysOptionRead_keepsSafe m s hs
  | sysOptionWrite m => exact message_safeOut opSysOptionWrite_keepsSafe m s hs
  | sysPowerQuery m => exact message_safeOut opSysPowerQuery_keepsSafe m s hs
  | sysFailoverConfig m => exact done_message_safeOut opSysFailoverConfig_keepsSafe m s hs
  | sysFailoverQuery m => exact message_safeOut opSysFailoverQuery_keepsSafe m s hs
  | auditOpen m => exact message_safeOut opAuditOpen_keepsSafe m s hs
  | auditClose m => exact message_safeOut opAuditClose_keepsSafe m s hs
  | auditRead m => exact message_safeOut opAuditRead_keepsSafe m s hs
  | auditAck m => exact message_safeOut opAuditAck_keepsSafe m s hs
  | auditQuote m => exact message_safeOut opAuditQuote_keepsSafe m s hs
  | auditFwBegin m => exact message_safeOut opAuditFwBegin_keepsSafe m s hs
  | auditFwData m => exact message_safeOut opAuditFwData_keepsSafe m s hs
  | auditFwSeal m => exact message_safeOut opAuditFwSeal_keepsSafe m s hs
  | auditFwQuery m => exact message_safeOut opAuditFwQuery_keepsSafe m s hs
  | auditKeyEnrol m => exact message_safeOut opAuditKeyEnrol_keepsSafe m s hs
  | auditDebugChallenge m => exact message_safeOut opAuditDebugChallenge_keepsSafe m s hs
  | auditDebugOpen m => exact message_safeOut opAuditDebugOpen_keepsSafe m s hs
  | auditDebugClose m => exact message_safeOut opAuditDebugClose_keepsSafe m s hs
  | mbxEnable value => exact execMbxEnable_safeOut value s hs
  | mbxDisable value => exact execMbxDisable_safeOut value s hs
  | mbxEthEnable value => exact execMbxEthEnable_safeOut value s hs
  | doorbell ring value => exact execDoorbell_safeOut ring value s hs
  | consumerIndexWrite talus value => exact execConsumerIndexWrite_safeOut talus value s hs
  | ringSetupWrite reg value => exact execRingSetupWrite_safeOut reg value s hs
  | mbxStatusClear value => exact execMbxStatusClear_safeOut value s hs
  | winErrClear value => exact execWinErrClear_safeOut value s hs
  | resetSeenClear value newer => exact execResetSeenClear_safeOut value newer s hs
  | intStatusClear value newer => exact execIntStatusClear_safeOut value newer s hs
  | intMaskWrite value => exact execIntMaskWrite_safeOut value s hs
  | registerWrite offset size value => exact execRegisterWrite_safeOut offset size value s hs
  | holdoffExpiry vector => exact execHoldoffExpiry_safeOut vector s hs
  | commandFetch slots => exact execCommandFetch_safeOut slots s hs
  | fenceRelease => exact execFenceRelease_safeOut s hs
  | messageCompletion => exact execMessageCompletion_safeOut s hs
  | fenceWait => exact execFenceWait_safeOut s hs
  | eventRecordWrite => exact execEventRecordWrite_safeOut s hs
  | talusLost => exact execTalusLost_safeOut s hs
  | hello port v6 body => exact execHello_safeOut port v6 body s hs
  | confirm session body => exact execConfirm_safeOut session body s hs
  | handshakeTimeout session => exact execHandshakeTimeout_safeOut session s hs
  | message session ring counter plain => exact execMessage_safeOut session ring counter plain s hs
  | seqGapTimeout session ring => exact execSeqGapTimeout_safeOut session ring s hs
  | eventAck session counter plain => exact execEventAck_safeOut session counter plain s hs
  | eventResend session => exact execEventResend_safeOut session s hs
  | close session counter plain => exact execClose_safeOut session counter plain s hs
  | sessionIdleTimeout session => exact execSessionIdleTimeout_safeOut session s hs
  | fragmentTimeout => exact execFragmentTimeout_safeOut s hs
  | ethFrameReceive port frame => exact execEthFrameReceive_safeOut port frame s hs
  | ethLink port up duplicate => exact execEthLink_safeOut port up duplicate s hs
  | hostSideLost => exact execHostSideLost_safeOut s hs
  | hostSideBack => exact execHostSideBack_safeOut s hs
  | fieldUnreachable => exact execFieldUnreachable_safeOut s hs
  | fieldReachable => exact execFieldReachable_safeOut s hs
  | fmsCommandExecute => exact execFmsCommandExecute_safeOut s hs
  | outputLineScreen bar => exact execOutputLineScreen_safeOut bar s hs
  | fireLinePack bar => exact execFireLinePack_safeOut bar s hs
  | lineDeadline bar => exact execLineDeadline_safeOut bar s hs
  | fireInstant bar => exact execFireInstant_safeOut bar s hs
  | switchDecision run => exact execSwitchDecision_safeOut run s hs
  | plateSwitched chan => exact execPlateSwitched_safeOut chan s hs
  | tableSwitched bar => exact execTableSwitched_safeOut bar s hs
  | benchFault bench cause => exact execBenchFault_safeOut bench cause s hs
  | spareTakeover bar => exact execSpareTakeover_safeOut bar s hs
  | shadowMismatch slot rescreenAgrees => exact execShadowMismatch_safeOut slot rescreenAgrees s hs
  | rotationPeriod => exact execRotationPeriod_safeOut s hs
  | benchTestDone bench pass => exact execBenchTestDone_safeOut bench pass s hs
  | spareLoadDone => exact execSpareLoadDone_safeOut s hs
  | headRecord bar slot present record => exact execHeadRecord_safeOut bar slot present record s hs
  | headTemp bar entries => exact execHeadTemp_safeOut bar entries s hs
  | headBlanked bar slot => exact execHeadBlanked_safeOut bar slot s hs
  | headResumed bar slot => exact execHeadResumed_safeOut bar slot s hs
  | headReportMissing bar slot => exact execHeadReportMissing_safeOut bar slot s hs
  | headLost bar slot => exact execHeadLost_safeOut bar slot s hs
  | driverStatus bar freeLines faults => exact execDriverStatus_safeOut bar freeLines faults s hs
  | encoderCount input a b samples => exact execEncoderCount_safeOut input a b samples s hs
  | zEdge input z samples => exact execZEdge_safeOut input z samples s hs
  | encFault input illegal clears => exact execEncFault_safeOut input illegal clears s hs
  | standstill => exact execStandstill_safeOut s hs
  | loopUpdate => exact execLoopUpdate_safeOut s hs
  | comparePulseEnd trigger => exact execComparePulseEnd_safeOut trigger s hs
  | mark input falling held => exact execMark_safeOut input falling held s hs
  | emuEdge output => exact execEmuEdge_safeOut output s hs
  | positionWordSend => exact execPositionWordSend_safeOut s hs
  | positionWordReceive => exact execPositionWordReceive_safeOut s hs
  | cascadeWordTimeout => exact execCascadeWordTimeout_safeOut s hs
  | lsMismatch bar dev => exact execLsMismatch_safeOut bar dev s hs
  | lsbTestDone pass => exact execLsbTestDone_safeOut pass s hs
  | lsaStop bar => exact execLsaStop_safeOut bar s hs
  | laneAlignment lane line => exact execLaneAlignment_safeOut lane line s hs
  | ts1 lane => exact execTs1_safeOut lane s hs
  | ts2 lane => exact execTs2_safeOut lane s hs
  | config lane => exact execConfig_safeOut lane s hs
  | lat lane => exact execLat_safeOut lane s hs
  | trainingPhaseAdvance link => exact execTrainingPhaseAdvance_safeOut link s hs
  | trainingTimeout link => exact execTrainingTimeout_safeOut link s hs
  | trainingRetry link => exact execTrainingRetry_safeOut link s hs
  | packetReceive lane => exact execPacketReceive_safeOut lane s hs
  | serve bar => exact execServe_safeOut bar s hs
  | ack lane => exact execAck_safeOut lane s hs
  | ackSend lane => exact execAckSend_safeOut lane s hs
  | replayTimeout lane => exact execReplayTimeout_safeOut lane s hs
  | resume lane => exact execResume_safeOut lane s hs
  | sync lane => exact execSync_safeOut lane s hs
  | timeBlock face => exact execTimeBlock_safeOut face s hs
  | eye lane => exact execEye_safeOut lane s hs
  | laneHealth lane => exact execLaneHealth_safeOut lane s hs
  | laneRemapped bar lane => exact execLaneRemapped_safeOut bar lane s hs
  | spareCoreTimeout spare => exact execSpareCoreTimeout_safeOut spare s hs
  | linkLost bar => exact execLinkLost_safeOut bar s hs
  | linkReturn bar => exact execLinkReturn_safeOut bar s hs
  | cameraTrigger face => exact execCameraTrigger_safeOut face s hs
  | cameraLinePacket face lane ptype body => exact execCameraLinePacket_safeOut face lane ptype body s hs
  | faceLineComplete face => exact execFaceLineComplete_safeOut face s hs
  | hubStatus face body => exact execHubStatus_safeOut face body s hs
  | frameStart face => exact execFrameStart_safeOut face s hs
  | frameEnd face => exact execFrameEnd_safeOut face s hs
  | frameStats face => exact execFrameStats_safeOut face s hs
  | captureDone face => exact execCaptureDone_safeOut face s hs
  | visionFault engine cause => exact execVisionFault_safeOut engine cause s hs
  | loopWindowEnd calset => exact execLoopWindowEnd_safeOut calset s hs
  | loopCommit calset => exact execLoopCommit_safeOut calset s hs
  | heldCommit bar gate => exact execHeldCommit_safeOut bar gate s hs
  | recalculationDone calset => exact execRecalculationDone_safeOut calset s hs
  | recalcSpareFail => exact execRecalcSpareFail_safeOut s hs
  | dropGate bar body => exact execDropGate_safeOut bar body s hs
  | dropTestResult bar => exact execDropTestResult_safeOut bar s hs
  | gateFault bar => exact execGateFault_safeOut bar s hs
  | itemRendered stream => exact execItemRendered_safeOut stream s hs
  | itemContentVoid stream => exact execItemContentVoid_safeOut stream s hs
  | itemLastLine stream seq => exact execItemLastLine_safeOut stream seq s hs
  | itemVerdict stream seq => exact execItemVerdict_safeOut stream seq s hs
  | verifyTimeout stream seq => exact execVerifyTimeout_safeOut stream seq s hs
  | rejectStart stream => exact execRejectStart_safeOut stream s hs
  | rejectEnd stream => exact execRejectEnd_safeOut stream s hs
  | rejectOverflow stream => exact execRejectOverflow_safeOut stream s hs
  | vdFault engine cause => exact execVdFault_safeOut engine cause s hs
  | arbRequest cluster index req flips => exact execArbRequest_safeOut cluster index req flips s hs
  | arbDecision cluster index flips => exact execArbDecision_safeOut cluster index flips s hs
  | sleepWake port flips => exact execSleepWake_safeOut port flips s hs
  | lockExpiry port => exact execLockExpiry_safeOut port s hs
  | emergencyTake port refresh flips => exact execEmergencyTake_safeOut port refresh flips s hs
  | lockBroken requester => exact execLockBroken_safeOut requester s hs
  | slackWindowEnd bar => exact execSlackWindowEnd_safeOut bar s hs
  | scrubPass => exact execScrubPass_safeOut s hs
  | powerDownEntry rank => exact execPowerDownEntry_safeOut rank s hs
  | selfRefreshEntry => exact execSelfRefreshEntry_safeOut s hs
  | selfRefreshExit => exact execSelfRefreshExit_safeOut s hs
  | refreshDue port rank => exact execRefreshDue_safeOut port rank s hs
  | zqCalibration => exact execZqCalibration_safeOut s hs
  | dramTempRead temps => exact execDramTempRead_safeOut temps s hs
  | memTrained stepsPass probePass margin rank words => exact execMemTrained_safeOut stepsPass probePass margin rank words s hs
  | syncMessage gm offsetNs => exact execSyncMessage_safeOut gm offsetNs s hs
  | ptpMessage msg => exact execPtpMessage_safeOut msg s hs
  | syncTimeout => exact execSyncTimeout_safeOut s hs
  | announceTimeout => exact execAnnounceTimeout_safeOut s hs
  | timeWordSend => exact execTimeWordSend_safeOut s hs
  | timeWordReceive crcOk => exact execTimeWordReceive_safeOut crcOk s hs
  | heartbeatEcho roundTrip turnaround => exact execHeartbeatEcho_safeOut roundTrip turnaround s hs
  | saddleTimeLoss => exact execSaddleTimeLoss_safeOut s hs
  | triggerPulse trigger => exact execTriggerPulse_safeOut trigger s hs
  | triggerPulseEnd trigger => exact execTriggerPulseEnd_safeOut trigger s hs
  | timerExpired timer => exact execTimerExpired_safeOut timer s hs
  | capture input falling held => exact execCapture_safeOut input falling held s hs
  | saddleFrame ret channel cls bytes crcOk => exact execSaddleFrame_safeOut ret channel cls bytes crcOk s hs
  | channelReturn ret channel => exact execChannelReturn_safeOut ret channel s hs
  | idlePatternCheck ret channel pass => exact execIdlePatternCheck_safeOut ret channel pass s hs
  | heartbeat cp wire seq fault => exact execHeartbeat_safeOut cp wire seq fault s hs
  | interlock input ohms held => exact execInterlock_safeOut input ohms held s hs
  | interlockHealthy input ohms => exact execInterlockHealthy_safeOut input ohms s hs
  | sensorRound readings => exact execSensorRound_safeOut readings s hs
  | comparatorTrip sensor => exact execComparatorTrip_safeOut sensor s hs
  | thermalOffRestart => exact execThermalOffRestart_safeOut s hs
  | supplyGood field => exact execSupplyGood_safeOut field s hs
  | brownOut supply mv => exact execBrownOut_safeOut supply mv s hs
  | rstN low edges => exact execRstN_safeOut low edges s hs
  | frstN low edges => exact execFrstN_safeOut low edges s hs
  | perstN => exact execPerstN_safeOut s hs
  | referenceLoss field => exact execReferenceLoss_safeOut field s hs
  | clockFailure domain => exact execClockFailure_safeOut domain s hs
  | cpWatchdog cp lockup => exact execCpWatchdog_safeOut cp lockup s hs
  | fsWatchdog lockup => exact execFsWatchdog_safeOut lockup s hs
  | resetRelease field => exact execResetRelease_safeOut field s hs
  | fieldResetSymbol => exact execFieldResetSymbol_safeOut s hs
  | optionCopy => exact execOptionCopy_safeOut s hs
  | measuredBoot check => exact execMeasuredBoot_safeOut check s hs
  | fieldImageApproval check => exact execFieldImageApproval_safeOut check s hs
  | bootTimeout => exact execBootTimeout_safeOut s hs
  | mailboxReady => exact execMailboxReady_safeOut s hs
  | cpDeclaration cp => exact execCpDeclaration_safeOut cp s hs
  | cpStandby => exact execCpStandby_safeOut s hs
  | standbySelftestDone pass => exact execStandbySelftestDone_safeOut pass s hs
  | snapshotComplete => exact execSnapshotComplete_safeOut s hs
  | quietPointReturn => exact execQuietPointReturn_safeOut s hs
  | debugSessionExpiry => exact execDebugSessionExpiry_safeOut s hs
  | debugChallengeExpiry => exact execDebugChallengeExpiry_safeOut s hs
  | referenceReturn field => exact execReferenceReturn_safeOut field s hs
  | softwareReset => exact execSoftwareReset_safeOut s hs
  | debugRequest req => exact execDebugRequest_safeOut req s hs
  | saddleHeartbeat ret t24 t25 => exact execSaddleHeartbeat_safeOut ret t24 t25 s hs
  | avsIdleStep => exact execAvsIdleStep_safeOut s hs
  | ptpTransmitInterval => exact execPtpTransmitInterval_safeOut s hs

theorem step_safeOut (s : State) (hs : Safe s) : SafeOut (step s) := by
  unfold step
  split
  · exact (safeOut_next_iff _).mpr (idleTick_safe s hs)
  · exact exec_safeOut _ _ hs

/-- Settles O60: each command of the dispatch keeps a safe state safe, and so does a tick of the idle block. -/
theorem stepKeepsSafe : Obligations.StepKeepsSafe := fun s t hs ht => step_safeOut s hs t ht

/-- Settles O59: after reset every list that `Safe` bounds is empty and VDD_F stands at its upper end. -/
theorem resetIsSafe : Obligations.ResetIsSafe :=
  ⟨⟨reset_mem_wf, Nat.zero_le _, Nat.zero_le _, Nat.zero_le _, Nat.zero_le _, Nat.zero_le _, (by decide : 700 ≤ 900),
    Nat.le_refl 900⟩,
    rfl, rfl, rfl⟩

end Sys2Proof.SafetyProofs
end

section
/-! SUPPORT. What a message command and a command of Saddle leave, said once for each (O29, O34). -/

namespace Sys2Proof.CompletionProofs

open Sys2Proof.Machine Sys2Proof.Laws

/-! ### Messages -/

/-- A message command whose body answers well completes with that answer. -/
theorem completes_of_body {i : Instr} {d : OpDef} {m : Msg} {s : State} {r : OpOk} (hi : exec i s = .next (message d m s))
    (ha : admitted d m s = true) (hb : d.body m s = .ok r) : Completes i d m s r := by
  rw [Completes, hi, message_ok ha hb]

/-- A status word leaves all but the window as it is. -/
theorem noteStatus_frame (before s : State) : (noteStatus before s).saddle = s.saddle ∧
    (noteStatus before s).thermal = s.thermal ∧ (noteStatus before s).objs = s.objs := by
  unfold noteStatus
  split <;> simp

/-! ### Saddle -/

theorem sysSaddleQuery_completes (m : Msg) (s : State) (ha : admitted opSysSaddleQuery m s = true) :
    ∃ b : Bytes, b.length = 48 ∧ Completes (.sysSaddleQuery m) opSysSaddleQuery m s { state := s, payload := b } :=
  ⟨_, by simp, completes_of_body rfl ha rfl⟩

section Channels

variable {ret : Bool} {k : Fin 14} {i : Nat} {s : State}

theorem saddleFrame_not_carried {cls : SaddleClass} (n : Nat) (ok : Bool) (hi : channelIndex ret k = some i)
    (hc : carries ret cls = false) : exec (.saddleFrame ret k cls n ok) s = .next s := by
  simp [exec, execSaddleFrame, hi, hc]

theorem saddleFrame_good {cls : SaddleClass} (n : Nat) (hi : channelIndex ret k = some i) (hup : saddleUp s = true)
    (hon : channelOn s ret k = true) (hc : carries ret cls = true) :
    exec (.saddleFrame ret k cls n true) s = .next { s with saddle :=
      if ret then { s.saddle with retBytes := (s.saddle.retBytes + n) % 2 ^ 64, frameRet := s.time.clock }
      else { s.saddle with fwdBytes := (s.saddle.fwdBytes + n) % 2 ^ 64, frameFwd := s.time.clock } } := by
  simp [exec, execSaddleFrame, hi, hup, hon, hc]

theorem saddleFrame_bad {cls : SaddleClass} (n : Nat) (hi : channelIndex ret k = some i) (hup : saddleUp s = true)
    (hon : channelOn s ret k = true) (hc : carries ret cls = true) :
    let l := s.time.clock :: (s.saddle.resendAt.getD i []).filter fun t => s.time.clock < t + 1000000
    let s1 := { s with saddle := { s.saddle with
      resendAt := setAt s.saddle.resendAt i l, resends := (s.saddle.resends + 1) % 2 ^ 32 } }
    exec (.saddleFrame ret k cls n false) s =
      .next (if 16 ≤ l.length then noteStatus s (turnChannel ret k false s1) else s1) := by
  intro l s1
  have hx : exec (.saddleFrame ret k cls n false) s =
      if 16 ≤ l.length then done s (turnChannel ret k false s1) else .next s1 := by
    simp [exec, execSaddleFrame, hi, hup, hon, hc, l, s1]
  rw [hx]
  split <;> rfl

theorem idlePatternCheck_fails (hi : channelIndex ret k = some i) (hup : saddleUp s = true) (hon : channelOn s ret k = true) :
    exec (.idlePatternCheck ret k false) s = .next (noteStatus s (turnChannel ret k false s)) := by
  simp [exec, execIdlePatternCheck, hi, hup, hon, done]

theorem idlePatternCheck_removed (pass : Bool) (hi : channelIndex ret k = some i) (hup : saddleUp s = true)
    (hon : channelOn s ret k = false) :
    let since := if pass then some ((s.saddle.cleanSince.getD i none).getD s.time.clock) else none
    exec (.idlePatternCheck ret k pass) s =
      .next { s with saddle := { s.saddle with cleanSince := setAt s.saddle.cleanSince i since } } := by
  simp [exec, execIdlePatternCheck, hi, hup, hon]

theorem channelReturn_after {t : Nat} (hi : channelIndex ret k = some i) (hup : saddleUp s = true)
    (hon : channelOn s ret k = false) (ht : s.saddle.cleanSince.getD i none = some t) (hclean : t + 1000000000 ≤ s.time.clock) :
    exec (.channelReturn ret k) s = .next (noteStatus s (deliverHeld (turnChannel ret k true s))) := by
  simp only [exec, execChannelReturn, hi, ht]
  simp [hup, hon, hclean, done]

end Channels

theorem saddleHeartbeat_taken (t24 t25 : Int) (s : State) (hup : saddleUp s = true) : ∃ a b : State,
    exec (.saddleHeartbeat false t24 t25) s = .next a ∧ a.thermal.hostReadings = [t24, t25] ∧ a.saddle.hbH2F = true ∧
      a.saddle.beatH2F = s.time.clock ∧ a.objs = s.objs ∧
    exec (.saddleHeartbeat true t24 t25) s = .next b ∧ b.saddle.hbF2H = true ∧ b.saddle.beatF2H = s.time.clock ∧
      b.thermal = s.thermal ∧ b.objs = s.objs := by
  simp [exec, execSaddleHeartbeat, hup, done, noteStatus_frame]

section Sides

variable {s : State}

theorem hostSideLost_taken (hlost : s.saddle.hostLost = false) (hreset : s.power.fieldReset = false)
    (hbeat : s.saddle.beatH2F + 10000000 ≤ s.time.clock) (hword : s.time.wordAt + 10000000 ≤ s.time.clock)
    (hframe : s.saddle.frameFwd + 10000000 ≤ s.time.clock) :
    let s1 := { s with saddle := { s.saddle with hostLost := true, hbH2F := false, runH2F := none } }
    let runs := s1.objs.runs.mapLive fun r => if r.state.active then runOut s1 r else r
    exec .hostSideLost s = .next (noteStatus s { s1 with objs := { s1.objs with runs := runs } }) := by
  simp [exec, execHostSideLost, hlost, hreset, hbeat, hword, hframe, done]

theorem hostSideBack_taken (hlost : s.saddle.hostLost = true)
    (hbeats : beatsFor1ms s.time.clock s.saddle.beatH2F s.saddle.runH2F = true) :
    exec .hostSideBack s = .next (noteStatus s (flushWaiting (deliverHeld
      { s with saddle := { s.saddle with hostLost := false } }))) := by
  simp [exec, execHostSideBack, hlost, hbeats, done]

theorem fieldUnreachable_taken (hlost : s.saddle.fieldLost = false) :
    let silent : Bool := decide (s.saddle.beatF2H + 10000000 ≤ s.time.clock) &&
      decide (s.saddle.frameRet + 10000000 ≤ s.time.clock)
    silent = true ∨ s.saddle.forward.any id = false ∨ s.saddle.approved = false →
    exec .fieldUnreachable s = .next (noteStatus s { s with saddle := { s.saddle with
      fieldLost := true, hbF2H := s.saddle.hbF2H && !silent, runF2H := if silent then none else s.saddle.runF2H } }) := by
  intro silent hcause
  have hc : (silent || !s.saddle.forward.any id || !s.saddle.approved) = true := by
    rcases hcause with h | h | h <;> simp [h]
  have hno : ¬(s.saddle.fieldLost = true ∨ (!(silent || !s.saddle.forward.any id || !s.saddle.approved)) = true) := by
    rw [hc, hlost]
    decide
  exact if_neg hno

theorem fieldReachable_taken (hwhy : s.saddle.fieldLost = true ∨ s.power.reportField.isSome = true)
    (hready : s.mbx.ready = true) (hup : saddleUp s = true)
    (hbeats : beatsFor1ms s.time.clock s.saddle.beatF2H s.saddle.runF2H = true) (hfwd : s.saddle.forward.any id = true)
    (hret : s.saddle.ret.any id = true) (hfs : s.saddle.approved = true) :
    exec .fieldReachable s =
      .next (noteStatus s (reportFieldReset { s with saddle := { s.saddle with fieldLost := false } })) := by
  exact if_pos ⟨hwhy, hready, hup, hbeats, hfwd, hret, hfs⟩

end Sides

/-- Settles O34: each clause is the lemma of its command. -/
theorem saddleComplete : Obligations.SaddleComplete := by
  refine ⟨sysSaddleQuery_completes, ?_, saddleHeartbeat_taken, ?_, ?_, ?_, ?_⟩
  · intro ret k i n cls s hi hup
    exact ⟨fun hc ok => saddleFrame_not_carried n ok hi hc, saddleFrame_good n hi hup, saddleFrame_bad n hi hup,
      idlePatternCheck_fails hi hup, fun hon pass => idlePatternCheck_removed pass hi hup hon,
      fun t hon => channelReturn_after hi hup hon⟩
  · exact fun s => hostSideLost_taken
  · exact fun s => hostSideBack_taken
  · exact fun s => fieldUnreachable_taken
  · exact fun s => fieldReachable_taken
/-! ### Slack and voltage -/

theorem diagAvsConfig_completes (m : Msg) (s : State) (ha : admitted opDiagAvsConfig m s = true) :
    let on := bit (byteAt m.payload 6) 0
    let s1 := commandVdd (if on then s.fabric.vddMv else 900)
      { s with fabric := { s.fabric with floor := u16 m.payload 0, hyst := u16 m.payload 2
                                         idleMv := u16 m.payload 4, avsOn := on } }
    Completes (.diagAvsConfig m) opDiagAvsConfig m s
      { state := limitReport ((activeSlacks s1).foldl (fun s e => slackReport e.1 s) s1) } :=
  completes_of_body rfl ha rfl

@[simp] theorem slackField_length (v : Option Int) : (slackField v).length = 2 := by
  cases v <;> simp [slackField]

theorem diagSlackQuery_completes (m : Msg) (s : State) (ha : admitted opDiagSlackQuery m s = true) :
    ∃ b : Bytes, b.length = 136 ∧ Completes (.diagSlackQuery m) opDiagSlackQuery m s { state := s, payload := b } :=
  ⟨_, by simp [List.length_flatMap, List.map_const'], completes_of_body rfl ha rfl⟩

theorem slackWindowEnd_taken (b : Fin 8) (s : State) (k : Int) (hk : (barAt s b).slackMin = some k)
    (hlines : 1024 ≤ (barAt s b).slackLines) :
    let s1 := { s with fresh := s.fresh + 1 }
    let s2 := setBar s1 b fun bar => { bar with
      slackLast := some k, slackWorst := some (match bar.slackWorst with | none => k | some w => min w k)
      slackMin := none, slackLines := 0, busy := (takeFree 16 s).1, slackWindows := bar.slackWindows + 1 }
    let low : Bool := (leastSlack s2).any fun e => decide (e.2 < (s2.fabric.floor : Int))
    let high : Bool := (leastSlack s2).any fun e => decide ((s2.fabric.floor : Int) + s2.fabric.hyst ≤ e.2)
    let s3 := setBar s2 b fun bar => { bar with slackHigh := if high then bar.slackHigh + 1 else 0 }
    let s4 := { s3 with fabric := { s3.fabric with lowRun := if low then s3.fabric.lowRun + 1 else 0 } }
    exec (.slackWindowEnd b) s = .next (limitReport (avsStep (slackReport b s4))) := by
  simp only [exec, execSlackWindowEnd, hk]
  rw [if_neg (Nat.not_lt.mpr hlines)]
  rfl

theorem avsIdleStep_taken (s : State) (hheld : voltageHeld s = false) (hon : s.fabric.avsOn = true)
    (habove : s.fabric.idleMv < s.fabric.vddMv) :
    exec .avsIdleStep s = .next (setVdd (max s.fabric.idleMv (s.fabric.vddMv - 5)) s) := by
  simp [exec, execAvsIdleStep, hheld, hon, Nat.not_le.mpr habove]

/-- Settles O29: each clause is the lemma of its message or step. -/
theorem voltageComplete : Obligations.VoltageComplete :=
  ⟨diagAvsConfig_completes, diagSlackQuery_completes, slackWindowEnd_taken, avsIdleStep_taken⟩

/-! ### The mailbox engine -/

section Fetching

variable {s : State} {e : InFlight}

theorem commandFetch_taken {slots : List (List (List Byte))} {r : Nat} {credits : List Nat} (hup : s.power.hostReset = false)
    (hrun : s.mbx.running = true) (hdrain : s.mbx.draining = false) (hfree : responseFree s = true)
    (hring : chooseRing s slots = some (r, credits)) :
    exec (.commandFetch slots) s = .next (noteStatus s (fetchFrom (Fin.ofNat 4 r) credits slots s)) := by
  simp only [exec, execCommandFetch, hring]
  exact if_neg (by simp [hup, hrun, hdrain, hfree])

theorem fenceRelease_taken (he : (s.mbx.inFlight.find? fun e => e.phase == .waiting && (heldBy s e).isEmpty) = some e) :
    exec .fenceRelease s = .next (noteStatus s (tryStart e s)) := by
  simp only [exec, execFenceRelease, he, done]

theorem fenceWait_taken {a : Ahead}
    (he : (s.mbx.inFlight.find? fun e =>
      waitsAsFence e && e.since + 1000000000 * (e.warned + 1) ≤ s.time.clock && !(heldBy s e).isEmpty) = some e)
    (ha : oldest (heldBy s e) = some a) :
    exec .fenceWait s = .next (hostEventTo (some e.msg.inst) 0x0103 a.handle (leB 4 a.seq ++ le 1 a.ring)
      { s with mbx := { s.mbx with
        inFlight := s.mbx.inFlight.map fun x => if x = e then { x with warned := x.warned + 1 } else x } }) := by
  simp only [exec, execFenceWait, he, ha]

theorem messageCompletion_taken {st : Nat} (he : (s.mbx.inFlight.find? fun e => (finalStatus e).isSome) = some e)
    (hst : finalStatus e = some st) :
    let s1 := doneEvent e.msg st s
    exec .messageCompletion s = .next (settleDrain { s1 with mbx := { s1.mbx with
      inFlight := s1.mbx.inFlight.filter (· != e) } }) := by
  simp only [exec, execMessageCompletion, he, hst, Option.getD_some]

theorem eventRecordWrite_taken {r : EventRec} {rest : List EventRec} (hready : s.mbx.ready = true)
    (hr : s.transit = r :: rest) :
    let s1 : State := { s with transit := rest }
    let s2 := if goesTo r 0 then pcieRecord r s1 else s1
    exec .eventRecordWrite s = .next (settleDrain ((s.eth.sessions.filter fun q => goesTo r q.session.toNat).foldl
      (fun s q => sessionRecord q.session.toNat r s) s2)) := by
  simp only [exec, execEventRecordWrite, hready, hr]
  rfl

theorem fmsCommandExecute_taken {op place : Nat} {m : Msg} {rest : List (Nat × Msg × Nat)} {d : OpDef}
    (hruns : fsRuns s = true) (hq : s.saddle.fsQueue = (op, m, place) :: rest) (hd : opOf op = some d) :
    exec .fmsCommandExecute s =
      .next (noteStatus s (runOp d m place { s with saddle := { s.saddle with fsQueue := rest } })) := by
  simp only [exec, execFmsCommandExecute, hruns, hq, hd]
  rfl

end Fetching

/-- Settles O43: each clause is the lemma of its command. -/
theorem fetchComplete : Obligations.FetchComplete :=
  ⟨fun _ _ _ _ => commandFetch_taken, fun _ _ => fenceRelease_taken, fun _ _ _ => fenceWait_taken,
    fun _ _ _ => messageCompletion_taken, fun _ _ _ => eventRecordWrite_taken, fun _ => rfl,
    fun _ _ _ _ _ _ => fmsCommandExecute_taken⟩

end Sys2Proof.CompletionProofs
end

section
/-! SUPPORT. The bytes of frames, responses and records: what is written at an offset is read there (O45, O46, O47). -/

namespace Sys2Proof.MailboxProofs

open Sys2Proof Sys2Proof.Machine Sys2Proof.Laws Sys2Proof.CompletionProofs

/-! ### Fields at an offset -/

/-- What is read behind a first part is read from what follows it. -/
theorem leAt_append_of_le {a : Bytes} (b : Bytes) {i : Nat} (n : Nat) (h : a.length ≤ i) :
    leAt (a ++ b) i n = leAt b (i - a.length) n := by
  have hright := leAt_append_right a b n (i - a.length)
  rwa [Nat.add_sub_cancel' h] at hright

@[simp] theorem leAt_le_append_of_le (k v : Nat) (b : Bytes) (i n : Nat) (h : k ≤ i) :
    leAt (le k v ++ b) i n = leAt b (i - k) n := by
  have := leAt_append_of_le (a := le k v) b n (by simpa using h)
  simpa using this

@[simp] theorem leAt_leB_append_of_le (k : Nat) {w : Nat} (v : BitVec w) (b : Bytes) (i n : Nat) (h : k ≤ i) :
    leAt (leB k v ++ b) i n = leAt b (i - k) n :=
  leAt_le_append_of_le k v.toNat b i n h

theorem byteAt_eq_leAt (b : Bytes) (i : Nat) : byteAt b i = leAt b i 1 := by simp [leAt]

/-- A number that its field can hold reads back as itself. -/
theorem leAt_le_of_lt {n v : Nat} (b : Bytes) (h : v < 256 ^ n) : leAt (le n v ++ b) 0 n = v := by
  rw [leAt_le, Nat.mod_eq_of_lt h]

theorem leAt_leB {n w : Nat} (v : BitVec w) (b : Bytes) (h : w = 8 * n) : leAt (leB n v ++ b) 0 n = v.toNat := by
  subst h
  exact leAt_le_of_lt b (Nat.lt_of_lt_of_eq v.isLt (Nat.pow_mul 2 8 n))

/-- Bytes within a string are cut out of it. -/
theorem slice_append (a b c : Bytes) : slice (a ++ (b ++ c)) a.length b.length = b := by
  simp [slice, zeros]

/-- Bytes at the end of a string are cut out of it. -/
theorem slice_end {a b : Bytes} {i n : Nat} (hi : a.length = i) (hn : b.length = n) : slice (a ++ b) i n = b := by
  subst hi hn
  simpa using slice_append a b []

theorem slice_zero_append (a b : Bytes) : slice (a ++ b) 0 a.length = a := slice_append [] a b

/-! ### The frame -/

/-- A command frame up to its payload (R43). -/
def frameHead (op version : Nat) (m : Msg) : Bytes :=
  le 2 op ++ (le 1 version ++ (leB 1 m.flags ++ (leB 4 m.seq ++ (leB 4 m.handle ++ le 4 m.payload.length))))

theorem frameHead_length (op version : Nat) (m : Msg) : (frameHead op version m).length = 16 := by simp [frameHead]

/-- What the check value of a frame covers (R44). -/
def frameBody (op version : Nat) (m : Msg) : Bytes := frameHead op version m ++ m.payload

theorem frameBody_length (op version : Nat) (m : Msg) : (frameBody op version m).length = 16 + m.payload.length := by
  simp [frameBody, frameHead_length]

theorem frameBytes_eq (op version : Nat) (m : Msg) :
    frameBytes op version m = frameBody op version m ++ leB 4 (crc32c (frameBody op version m)) := by
  simp [frameBytes, frameBody, frameHead]

theorem frameHead_fields (op version : Nat) (m : Msg) (tail : Bytes) (hop : op < 2 ^ 16) (hv : version < 2 ^ 8)
    (hn : m.payload.length < 2 ^ 32) :
    u16 (frameHead op version m ++ tail) 0 = op ∧ byteAt (frameHead op version m ++ tail) 2 = version ∧
      byteAt (frameHead op version m ++ tail) 3 = m.flags.toNat ∧
      u32 (frameHead op version m ++ tail) 4 = m.seq.toNat ∧ u32 (frameHead op version m ++ tail) 8 = m.handle.toNat ∧
      u32 (frameHead op version m ++ tail) 12 = m.payload.length := by
  simp only [frameHead, u16, u32, byteAt_eq_leAt, List.append_assoc]
  refine ⟨leAt_le_of_lt _ hop, ?_, ?_, ?_, ?_, ?_⟩
  · simpa using leAt_le_of_lt _ hv
  · simpa using leAt_leB m.flags _ rfl
  · simpa using leAt_leB m.seq _ rfl
  · simpa using leAt_leB m.handle _ rfl
  · simpa using leAt_le_of_lt _ hn

theorem w32_eq_of_u32 {b : Bytes} {i : Nat} {v : BitVec 32} (h : u32 b i = v.toNat) : w32 b i = v := by
  rw [w32, h, BitVec.ofNat_toNat, BitVec.setWidth_eq]

/-- A check value behind what it covers. -/
theorem w32_append_leB (a : Bytes) (v : BitVec 32) (tail : Bytes) : w32 (a ++ (leB 4 v ++ tail)) a.length = v := by
  refine w32_eq_of_u32 ?_
  rw [u32, leAt_append_of_le _ _ (Nat.le_refl _), Nat.sub_self, leAt_leB v _ rfl]

/-- Settles O46: each field is read where the frame lays it out, the payload and the check value behind the head. -/
theorem frameRoundTrip : Obligations.FrameRoundTrip := by
  intro op version m rest hop hv hn
  obtain ⟨h0, h2, h3, h4, h8, h12⟩ := frameHead_fields op version m
    (m.payload ++ (leB 4 (crc32c (frameBody op version m)) ++ rest)) hop hv (by omega)
  have hbytes : frameBytes op version m ++ rest =
      frameHead op version m ++ (m.payload ++ (leB 4 (crc32c (frameBody op version m)) ++ rest)) := by
    simp only [frameBytes_eq, frameBody, List.append_assoc]
  have hpay : slice (frameBytes op version m ++ rest) 16 m.payload.length = m.payload := by
    rw [hbytes, ← frameHead_length op version m]
    exact slice_append _ _ _
  have hcrc : w32 (frameBytes op version m ++ rest) (16 + m.payload.length) =
      crc32c (slice (frameBytes op version m ++ rest) 0 (16 + m.payload.length)) := by
    rw [frameBytes_eq, List.append_assoc, ← frameBody_length op version, slice_zero_append, w32_append_leB]
  rw [← hbytes] at h0 h2 h3 h4 h8 h12
  simp only [readFrame, h0, h2, h3, h12, w32_eq_of_u32 h4, w32_eq_of_u32 h8, Nat.min_eq_left hn, hpay, hcrc]
  simp [hn]

/-! ### Responses and records -/

/-- A response frame up to its payload (R45). -/
def responseHead (r : Response) : Bytes :=
  le 2 r.opcode ++ (le 1 1 ++ (le 1 r.ring ++ (leB 4 r.seq ++ (leB 4 r.handle ++ (le 2 r.status ++ le 2 r.payload.length)))))

theorem responseHead_length (r : Response) : (responseHead r).length = 16 := by simp [responseHead]

theorem responseBody_eq (r : Response) : r.body = responseHead r ++ r.payload := by
  simp [Response.body, responseHead, le]

theorem responseBody_length (r : Response) : r.body.length = 16 + r.payload.length := by
  simp [responseBody_eq, responseHead_length]

theorem responseHead_fields (r : Response) (tail : Bytes) (hop : r.opcode < 2 ^ 16) (hring : r.ring < 4)
    (hst : r.status < 2 ^ 16) (hn : r.payload.length ≤ 4072) :
    u16 (responseHead r ++ tail) 0 = r.opcode ∧ byteAt (responseHead r ++ tail) 2 = 1 ∧
      byteAt (responseHead r ++ tail) 3 = r.ring ∧ w32 (responseHead r ++ tail) 4 = r.seq ∧
      w32 (responseHead r ++ tail) 8 = r.handle ∧ u16 (responseHead r ++ tail) 12 = r.status ∧
      u16 (responseHead r ++ tail) 14 = r.payload.length := by
  simp only [responseHead, u16, byteAt_eq_leAt, List.append_assoc]
  refine ⟨leAt_le_of_lt _ hop, ?_, ?_, w32_eq_of_u32 ?_, w32_eq_of_u32 ?_, ?_, ?_⟩
  · simpa using leAt_le_of_lt (n := 1) (v := 1) _ (by decide)
  · simpa using leAt_le_of_lt (n := 1) _ (by omega)
  · simpa [u32] using leAt_leB r.seq _ rfl
  · simpa [u32] using leAt_leB r.handle _ rfl
  · simpa using leAt_le_of_lt (n := 2) _ hst
  · simpa using leAt_le_of_lt (n := 2) _ (by omega)

theorem response_layout (r : Response) (hop : r.opcode < 2 ^ 16) (hring : r.ring < 4) (hst : r.status < 2 ^ 16)
    (hn : r.payload.length ≤ 4072) :
    u16 r.frame 0 = r.opcode ∧ byteAt r.frame 2 = 1 ∧ byteAt r.frame 3 = r.ring ∧ w32 r.frame 4 = r.seq ∧
      w32 r.frame 8 = r.handle ∧ u16 r.frame 12 = r.status ∧ u16 r.frame 14 = r.payload.length ∧
      slice r.frame 16 r.payload.length = r.payload ∧ w32 r.frame (16 + r.payload.length) = crc32c r.body ∧
      r.body = r.frame.take (16 + r.payload.length) ∧ r.frame.length = 20 + r.payload.length := by
  have hframe : r.frame = responseHead r ++ (r.payload ++ leB 4 (crc32c r.body)) := by
    rw [Response.frame, responseBody_eq, List.append_assoc]
  obtain ⟨h0, h2, h3, h4, h8, h12, h14⟩ :=
    responseHead_fields r (r.payload ++ leB 4 (crc32c r.body)) hop hring hst hn
  rw [← hframe] at h0 h2 h3 h4 h8 h12 h14
  refine ⟨h0, h2, h3, h4, h8, h12, h14, ?_, ?_, ?_, ?_⟩
  · rw [hframe, ← responseHead_length r]
    exact slice_append _ _ _
  · simpa [Response.frame, responseBody_length] using w32_append_leB r.body (crc32c r.body) []
  · rw [Response.frame, ← responseBody_length, List.take_left]
  · simp only [Response.frame, List.length_append, responseBody_length, leB_length]
    omega

theorem talusRecord_layout (t : TalusRec) :
    t.bytes.length = 32 ∧ u16 t.bytes 0 = t.event.code % 65536 ∧ u16 t.bytes 2 = t.sequence % 65536 ∧
      w32 t.bytes 4 = t.event.source ∧ u32 t.bytes 8 = t.event.time % 1000000000 ∧
      u48 t.bytes 12 = t.event.time / 1000000000 % 2 ^ 48 ∧ u48 t.bytes 18 = t.event.web.getD 0xFFFFFFFFFFFF % 2 ^ 48 ∧
      slice t.bytes 24 8 = fit 8 t.event.args := by
  have hargs : slice t.bytes 24 8 = fit 8 t.event.args := slice_end (by simp) (by simp)
  refine ⟨by simp [TalusRec.bytes], ?_, ?_, w32_eq_of_u32 ?_, ?_, ?_, ?_, hargs⟩ <;>
    simp only [TalusRec.bytes, u16, u32, u48, List.append_assoc]
  · exact leAt_le 2 _ _
  · simpa using leAt_le 2 _ _
  · simpa using leAt_leB t.event.source _ rfl
  · simpa using leAt_le_of_lt (n := 4) _ (by omega)
  · simpa using leAt_le 6 _ _
  · simpa using leAt_le 6 _ _

/-- Settles O47: the fields of a response and of a record, read where they are written. -/
theorem responseLayout : Obligations.ResponseLayout := ⟨response_layout, talusRecord_layout⟩

/-! ### The check value -/

/-- Settles O45: the eight bits of each of the nine bytes are run through. -/
theorem crcCheckValue : Obligations.CrcCheckValue := by
  refine ⟨?_, rfl⟩
  simp [crc32c, crc32cByte, crc32cBit]

end Sys2Proof.MailboxProofs
end

section
/-! SUPPORT. Messages in their order and the Talus queue (O3, O51, O52). -/

namespace Sys2Proof.MailboxProofs

open Sys2Proof Sys2Proof.Machine Sys2Proof.Laws Sys2Proof.CompletionProofs

/-! ### sync -/

/-- Settles O3: both bodies answer whatever the message. -/
theorem syncComplete : Obligations.SyncComplete := fun _ _ =>
  ⟨fun ha => completes_of_body rfl ha rfl, fun ha => completes_of_body rfl ha rfl⟩

/-! ### Ordering -/

theorem holds_not_urgent {a b : Nat} {x y : Msg} (hx : isUrgent x = false) (hy : isUrgent y = false) :
    holds a x b y = true ↔ isFence y = true ∨ isFence x = true ∨ fenceCovers b y x.ring.val = true ∨
      fenceCovers a x y.ring.val = true ∨
      (x.ring = y.ring ∧ x.handle = y.handle ∧ isBlock a = false ∧ isBlock b = false) := by
  simp [holds, hx, hy, or_assoc, and_assoc]

theorem fenceCovers_iff {op : Nat} {m : Msg} {ring : Fin 4} : fenceCovers op m ring.val = true ↔
    op = 0x0F01 ∧ (m.ring = ring ∨ bit (byteAt m.payload 0) ring.val = true) := by
  simp [fenceCovers, Fin.val_inj]

/-- A message that an earlier fetched one holds is held (R53). -/
theorem heldBy_ne_nil {s : State} {a e : InFlight} (ha : a ∈ s.mbx.inFlight) (hinst : a.msg.inst = e.msg.inst)
    (hearlier : a.arrival < e.arrival) (hholds : holds a.opcode a.msg e.opcode e.msg = true) : heldBy s e ≠ [] := by
  have hmem : a ∈ s.mbx.inFlight.filter fun a =>
      a.msg.inst == e.msg.inst && a.arrival < e.arrival && holds a.opcode a.msg e.opcode e.msg := by
    simp [ha, hinst, hearlier, hholds]
  unfold heldBy
  intro hnil
  rw [List.append_eq_nil_iff, List.map_eq_nil_iff] at hnil
  rw [hnil.1] at hmem
  exact List.not_mem_nil hmem

theorem exec_fenceRelease (s : State) : exec .fenceRelease s = execFenceRelease s := rfl

theorem fenceRelease_all_held {s : State} (h : ∀ e ∈ s.mbx.inFlight, e.phase = .waiting → heldBy s e ≠ []) :
    exec .fenceRelease s = .next s := by
  have hnone : (s.mbx.inFlight.find? fun e => e.phase == .waiting && (heldBy s e).isEmpty) = none := by
    rw [List.find?_eq_none]
    intro e he hc
    rw [Bool.and_eq_true, beq_iff_eq, List.isEmpty_iff] at hc
    exact h e he hc.1 hc.2
  simp only [exec_fenceRelease, execFenceRelease, hnone]

/-- Settles O52: each cause is one under which the earlier message holds the later one. -/
theorem fencesHold : Obligations.FencesHold := by
  refine ⟨?_, fun s => fenceRelease_all_held⟩
  intro s a e ha hinst hearlier hua hue hcause
  refine heldBy_ne_nil ha hinst hearlier ((holds_not_urgent hua hue).mpr ?_)
  simpa only [fenceCovers_iff] using hcause

/-! ### The Talus queue -/

theorem flushTalus_full {fuel : Nat} {s : State} (h : talusFree s = false) : flushTalus fuel s = s := by
  cases fuel <;> simp [flushTalus, h]

theorem pcieRecord_full {r : EventRec} {s : State} (h : talusFree s = false) :
    pcieRecord r s = if s.mbx.held.length < 1024 then { s with mbx := { s.mbx with held := s.mbx.held ++ [r] } }
      else { s with mbx := { s.mbx with dropped := s.mbx.dropped + 1 } } := by
  simp [pcieRecord, flushTalus_full h, h]

/-- The records that wait for the queue, and the number dropped, replaced. -/
def setWaiting (held : List EventRec) (dropped : Nat) (s : State) : State :=
  { s with mbx := { s.mbx with held := held, dropped := dropped } }

/-- The oldest of what waits, written. -/
def writeWaiting (r : EventRec) (held : List EventRec) (s : State) : State := writeTalus r (setWaiting held 0 s)

section Waiting

variable (r : EventRec) (held : List EventRec) (s : State)

@[simp] theorem writeWaiting_talus :
    (writeWaiting r held s).mbx.talus = s.mbx.talus ++ [⟨s.mbx.sequence, r⟩] := by
  simp [writeWaiting, setWaiting, writeTalus, writeStatusBlock]

@[simp] theorem writeWaiting_sequence : (writeWaiting r held s).mbx.sequence = (s.mbx.sequence + 1) % 65536 := by
  simp [writeWaiting, setWaiting, writeTalus, writeStatusBlock]

@[simp] theorem writeWaiting_waits :
    (writeWaiting r held s).mbx.held = held ∧ (writeWaiting r held s).mbx.dropped = 0 ∧
      (writeWaiting r held s).mbx.running = s.mbx.running := by
  simp [writeWaiting, setWaiting, writeTalus, writeStatusBlock]

@[simp] theorem writeWaiting_frame : (writeWaiting r held s).objs = s.objs ∧ (writeWaiting r held s).mem = s.mem := by
  simp [writeWaiting, setWaiting, writeTalus]

end Waiting

theorem flushTalus_succ_lost {fuel : Nat} {s : State} (hfree : talusFree s = true) (hlost : s.mbx.dropped ≠ 0) :
    flushTalus (fuel + 1) s = flushTalus fuel (writeWaiting (lostRecord s.mbx.dropped s) s.mbx.held s) := by
  simp [flushTalus, hfree, hlost, writeWaiting, setWaiting]

theorem flushTalus_succ_held {fuel : Nat} {s : State} {r : EventRec} {rest : List EventRec} (hfree : talusFree s = true)
    (hdropped : s.mbx.dropped = 0) (hheld : s.mbx.held = r :: rest) :
    flushTalus (fuel + 1) s = flushTalus fuel (writeWaiting r rest s) := by
  simp [flushTalus, hfree, hdropped, hheld, writeWaiting, setWaiting]

theorem flushTalus_empty {fuel : Nat} {s : State} (hdropped : s.mbx.dropped = 0) (hheld : s.mbx.held = []) :
    flushTalus fuel s = s := by
  cases fuel <;> simp [flushTalus, hdropped, hheld]

theorem talusFree_of_lt {s : State} (hrun : s.mbx.running = true) (hlen : s.mbx.talus.length < 32768) :
    talusFree s = true := by
  simp [talusFree, hrun, hlen]

/-- Records numbered with rising values of sequence, modulo 65,536 (R58). -/
def numbered (n : Nat) (recs : List EventRec) : List TalusRec := recs.zipIdx.map fun e => ⟨(n + e.2) % 65536, e.1⟩

theorem numbered_cons {n : Nat} (hn : n < 65536) (r : EventRec) (recs : List EventRec) :
    numbered n (r :: recs) = ⟨n, r⟩ :: numbered ((n + 1) % 65536) recs := by
  have hnext (e : EventRec × Nat) : (n + (e.2 + 1)) % 65536 = ((n + 1) % 65536 + e.2) % 65536 := by omega
  rw [numbered, List.zipIdx_cons, List.map_cons, Nat.add_zero, Nat.mod_eq_of_lt hn, List.zipIdx_succ, List.map_map]
  exact congrArg _ (List.map_congr_left fun e _ => congrArg (TalusRec.mk · e.1) (hnext e))

/-- The queue of `t` is that of `s` with records written behind it, nothing is held or counted, objects and memory are as
they were. -/
def Flushed (s t : State) (recs : List EventRec) : Prop :=
  t.mbx.talus = s.mbx.talus ++ numbered s.mbx.sequence recs ∧ t.mbx.held = [] ∧ t.mbx.dropped = 0 ∧
    t.mbx.sequence = (s.mbx.sequence + recs.length) % 65536 ∧ t.objs = s.objs ∧ t.mem = s.mem

theorem flushed_cons {s t : State} {r : EventRec} {held recs : List EventRec} (hseq : s.mbx.sequence < 65536)
    (h : Flushed (writeWaiting r held s) t recs) : Flushed s t (r :: recs) := by
  obtain ⟨ht, hheld, hdropped, hs, ho, hm⟩ := h
  refine ⟨?_, hheld, hdropped, ?_, by simpa using ho, by simpa using hm⟩
  · rw [ht, writeWaiting_talus, writeWaiting_sequence, numbered_cons hseq, List.append_assoc, List.singleton_append]
  · rw [hs, writeWaiting_sequence, List.length_cons]
    omega

theorem flushTalus_held (fuel : Nat) (s : State) (hrun : s.mbx.running = true) (hdropped : s.mbx.dropped = 0)
    (hfuel : s.mbx.held.length < fuel) (hroom : s.mbx.talus.length + s.mbx.held.length ≤ 32768)
    (hseq : s.mbx.sequence < 65536) : Flushed s (flushTalus fuel s) s.mbx.held := by
  induction fuel generalizing s with
  | zero => omega
  | succ fuel ih =>
    cases hheld : s.mbx.held with
    | nil =>
      rw [flushTalus_empty hdropped hheld]
      exact ⟨by simp [numbered], hheld, hdropped, (Nat.mod_eq_of_lt hseq).symm, rfl, rfl⟩
    | cons r rest =>
      rw [hheld, List.length_cons] at hfuel hroom
      rw [flushTalus_succ_held (talusFree_of_lt hrun (by omega)) hdropped hheld]
      refine flushed_cons (held := rest) hseq ?_
      have hrest := ih (writeWaiting r rest s) (by simpa using hrun) (by simp) (by simpa using Nat.lt_of_succ_lt_succ hfuel)
        (by simp; omega) (by simpa using Nat.mod_lt _ (by decide))
      simpa using hrest

theorem flushTalus_lost (s : State) (hrun : s.mbx.running = true) (hlost : s.mbx.dropped ≠ 0)
    (hheld : s.mbx.held.length ≤ 1024) (hroom : s.mbx.talus.length + s.mbx.held.length + 1 ≤ 32768)
    (hseq : s.mbx.sequence < 65536) :
    Flushed s (flushTalus 1026 s) (lostRecord s.mbx.dropped s :: s.mbx.held) := by
  rw [flushTalus_succ_lost (talusFree_of_lt hrun (by omega)) hlost]
  refine flushed_cons (held := s.mbx.held) hseq ?_
  have hrest := flushTalus_held 1025 (writeWaiting (lostRecord s.mbx.dropped s) s.mbx.held s) (by simpa using hrun)
    (by simp) (by simpa using Nat.lt_succ_of_le hheld) (by simp; omega) (by simpa using Nat.mod_lt _ (by decide))
  simpa using hrest

/-- Settles O51: by induction on the room of the flush, one record of what waits at a time. -/
theorem talusHolds : Obligations.TalusHolds := by
  refine ⟨fun r s => pcieRecord_full, ?_⟩
  intro s hrun hheld hseq hroom
  by_cases hlost : s.mbx.dropped = 0
  · rw [if_pos hlost, List.nil_append]
    exact flushTalus_held 1026 s hrun hlost (by omega) (by omega) hseq
  · rw [if_neg hlost, List.singleton_append]
    exact flushTalus_lost s hrun hlost hheld hroom hseq

end Sys2Proof.MailboxProofs
end

section
/-! SUPPORT. What the register window, the Ethernet ports and the datagrams of a session do, said once for
each command (O30, O42, O44). -/

namespace Sys2Proof.MailboxProofs

open Sys2Proof Sys2Proof.Machine Sys2Proof.Laws Sys2Proof.CompletionProofs

/-! ### The register window -/

theorem windowWrite_up {f : State → State} {s : State} (hs : s.power.hostReset = false) : windowWrite f s = .next (f s) := by
  simp [windowWrite, hs]

theorem windowWrite_reset {f : State → State} {s : State} (hs : s.power.hostReset = true) : windowWrite f s = .next s := by
  simp [windowWrite, hs]

theorem exec_registerWrite (o : BitVec 16) (size : Nat) (x : BitVec 64) (s : State) :
    exec (.registerWrite o size x) s = execRegisterWrite o size x s := rfl

theorem registerWrite_up {o : BitVec 16} {size : Nat} {x : BitVec 64} {s : State} (hs : s.power.hostReset = false) :
    exec (.registerWrite o size x) s = .next (
      if size = 4 ∧ o.toNat % 4 = 0 then writeWord o.toNat (x.setWidth 32) s
      else if size = 8 ∧ o.toNat % 4 = 0 then
        writeWord (o.toNat + 4) ((x >>> 32).setWidth 32) (writeWord o.toNat (x.setWidth 32) s)
      else discardWrite false o.toNat s) := by
  simp only [exec_registerWrite, execRegisterWrite, windowWrite_up hs]

theorem registerWrite_reset {o : BitVec 16} {size : Nat} {x : BitVec 64} {s : State} (hs : s.power.hostReset = true) :
    exec (.registerWrite o size x) s = .next s := by
  simp only [exec_registerWrite, execRegisterWrite, windowWrite_reset hs]

theorem holdoffExpiry_taken {k : Fin 2} {s : State} (hruns : s.win.holdUntil.getD k 0 ≠ 0)
    (hended : s.win.holdUntil.getD k 0 ≤ s.time.clock) :
    let s1 := { s with win := { s.win with holdUntil := setAt s.win.holdUntil k 0 } }
    exec (.holdoffExpiry k) s =
      .next (if s.win.intStatus.getLsbD k ∧ vectorOpen s1 k then sendVector k s1 else s1) := by
  have hno : ¬(s.win.holdUntil.getD k 0 = 0 ∨ s.time.clock < s.win.holdUntil.getD k 0) :=
    not_or.mpr ⟨hruns, Nat.not_lt.mpr hended⟩
  exact congrArg Host.Outcome.next (if_neg hno)

/-- Settles O42: each write reaches its register, or none while the host die is in reset. -/
theorem windowComplete : Obligations.WindowComplete := by
  refine ⟨?_, ?_, fun k s => holdoffExpiry_taken, fun s => rfl⟩
  · intro v w n t reg o size x s hs
    exact ⟨windowWrite_up hs, windowWrite_up hs, windowWrite_up hs, windowWrite_up hs, windowWrite_up hs, windowWrite_up hs,
      windowWrite_up hs, windowWrite_up hs, windowWrite_up hs, windowWrite_up hs, windowWrite_up hs, registerWrite_up hs⟩
  · intro v w n t reg o size x s hs
    simp only [List.forall_mem_cons, List.not_mem_nil, false_implies, implies_true, and_true]
    exact ⟨windowWrite_reset hs, windowWrite_reset hs, windowWrite_reset hs, windowWrite_reset hs, windowWrite_reset hs,
      windowWrite_reset hs, windowWrite_reset hs, windowWrite_reset hs, windowWrite_reset hs, windowWrite_reset hs,
      windowWrite_reset hs, registerWrite_reset hs⟩

/-! ### The Ethernet ports and the handshake -/

theorem sysEthConfig_completes (m : Msg) (s : State) (ha : admitted opSysEthConfig m s = true) :
    Completes (.sysEthConfig m) opSysEthConfig m s
      { state := setEth s (byteAt m.payload 0) fun e => { e with pending := some (m.payload, s.time.clock) } } :=
  completes_of_body rfl ha rfl

theorem sysEthQuery_completes (m : Msg) (s : State) (ha : admitted opSysEthQuery m s = true) :
    ∃ b : Bytes, b.length = 48 ∧ Completes (.sysEthQuery m) opSysEthQuery m s { state := s, payload := b } :=
  ⟨_, by simp, completes_of_body rfl ha rfl⟩

theorem exec_ethFrameReceive (p : Fin 2) (f : EthFrame) (s : State) :
    exec (.ethFrameReceive p f) s = execEthFrameReceive p f s := rfl

theorem exec_ethLink (p : Fin 2) (up : Bool) (g : Option Bool) (s : State) :
    exec (.ethLink p up g) s = execEthLink p up g s := rfl

section Ports

variable {p : Fin 2} {f : EthFrame} {s : State}

theorem ethFrameReceive_fcs (hup : (ethAt s p).up = true) (hfcs : f.fcsOk = false) :
    exec (.ethFrameReceive p f) s = .next (setEth s p fun e => { e with fcsErr := e.fcsErr + 1 }) := by
  simp [exec_ethFrameReceive, execEthFrameReceive, hup, hfcs]

theorem ethFrameReceive_discarded (hup : (ethAt s p).up = true) (hfcs : f.fcsOk = true) (hacc : frameAccepted s p f = false) :
    exec (.ethFrameReceive p f) s = .next (setEth s p fun e => { e with discarded := e.discarded + 1 }) := by
  simp [exec_ethFrameReceive, execEthFrameReceive, hup, hfcs, hacc]

theorem ethFrameReceive_accepted (hup : (ethAt s p).up = true) (hfcs : f.fcsOk = true) (hacc : frameAccepted s p f = true) :
    let s1 := setEth s p (tookFrame f.kind (routerSeen (ethAt s p) f.kind))
    (f.frag = none → exec (.ethFrameReceive p f) s = .next s1) ∧
    (∀ g : Fragment, f.frag = some g → exec (.ethFrameReceive p f) s = .next (takeFragment p g s1)) := by
  constructor
  · intro hg
    simp [exec_ethFrameReceive, execEthFrameReceive, hup, hfcs, hacc, hg]
  · intro g hg
    simp [exec_ethFrameReceive, execEthFrameReceive, hup, hfcs, hacc, hg]

theorem ethLink_duplicate {up g : Bool} (hup : (ethAt s p).up = true) (hv6 : (ethAt s p).flags.getLsbD 4 = true)
    (hnew : (if g then (ethAt s p).dupGlobal else (ethAt s p).dupLocal) = false) :
    exec (.ethLink p up (some g)) s = .next (ethLinkEvent p 2 (setEth s p (dropAddress g))) := by
  simp only [exec_ethLink, execEthLink]
  rw [if_neg (by simp [hup, hv6, hnew])]

theorem ethLink_up (hdown : (ethAt s p).up = false) (hmode : (ethAt s p).mode ≠ 0) :
    exec (.ethLink p true none) s = .next (ethLinkEvent p 1 (setEth s p portUp)) := by
  simp [exec_ethLink, execEthLink, hdown, hmode]

end Ports

theorem hello_replied {p : Fin 2} {v6 : Bool} {body : Bytes} {s : State} (hen : s.mbx.ethEnable = true)
    (hready : s.mbx.ready = true) (hport : portReached (ethAt s p) v6 = true) (hrate : (recentHellos s).length < 10)
    (hlen : body.length = 132) (hpoint : byteAt body 0 = 4) (hkey : (hostKey s (byteAt body 129)).isSome = true)
    (hres : u16 body 130 = 0) (hroom : s.eth.sessions.length < 4) :
    ∃ (t u : State) (reply : Bytes), exec (.hello p v6 body) s = .next t ∧
      t = sendUdp p v6 (transportHeader 0 0x02 0 0 ++ reply) u ∧
      u.eth.handshakes = s.eth.handshakes ++
        [⟨BitVec.ofNat 32 s.eth.nextSession, p.val, v6, byteAt body 129, body, reply, s.time.clock⟩] ∧
      u.eth.sessions = s.eth.sessions ∧ u.eth.out = s.eth.out ∧ u.ports = s.ports ∧ t.objs = s.objs ∧ t.mem = s.mem := by
  have hheard : ¬((!s.mbx.ethEnable) = true ∨ (!s.mbx.ready) = true ∨ (!portReached (ethAt s p) v6) = true ∨
      10 ≤ (recentHellos s).length) := by
    simp [hen, hready, hport, hrate]
  have hvalid : ¬(body.length ≠ 132 ∨ byteAt body 0 ≠ 4 ∨ (hostKey s (byteAt body 129)).isNone = true ∨
      u16 body 130 ≠ 0 ∨ 4 ≤ s.eth.sessions.length) := by
    simp [hlen, hpoint, hkey, hres, hroom, ← Option.isSome_iff_ne_none]
  exact ⟨_, _, _, congrArg Host.Outcome.next ((if_neg hheard).trans (if_neg hvalid)), rfl, rfl, rfl, rfl, rfl, rfl, rfl⟩

theorem confirm_opens {id : BitVec 32} {body : Bytes} {s : State} {h : Handshake} {k : HostKey}
    (hh : s.eth.handshakes.find? (fun h => h.session == id) = some h) (hlen : body.length = 96)
    (hen : s.mbx.ethEnable = true) (hage : s.time.clock ≤ h.since + 1000000000) (hroom : s.eth.sessions.length < 4)
    (hkey : hostKey s h.keyIdx = some k)
    (hsig : Config.ecdsaVerify k.key (Config.sha384 (h.hello ++ h.reply)) body = true) :
    ∃ t : State, exec (.confirm id body) s = .next t ∧ (t.eth.sessions.map fun q => q.session) =
      (s.eth.sessions.map fun q => q.session) ++ [id] := by
  refine ⟨_, rfl, ?_⟩
  simp [hh, hlen, hen, hage, hroom, hkey, hsig]

/-- Settles O30: each clause is the lemma of its message, frame or handshake step. -/
theorem ethernetComplete : Obligations.EthernetComplete := by
  refine ⟨sysEthConfig_completes, sysEthQuery_completes, ?_, ?_, fun s => rfl, ?_, ?_, fun id s => rfl⟩
  · intro p f s hup
    exact ⟨ethFrameReceive_fcs hup, ethFrameReceive_discarded hup, ethFrameReceive_accepted hup⟩
  · exact fun p s => ⟨fun up g => ethLink_duplicate, rfl, ethLink_up⟩
  · exact fun p v6 body s => hello_replied
  · exact fun id body s h k => confirm_opens

/-! ### Datagrams of a session -/

theorem exec_message (id : BitVec 32) (ring : Fin 4) (c : Nat) (b : Option Bytes) (s : State) :
    exec (.message id ring c b) s = execMessage id ring c b s := rfl

theorem exec_eventAck (id : BitVec 32) (c : Nat) (b : Option Bytes) (s : State) :
    exec (.eventAck id c b) s = execEventAck id c b s := rfl

theorem exec_eventResend (id : BitVec 32) (s : State) : exec (.eventResend id) s = execEventResend id s := rfl

theorem exec_close (id : BitVec 32) (c : Nat) (b : Option Bytes) (s : State) :
    exec (.close id c b) s = execClose id c b s := rfl

theorem exec_sessionIdleTimeout (id : BitVec 32) (s : State) :
    exec (.sessionIdleTimeout id) s = execSessionIdleTimeout id s := rfl

section Datagrams

variable {id : BitVec 32} {c : Nat} {s s1 : State} {q : Session} {b : Bytes}

theorem takeDatagram_bad (hq : sessionAt s id.toNat = some q) :
    takeDatagram id c none s = (setSession id.toNat (fun q => { q with errors := q.errors + 1 }) s, none) := by
  simp only [takeDatagram, hq]

theorem message_bad (ring : Fin 4) (hq : sessionAt s id.toNat = some q) :
    exec (.message id ring c none) s = .next (setSession id.toNat (fun q => { q with errors := q.errors + 1 }) s) := by
  simp only [exec_message, execMessage, takeDatagram_bad hq]

theorem message_in_turn {ring : Fin 4} (ht : takeDatagram id c (some b) s = (s1, some b)) (hq : sessionAt s1 id.toNat = some q)
    (hn : (readFrame id.toNat ring b).msg.seq.toNat = q.nextSeq.getD ring 1) :
    exec (.message id ring c (some b)) s =
      .next (noteStatus s (takeGap id.toNat ring 64 (takeSessionFrame id.toNat (readFrame id.toNat ring b) s1))) := by
  simp only [exec_message, execMessage, ht, hq, hn, if_true, done]

theorem message_repeated {ring : Fin 4} {e : Nat × Nat × Response} (ht : takeDatagram id c (some b) s = (s1, some b))
    (hq : sessionAt s1 id.toNat = some q) (hn : (readFrame id.toNat ring b).msg.seq.toNat < q.nextSeq.getD ring 1)
    (he : (q.stored.find? fun e => e.1 == ring.val && e.2.1 == (readFrame id.toNat ring b).msg.seq.toNat) = some e)
    (hkept : q.nextSeq.getD ring 1 ≤ (readFrame id.toNat ring b).msg.seq.toNat + 1024) :
    exec (.message id ring c (some b)) s = .next (sendDatagram id.toNat 0x10 e.2.2.frame s1) := by
  simp only [exec_message, execMessage, ht, hq, hn, Nat.ne_of_lt hn, he, hkept, if_true, if_false]

theorem message_early {ring : Fin 4} (ht : takeDatagram id c (some b) s = (s1, some b))
    (hq : sessionAt s1 id.toNat = some q) (hn : q.nextSeq.getD ring 1 < (readFrame id.toNat ring b).msg.seq.toNat)
    (hroom : (q.gap.filter fun e => e.1 == ring.val).length < 64)
    (hnew : (q.gap.any fun e => e.1 == ring.val && e.2.1 == (readFrame id.toNat ring b).msg.seq.toNat) = false) :
    exec (.message id ring c (some b)) s = .next (setSession id.toNat (fun q => { q with
      gap := q.gap ++ [(ring.val, (readFrame id.toNat ring b).msg.seq.toNat, b, s.time.clock)] }) s1) := by
  simp only [exec_message, execMessage, ht, hq, Nat.ne_of_gt hn, Nat.lt_asymm hn, hroom, hnew, if_false]
  rfl

theorem eventAck_taken (ht : takeDatagram id c (some b) s = (s1, some b)) (hq : sessionAt s1 id.toNat = some q)
    (hb : b.length = 4) :
    let n := (u32 b 0 + 2 ^ 32 - q.talusCi) % 2 ^ 32
    n ≤ q.unacked.length → exec (.eventAck id c (some b)) s = .next (flushSession id.toNat 1026
      (setSession id.toNat (fun q => { q with unacked := q.unacked.drop n, talusCi := u32 b 0 }) s1)) := by
  intro n hn
  have hno : ¬(b.length ≠ 4 ∨ q.unacked.length < n) := not_or.mpr ⟨fun h => h hb, Nat.not_lt.mpr hn⟩
  simp only [exec_eventAck, execEventAck, ht, hq]
  rw [if_neg hno]

theorem close_taken (ht : takeDatagram id c (some b) s = (s1, some b)) (hb : b.length = 4) :
    exec (.close id c (some b)) s = .next (closeSession id.toNat 2 s1) := by
  simp only [exec_close, execClose, ht, hb, if_true]

theorem sessionIdleTimeout_taken (hq : sessionAt s id.toNat = some q) (hsilent : q.lastRx + 10000000000 ≤ s.time.clock) :
    exec (.sessionIdleTimeout id) s = .next (closeSession id.toNat 3 s) := by
  simp only [exec_sessionIdleTimeout, execSessionIdleTimeout, hq, hsilent, if_true]

theorem eventResend_taken (hq : sessionAt s id.toNat = some q) :
    let old := fun (e : TalusRec × Nat) => decide (e.2 + 50000000 ≤ s.time.clock)
    let s1 := q.unacked.zipIdx.foldl (fun s e => if old e.1 then
      sendDatagram id.toNat 0x11 (le 4 ((q.talusCi + e.2) % 2 ^ 32) ++ e.1.1.bytes) s else s) s
    exec (.eventResend id) s = .next (setSession id.toNat (fun q => { q with
      unacked := q.unacked.map fun e => if old e then (e.1, s.time.clock) else e }) s1) := by
  simp only [exec_eventResend, execEventResend, hq]

end Datagrams

/-- Settles O44: each clause is the lemma of its datagram or timeout. -/
theorem sessionComplete : Obligations.SessionComplete := by
  refine ⟨fun id c s q hq ring => message_bad ring hq, ?_, fun id ring s => rfl, ?_, ?_⟩
  · intro id ring c b s s1 q ht hq
    exact ⟨message_in_turn ht hq, fun e => message_repeated ht hq, message_early ht hq⟩
  · intro id c b s s1 q ht hq hb
    exact ⟨eventAck_taken ht hq hb, close_taken ht hb⟩
  · exact fun id s q hq => ⟨eventResend_taken hq, sessionIdleTimeout_taken hq⟩

end Sys2Proof.MailboxProofs
end

section
/-! SUPPORT. What an answer changes (O48): the operations that it is made of are steps of one relation, which
is transitive. -/

namespace Sys2Proof.MailboxProofs

open Sys2Proof Sys2Proof.Machine Sys2Proof.Laws Sys2Proof.CompletionProofs

/-! ### What an answer may change -/

/-- A state with the parts of another that an answer may change. -/
def withAnswerParts (s t : State) : State :=
  { s with
    mbx := t.mbx, eth := t.eth, win := t.win, transit := t.transit, ports := t.ports
    saddle := { s.saddle with fsQueue := t.saddle.fsQueue } }

/-- A port with what another has sent. -/
def withSent (e f : EthPort) : EthPort := { e with txFrames := f.txFrames, frames := f.frames }

/-- A mailbox with the parts of another that an answer may change. -/
def withMailboxParts (a b : Mailbox) : Mailbox :=
  { a with
    running := b.running, draining := b.draining, responses := b.responses, pi := b.pi
    inFlight := b.inFlight, arrivals := b.arrivals, hostMem := b.hostMem, sbCmdCi := b.sbCmdCi
    sbRespPi := b.sbRespPi, sbEventPi := b.sbEventPi, sbActiveCp := b.sbActiveCp
    sbUpdates := b.sbUpdates, statusBlk := b.statusBlk, base := b.base, ci := b.ci
    talus := b.talus, clearAtStop := b.clearAtStop }

/-- The ring registers are as they were unless PERST_N has asked for their reset (R487). -/
def KeepsRings (a b : Mailbox) : Prop :=
  a.clearAtStop = false →
    b.statusBlk = a.statusBlk ∧ b.base = a.base ∧ b.ci = a.ci ∧ b.talus = a.talus ∧ b.clearAtStop = false

/-- The sessions of another, and what they have sent. -/
def withSessions (a b : EthMbx) : EthMbx := { a with sessions := b.sessions, out := b.out }

/-- A window with the interrupts of another. -/
def withInterrupts (a b : Window) : Window :=
  { a with intStatus := b.intStatus, pba := b.pba, holdUntil := b.holdUntil, msixSent := b.msixSent }

/-- From one state to the next nothing changes but what an answer may change (R41, R45, R49 to R51). -/
def AnswerStep (s t : State) : Prop :=
  t = withAnswerParts s t ∧ (∀ k : Nat, ethAt t k = withSent (ethAt s k) (ethAt t k)) ∧
    t.mbx = withMailboxParts s.mbx t.mbx ∧ KeepsRings s.mbx t.mbx ∧ t.eth = withSessions s.eth t.eth ∧
    t.win = withInterrupts s.win t.win

theorem answerStep_refl (s : State) : AnswerStep s s :=
  ⟨rfl, fun _ => rfl, rfl, fun h => ⟨rfl, rfl, rfl, rfl, h⟩, rfl, rfl⟩

/-- Parts taken over twice are those taken over last. -/
theorem eq_with_trans {α : Type} {f : α → α → α} (hf : ∀ a b c, f (f a b) c = f a c) {a b c : α} (h1 : b = f a b)
    (h2 : c = f b c) : c = f a c :=
  h2.trans ((congrArg (f · c) h1).trans (hf a b c))

theorem keepsRings_trans {a b c : Mailbox} (h1 : KeepsRings a b) (h2 : KeepsRings b c) : KeepsRings a c := by
  intro h
  obtain ⟨hblk, hbase, hci, htalus, hclear⟩ := h1 h
  obtain ⟨kblk, kbase, kci, ktalus, kclear⟩ := h2 hclear
  exact ⟨kblk.trans hblk, kbase.trans hbase, kci.trans hci, ktalus.trans htalus, kclear⟩

theorem answerStep_trans {s t u : State} (h1 : AnswerStep s t) (h2 : AnswerStep t u) : AnswerStep s u := by
  obtain ⟨a1, p1, m1, r1, e1, w1⟩ := h1
  obtain ⟨a2, p2, m2, r2, e2, w2⟩ := h2
  exact ⟨eq_with_trans (f := withAnswerParts) (fun _ _ _ => rfl) a1 a2,
    fun k => eq_with_trans (f := withSent) (fun _ _ _ => rfl) (p1 k) (p2 k),
    eq_with_trans (f := withMailboxParts) (fun _ _ _ => rfl) m1 m2, keepsRings_trans r1 r2,
    eq_with_trans (f := withSessions) (fun _ _ _ => rfl) e1 e2, eq_with_trans (f := withInterrupts) (fun _ _ _ => rfl) w1 w2⟩

/-! ### The operations that an answer is made of -/

theorem writeStatusBlock_answerStep (s : State) : AnswerStep s (writeStatusBlock s) :=
  ⟨rfl, fun _ => rfl, rfl, fun h => ⟨rfl, rfl, rfl, rfl, h⟩, rfl, rfl⟩

theorem setSession_answerStep (inst : Nat) (f : Session → Session) (s : State) : AnswerStep s (setSession inst f s) :=
  ⟨rfl, fun _ => rfl, rfl, fun h => ⟨rfl, rfl, rfl, rfl, h⟩, rfl, rfl⟩

theorem doneEvent_answerStep (m : Msg) (st : Nat) (s : State) : AnswerStep s (doneEvent m st s) :=
  ⟨rfl, fun _ => rfl, rfl, fun h => ⟨rfl, rfl, rfl, rfl, h⟩, rfl, rfl⟩

theorem keepFlight_answerStep (op : Nat) (m : Msg) (place : Nat) (phase : MsgPhase) (s : State) :
    AnswerStep s (keepFlight op m place phase s) :=
  ⟨rfl, fun _ => rfl, rfl, fun h => ⟨rfl, rfl, rfl, rfl, h⟩, rfl, rfl⟩

theorem sendVector_answerStep (k : Nat) (s : State) : AnswerStep s (sendVector k s) := by
  unfold sendVector
  split <;> exact ⟨rfl, fun _ => rfl, rfl, fun h => ⟨rfl, rfl, rfl, rfl, h⟩, rfl, rfl⟩

theorem interrupt_answerStep (k : Nat) (s : State) : AnswerStep s (interrupt k s) := by
  have hset : AnswerStep s { s with win := { s.win with intStatus := s.win.intStatus ||| BitVec.ofNat 4 (2 ^ k) } } :=
    ⟨rfl, fun _ => rfl, rfl, fun h => ⟨rfl, rfl, rfl, rfl, h⟩, rfl, rfl⟩
  unfold interrupt
  dsimp only
  split
  · exact answerStep_trans hset (sendVector_answerStep k _)
  · exact hset

theorem sessionEvent_answerStep (id : BitVec 32) (cause : Nat) (s : State) : AnswerStep s (sessionEvent id cause s) := by
  unfold sessionEvent
  split
  · exact ⟨rfl, fun _ => rfl, rfl, fun h => ⟨rfl, rfl, rfl, rfl, h⟩, rfl, rfl⟩
  · exact answerStep_refl s

theorem closeSession_answerStep (inst cause : Nat) (s : State) : AnswerStep s (closeSession inst cause s) := by
  unfold closeSession
  split
  · exact answerStep_refl s
  · refine answerStep_trans ?_ (sessionEvent_answerStep _ _ _)
    exact ⟨rfl, fun _ => rfl, rfl, fun h => ⟨rfl, rfl, rfl, rfl, h⟩, rfl, rfl⟩

/-- However many frames a port sends, only what it has sent is new. -/
theorem foldl_sendFrame_sent (parts : List Nat) (e : EthPort) :
    parts.foldl (fun e _ => sendFrame .mailbox e) e = withSent e (parts.foldl (fun e _ => sendFrame .mailbox e) e) := by
  induction parts generalizing e with
  | nil => rfl
  | cons n parts ih => exact (ih _).trans rfl

theorem ethAt_modify (ports : List EthPort) (p k : Nat) (f : EthPort → EthPort) (hf : ∀ e, f e = withSent e (f e)) :
    (modAt ports p f).getD k {} = withSent (ports.getD k {}) ((modAt ports p f).getD k {}) := by
  rw [modAt, List.getD_eq_getElem?_getD, List.getD_eq_getElem?_getD, List.getElem?_modify]
  cases ports[k]? with
  | none => rfl
  | some e =>
    by_cases hk : p = k
    · simpa [hk] using hf e
    · simp [hk, withSent]

theorem sendUdp_answerStep (port : Nat) (v6 : Bool) (b : Bytes) (s : State) : AnswerStep s (sendUdp port v6 b s) :=
  ⟨rfl, fun k => ethAt_modify s.ports port k _ (foldl_sendFrame_sent _), rfl, fun h => ⟨rfl, rfl, rfl, rfl, h⟩, rfl, rfl⟩

theorem sendDatagram_answerStep (inst kind : Nat) (body : Bytes) (s : State) : AnswerStep s (sendDatagram inst kind body s) := by
  unfold sendDatagram
  dsimp only
  split
  · exact answerStep_refl s
  · split
    · exact closeSession_answerStep _ _ _
    · exact answerStep_trans (setSession_answerStep _ _ _) (sendUdp_answerStep _ _ _ _)

theorem writeResponse_answerStep (inst : Nat) (r : Response) (s : State) : AnswerStep s (writeResponse inst r s) := by
  fun_cases writeResponse
  case case1 =>
    refine answerStep_trans (answerStep_trans ?_ (writeStatusBlock_answerStep _)) (interrupt_answerStep _ _)
    exact ⟨rfl, fun _ => rfl, rfl, fun h => ⟨rfl, rfl, rfl, rfl, h⟩, rfl, rfl⟩
  case case2 => exact answerStep_refl s
  case case3 => exact answerStep_trans (setSession_answerStep _ _ _) (sendDatagram_answerStep _ _ _ _)

theorem settleDrain_answerStep (s : State) : AnswerStep s (settleDrain s) := by
  unfold settleDrain
  dsimp only
  split
  · split
    case isTrue hclear =>
      exact ⟨rfl, fun _ => rfl, rfl, fun h => absurd hclear (by simp [h]), rfl, rfl⟩
    case isFalse => exact ⟨rfl, fun _ => rfl, rfl, fun h => ⟨rfl, rfl, rfl, rfl, h⟩, rfl, rfl⟩
  · exact answerStep_refl s

theorem dropFlight_answerStep (place : Nat) (s : State) : AnswerStep s (dropFlight place s) := by
  refine answerStep_trans ?_ (settleDrain_answerStep _)
  exact ⟨rfl, fun _ => rfl, rfl, fun h => ⟨rfl, rfl, rfl, rfl, h⟩, rfl, rfl⟩

theorem answer_answerStep (op place status : Nat) (m : Msg) (handle : Option (BitVec 32)) (payload : Bytes)
    (final : Option Nat) (s : State) : AnswerStep s (answer op m place status handle payload final s) := by
  have hresponse (c : Bool) (r : Response) : AnswerStep s (if c = true then s else writeResponse m.inst r s) := by
    split
    · exact answerStep_refl s
    · exact writeResponse_answerStep _ _ _
  have hdone (c : Bool) (t : State) : AnswerStep t (if c = true then doneEvent m status t else t) := by
    split
    · exact doneEvent_answerStep _ _ _
    · exact answerStep_refl t
  unfold answer
  dsimp only
  split
  · exact answerStep_trans (hresponse _ _) (keepFlight_answerStep _ _ _ _ _)
  · exact answerStep_trans (answerStep_trans (hresponse _ _) (hdone _ _)) (dropFlight_answerStep _ _)

/-- Settles O48: each operation that an answer is made of changes only what an answer may change. -/
theorem answerFrame : Obligations.AnswerFrame := fun op status place m h p final s =>
  answer_answerStep op place status m h p final s

end Sys2Proof.MailboxProofs
end

section
/-! SUPPORT. Errors have no effect (O49): what a message run can answer, over the whole operation table. -/

namespace Sys2Proof.MailboxProofs

open Sys2Proof Sys2Proof.Machine Sys2Proof.Laws Sys2Proof.CompletionProofs

/-! ### Answers and their statuses -/

/-- The statuses with which a command may have had an effect: OK, ACCEPTED and LATE (R48). -/
def goodCode (st : Nat) : Bool := st == stOk || st == stAccepted || st == stLate

/-- An answer whose status is none of OK, ACCEPTED and LATE leaves the objects as they were (R48). -/
def EffectOnlyIfGood (s : State) (x : OpResult) : Prop := ∀ r, x = .ok r → goodCode r.status = true ∨ r.state.objs = s.objs

variable {s t : State}

theorem ok_effectOnlyIfGood {r : OpOk} (h : goodCode r.status = true) : EffectOnlyIfGood s (.ok r) :=
  fun _ hr => by cases hr; exact .inl h

section Answers

variable (handle : Option (BitVec 32)) (payload : Bytes) (final : Option Nat)

@[simp] theorem ok_effectOnlyIfGood_of_ok : EffectOnlyIfGood s (.ok ⟨t, 0, handle, payload, final⟩) := ok_effectOnlyIfGood rfl

@[simp] theorem ok_effectOnlyIfGood_of_accepted : EffectOnlyIfGood s (.ok ⟨t, stAccepted, handle, payload, final⟩) :=
  ok_effectOnlyIfGood rfl

@[simp] theorem ok_effectOnlyIfGood_of_late : EffectOnlyIfGood s (.ok ⟨t, stLate, handle, payload, final⟩) :=
  ok_effectOnlyIfGood rfl

end Answers

@[simp] theorem error_effectOnlyIfGood (e : OpErr) : EffectOnlyIfGood s (.error e) := fun _ h => by cases h

@[simp] theorem ite_effectOnlyIfGood_iff (c : Prop) [Decidable c] (a b : OpResult) :
    EffectOnlyIfGood s (if c then a else b) ↔ (c → EffectOnlyIfGood s a) ∧ (¬c → EffectOnlyIfGood s b) := by
  split <;> simp [*]

@[simp] theorem bind_effectOnlyIfGood_iff {α : Type} (x : Except OpErr α) (f : α → OpResult) :
    EffectOnlyIfGood s (x >>= f) ↔ ∀ a, x = .ok a → EffectOnlyIfGood s (f a) := by
  cases x with
  | error e => exact iff_of_true (error_effectOnlyIfGood e) fun a h => by cases h
  | ok a => exact ⟨fun h b hb => by cases hb; exact h, fun h => h a rfl⟩

@[simp] theorem okState_effectOnlyIfGood : EffectOnlyIfGood s (okState t) := ok_effectOnlyIfGood rfl

@[simp] theorem okBytes_effectOnlyIfGood (b : Bytes) : EffectOnlyIfGood s (okBytes t b) := ok_effectOnlyIfGood rfl

@[simp] theorem okLate_effectOnlyIfGood (b : Bytes) : EffectOnlyIfGood s (okLate t b) := ok_effectOnlyIfGood rfl


@[simp] theorem acceptRecalc_effectOnlyIfGood (m : Msg) (op : Nat) (reverting : Bool) :
    EffectOnlyIfGood s (acceptRecalc m op reverting t) :=
  ok_effectOnlyIfGood rfl

/-! ### The bodies that take a case apart -/

@[simp] theorem opPlateSeal_effectOnlyIfGood (m : Msg) (s : State) : EffectOnlyIfGood s (opPlateSeal.body m s) := by
  simp only [opPlateSeal, bind_effectOnlyIfGood_iff]
  intros
  split <;> simp

@[simp] theorem opBenchNozzleWrite_effectOnlyIfGood (m : Msg) (s : State) :
    EffectOnlyIfGood s (opBenchNozzleWrite.body m s) := by
  simp only [opBenchNozzleWrite, bind_effectOnlyIfGood_iff]
  intros
  repeat' split
  all_goals simp

@[simp] theorem opBenchCommit_effectOnlyIfGood (m : Msg) (s : State) : EffectOnlyIfGood s (opBenchCommit.body m s) := by
  simp only [opBenchCommit, bind_effectOnlyIfGood_iff]
  intros
  repeat' split
  all_goals simp

@[simp] theorem opBarGeomCommit_effectOnlyIfGood (m : Msg) (s : State) :
    EffectOnlyIfGood s (opBarGeomCommit.body m s) := by
  simp only [opBarGeomCommit]
  split <;> simp

@[simp] theorem opCmpArm_effectOnlyIfGood (m : Msg) (s : State) : EffectOnlyIfGood s (opCmpArm.body m s) := by
  simp only [opCmpArm, bind_effectOnlyIfGood_iff]
  intros
  repeat' split
  all_goals simp

@[simp] theorem opTimeTriggerArm_effectOnlyIfGood (m : Msg) (s : State) :
    EffectOnlyIfGood s (opTimeTriggerArm.body m s) := by
  simp only [opTimeTriggerArm, bind_effectOnlyIfGood_iff]
  intros
  split <;> simp

/-- A last part that fails the check is answered with BADARG: the font is written, which is no object (R366). -/
@[simp] theorem opVdFontWrite_effectOnlyIfGood (m : Msg) (s : State) : EffectOnlyIfGood s (opVdFontWrite.body m s) := by
  simp only [opVdFontWrite, bind_effectOnlyIfGood_iff, ite_effectOnlyIfGood_iff, okState_effectOnlyIfGood, implies_true,
    and_true, true_and]
  intro _ _ _ _ r hr
  cases hr
  exact .inr rfl

/-- Over the whole operation table: the bodies not taken apart above are checks and one good answer. -/
theorem opTable_effectOnlyIfGood : ∀ d ∈ opTable, ∀ (m : Msg) (s : State), EffectOnlyIfGood s (d.body m s) := by
  simp only [opTable, List.forall_mem_append, List.forall_mem_cons]
  simp [opSyncFence, opSyncEcho, opChanCreate, opChanDestroy, opChanQuery, opChanNextPlate, opRunCreate, opRunStart,
    opRunStop, opRunAbort, opRunDestroy, opRunQuery, opPlateCreate, opPlateData, opPlateRead, opPlateDestroy,
    opPlateQuery, opPlateStoreQuery, opBenchToneWrite, opBenchScreenDefine, opBenchScreenWrite, opBenchSubstWrite,
    opBenchStitchWrite, opBenchDropmapWrite, opBenchDiscard, opBenchRead, opBenchStatus, opBenchRotation,
    opBarGeomWrite, opBarQuery, opHeadQuery, opHeadBlank, opHeadUnblank, opHeadBandMap, opBarFireEnable,
    opPosEncoderConfig, opPosTrackConfig, opPosQuery, opPosSet, opPosTrim, opPosMarkConfig, opPosEmuConfig,
    opPosFaultClear, opCmpCreate, opCmpDisarm, opCmpDestroy, opCmpQuery, opSettConfig, opSettQuery, opSettRetrain,
    opSettRemap, opCamCreate, opCamDestroy, opCamSensorWrite, opCamExposureWrite, opCamParamWrite, opCamCommit,
    opCamActivate, opCamStatsRead, opCamCapture, opCamFrameRead, opCamQuery, opCalCreate, opCalDestroy, opCalAttach,
    opCalDetach, opCalParamWrite, opCalRead, opCalWrite, opLoopHold, opLoopRelease, opLoopResume, opCalRecalc,
    opCalQuery, opCalChanQuery, opCalGateConfig, opCalGateWindow, opCalGateClear, opCalGateQuery, opVdCreate,
    opVdDestroy, opVdAttach, opVdDetach, opVdPush, opVdVerifyConfig, opVdRejectConfig, opVdCancel, opVdResults,
    opVdQuery, opVdRecovery, opDiagMemConfig, opDiagMemQuery, opDiagMemTraining, opDiagArbPrio, opDiagArbCommit,
    opDiagArbQuery, opDiagAvsConfig, opDiagSlackQuery, opSysEthConfig, opSysEthQuery, opTimePtpConfig,
    opTimeServoConfig, opTimeSet, opTimeQuery, opTimeTriggerCreate, opTimeTriggerDisarm, opTimeTriggerDestroy,
    opTimeTriggerQuery, opTimeTimerCreate, opTimeTimerStop, opTimeTimerDestroy, opTimeCaptureConfig,
    opTimeCaptureRead, opSysInterlockConfig, opSysInterlockLock, opSysInterlockRearm, opSysInterlockQuery,
    opSysSaddleQuery, opSysTempConfig, opSysTempQuery, opSysThermalHead, opSysThermalResume, opSysReset,
    opSysBootQuery, opSysOptionRead, opSysOptionWrite, opSysPowerQuery, opSysFailoverConfig, opSysFailoverQuery,
    opAuditOpen, opAuditClose, opAuditRead, opAuditAck, opAuditQuote, opAuditFwBegin, opAuditFwData, opAuditFwSeal,
    opAuditFwQuery, opAuditKeyEnrol, opAuditDebugChallenge, opAuditDebugOpen, opAuditDebugClose]

theorem opResult_effectOnlyIfGood {d : OpDef} (hd : d ∈ opTable) (m : Msg) (s : State) :
    EffectOnlyIfGood s (opResult d m s) :=
  (bind_effectOnlyIfGood_iff _ _).mpr fun _ _ => opTable_effectOnlyIfGood d hd m s

/-! ### The run of a message -/

theorem runOp_ok {d : OpDef} {m : Msg} {place : Nat} {s : State} {r : OpOk} (hr : opResult d m s = .ok r) :
    runOp d m place s = answer d.code m place r.status r.handle r.payload r.final r.state := by
  simp only [runOp, hr]

theorem runOp_error {d : OpDef} {m : Msg} {place : Nat} {s : State} {e : OpErr} (he : opResult d m s = .error e) :
    runOp d m place s = answer d.code m place e.status none e.payload none s := by
  simp only [runOp, he]

/-- Objects, image memory and bars are as they were. -/
def SameObjects (s t : State) : Prop := t.objs = s.objs ∧ t.mem = s.mem ∧ t.bars = s.bars

theorem answer_sameObjects (op place st : Nat) (m : Msg) (h : Option (BitVec 32)) (p : Bytes) (final : Option Nat) (s : State) :
    SameObjects s (answer op m place st h p final s) := by
  simp [SameObjects]

theorem keepFlight_sameObjects (op place : Nat) (m : Msg) (phase : MsgPhase) (s : State) :
    SameObjects s (keepFlight op m place phase s) :=
  ⟨rfl, rfl, rfl⟩

theorem runOp_error_sameObjects {d : OpDef} {m : Msg} {s : State} {e : OpErr} (he : opResult d m s = .error e) (place : Nat) :
    SameObjects s (runOp d m place s) := by
  rw [runOp_error he]
  exact answer_sameObjects ..

/-- A message for the field die is answered or queued by the CP: no object changes before the FS runs it (R25). -/
theorem startMessage_field_sameObjects {d : OpDef} (hd : d.field = true) (m : Msg) (place : Nat) (s : State) :
    SameObjects s (startMessage d m place s) := by
  fun_cases startMessage
  case case1 | case2 => exact answer_sameObjects ..
  case case3 => exact ⟨rfl, rfl, rfl⟩
  case case4 hno => exact absurd hd hno

theorem startMessage_error_sameObjects {d : OpDef} {m : Msg} {s : State} {e : OpErr} (he : opResult d m s = .error e)
    (place : Nat) : SameObjects s (startMessage d m place s) := by
  by_cases hd : d.field = true
  · exact startMessage_field_sameObjects hd m place s
  · rw [startMessage, if_neg hd]
    exact runOp_error_sameObjects he place

theorem takeNew_error_sameObjects {d : OpDef} {m : Msg} {s : State} {e : OpErr} (he : opResult d m s = .error e) :
    SameObjects s (takeNew d m s) := by
  fun_cases takeNew
  · exact runOp_error_sameObjects he _
  · exact startMessage_error_sameObjects he _
  · exact keepFlight_sameObjects ..

theorem message_fresh {d : OpDef} {m : Msg} {s : State} (hf : freshMessage d m s = true) (ht : takes m s = true) :
    message d m s = takeNew d m s := by
  have hnone : (s.mbx.inFlight.find? fun e =>
      e.opcode == d.code && e.msg == m && (e.phase == .waiting || e.phase == .forwarded)) = none := by
    rw [List.find?_eq_none]
    intro e he hc
    simp only [freshMessage, Bool.not_eq_true', List.any_eq_false] at hf
    exact hf e he hc
  simp [message, takes_hostReset ht, hnone, ht]

theorem message_error_sameObjects {d : OpDef} {m : Msg} {s : State} {e : OpErr} (he : opResult d m s = .error e)
    (hf : freshMessage d m s = true) : SameObjects s (message d m s) := by
  cases ht : takes m s with
  | false => rw [message_waits hf ht]; exact ⟨rfl, rfl, rfl⟩
  | true => rw [message_fresh hf ht]; exact takeNew_error_sameObjects he

/-- Settles O49: an error is answered from the state before, and only an answer OK, ACCEPTED or LATE brings other objects. -/
theorem errorsHaveNoEffect : Obligations.ErrorsHaveNoEffect := by
  intro d hd m place s
  refine ⟨?_, ?_, fun hfield => (startMessage_field_sameObjects hfield m place s).1, ?_⟩
  · intro e he
    obtain ⟨hobjs, hmem, hbars⟩ := runOp_error_sameObjects he place
    exact ⟨hobjs, hmem, hbars, message_error_sameObjects he⟩
  · intro r hr hok haccepted hlate
    have hbad : goodCode r.status = false := by simp [goodCode, hok, haccepted, hlate]
    have hobjs : r.state.objs = s.objs :=
      (opResult_effectOnlyIfGood hd m s r hr).resolve_left (Bool.eq_false_iff.mp hbad)
    rw [runOp_ok hr, (answer_sameObjects ..).1, hobjs]
  · intro t hf ht hdirect r hr
    rw [message_direct hf ht hdirect, runOp_ok hr]

end Sys2Proof.MailboxProofs
end

section
/-! SUPPORT. Object tables and handles over the life of a slot (O50). -/

namespace Sys2Proof.ObjectProofs

open Sys2Proof Sys2Proof.Machine Sys2Proof.Laws

section Slots

variable {α : Type} {t t1 : ObjTable α} {a : α} {i : Nat}

/-! ### Creating and freeing one object -/

theorem gen_eq_of_smFind {g : Nat} (h : smFind t.gens i = some g) : t.gen i = g := by
  rw [ObjTable.gen, smGet_eq_smFind, h, Option.getD_some]

theorem find_eq_none_of_free {ty : Nat} {h : BitVec 32} (hfree : t.at? (hIdx h) = none) : t.find ty h = none := by
  rw [ObjTable.find, hfree, ite_self]

theorem find_eq_none_of_stale {ty : Nat} {h : BitVec 32} (hgen : hGen h ≠ t.gen (hIdx h)) : t.find ty h = none :=
  if_neg fun hmatch => hgen hmatch.2

/-- The table after a creation: the slot holds the object, with one generation written (R72). -/
theorem create_slot (h : t.create a = some (i, t1)) : ∃ g, g < 2048 ∧ t.free = i :: t1.free ∧
    (∀ j, t1.at? j = if j = i then some a else t.at? j) ∧
    (∀ j, smFind t1.gens j = if j = i then some g else smFind t.gens j) ∧
    (smFind t.gens i = none → g = 0) ∧ (∀ g0, smFind t.gens i = some g0 → g = (g0 + 1) % 2048) := by
  obtain ⟨g, rfl, hfree, hg, hfirst, hnext⟩ := create_some h
  exact ⟨g, hg, hfree, fun j => smFind_smSet .., fun j => smFind_smSet .., hfirst, hnext⟩

theorem release_at? (t : ObjTable α) (i j : Nat) : (t.release i).at? j = if j = i then none else t.at? j := by
  unfold ObjTable.release
  cases hi : t.at? i with
  | none => by_cases hj : j = i <;> simp [hj, hi]
  | some a => exact smFind_smDel ..

@[simp] theorem release_at?_self (t : ObjTable α) (i : Nat) : (t.release i).at? i = none := by simp [release_at?]

@[simp] theorem release_gens (t : ObjTable α) (i : Nat) : (t.release i).gens = t.gens := by
  unfold ObjTable.release
  split <;> rfl

@[simp] theorem release_gen (t : ObjTable α) (i j : Nat) : (t.release i).gen j = t.gen j := by simp [ObjTable.gen]

theorem release_free (hi : t.at? i = some a) : (t.release i).free = t.free ++ [i] := by simp [ObjTable.release, hi]

end Slots

/-- Settles O50: what a handle names follows the generation that a creation writes and a freeing leaves. -/
theorem handleLifetime : Obligations.HandleLifetime := by
  intro α t t1 a i ty hpos hty hi hcreate h
  obtain ⟨g, hg, hfree, hat, hgens, hfirst, hnext⟩ := create_slot hcreate
  have hself : t1.at? i = some a := by simp [hat]
  have hfind : smFind t1.gens i = some g := by simp [hgens]
  have hgen : t1.gen i = g := gen_eq_of_smFind hfind
  obtain ⟨hT, hG, hI⟩ : hType h = ty ∧ hGen h = t1.gen i ∧ hIdx h = i :=
    mkHandle_fields ty (t1.gen i) i (by omega) (by omega) hi
  refine ⟨hfree, fun hn => hgen.trans (hfirst hn), fun g0 hg0 => ?_, fun j hj => ⟨?_, ?_⟩, hT, hI, ?_, release_free hself,
    release_gen .., ?_, fun j hj => ⟨?_, release_gen ..⟩, fun b t3 h3 => ?_⟩
  · rw [hgen, hnext g0 hg0]
    split <;> omega
  · rw [hat, if_neg hj]
  · simp only [ObjTable.gen, smGet_eq_smFind, hgens, if_neg hj]
  · rw [ObjTable.find, hI, if_pos ⟨hT, hG⟩, hself]
  · exact find_eq_none_of_free (by rw [hI, release_at?_self])
  · rw [release_at?, if_neg hj]
  · obtain ⟨g3, -, -, -, hgens3, -, hnext3⟩ := create_slot h3
    have hg3 : t3.gen i = g3 := gen_eq_of_smFind (by simp [hgens3])
    refine find_eq_none_of_stale ?_
    rw [hI, hG, hg3, hgen, hnext3 g (by rw [release_gens, hfind])]
    omega

end Sys2Proof.ObjectProofs
end

section
/-! SUPPORT. What a reset of the field die frees (O57). -/

namespace Sys2Proof.ObjectProofs

open Sys2Proof Sys2Proof.Machine Sys2Proof.Laws

section Tables

variable {α : Type} {t : ObjTable α}

/-! ### A reset of a table -/

/-- A slot freed by a reset: its generation advances (R75). -/
def freeAdvanced (t : ObjTable α) (i : Nat) : ObjTable α :=
  ⟨smDel t.live i, smSet t.gens i ((t.gen i + 1) % 2048), t.free ++ [i]⟩

theorem reset_eq_foldl (t : ObjTable α) : t.reset = (t.live.map (·.1)).foldl freeAdvanced t := by rw [List.foldl_map]; rfl

theorem freeAdvanced_gen (t : ObjTable α) (i j : Nat) :
    (freeAdvanced t i).gen j = if j = i then (t.gen i + 1) % 2048 else t.gen j := by
  simp only [freeAdvanced, ObjTable.gen, smGet_eq_smFind, smFind_smSet]
  split <;> simp

theorem foldl_freeAdvanced_live (l : List Nat) (t : ObjTable α) :
    (l.foldl freeAdvanced t).live = t.live.filter fun e => decide (e.1 ∉ l) := by
  induction l generalizing t with
  | nil => exact (List.filter_eq_self.mpr fun e _ => decide_eq_true List.not_mem_nil).symm
  | cons i l ih =>
    simp only [List.foldl_cons, ih, freeAdvanced, smDel, List.filter_filter]
    exact List.filter_congr fun e _ => by by_cases he : e.1 = i <;> simp [he]

theorem foldl_freeAdvanced_free (l : List Nat) (t : ObjTable α) : (l.foldl freeAdvanced t).free = t.free ++ l := by
  induction l generalizing t with
  | nil => simp
  | cons i l ih => simp [ih, freeAdvanced]

theorem foldl_freeAdvanced_gen {l : List Nat} (hl : l.Nodup) (t : ObjTable α) (j : Nat) :
    (l.foldl freeAdvanced t).gen j = if j ∈ l then (t.gen j + 1) % 2048 else t.gen j := by
  induction l generalizing t with
  | nil => simp
  | cons i l ih =>
    obtain ⟨hi, hl⟩ := List.nodup_cons.mp hl
    rw [List.foldl_cons, ih hl, freeAdvanced_gen]
    by_cases hj : j = i
    · subst hj; simp [hi]
    · simp [hj]

theorem smFind_isSome_iff (l : SMap α) (i : Nat) : (smFind l i).isSome = true ↔ i ∈ l.map (·.1) := by
  induction l with
  | nil => simp [smFind]
  | cons e l ih =>
    obtain ⟨k, v⟩ := e
    rw [smFind, List.map_cons, List.mem_cons, ← ih]
    by_cases hk : k = i
    · simp [hk]
    · simp [hk, Ne.symm hk]

theorem reset_live (t : ObjTable α) : t.reset.live = [] := by
  rw [reset_eq_foldl, foldl_freeAdvanced_live, List.filter_eq_nil_iff]
  exact fun e he hout => of_decide_eq_true hout (List.mem_map_of_mem he)

theorem reset_free (t : ObjTable α) : t.reset.free = t.free ++ t.live.map (·.1) := by
  rw [reset_eq_foldl, foldl_freeAdvanced_free]

theorem reset_gen (hl : (t.live.map (·.1)).Nodup) (j : Nat) :
    t.reset.gen j = if (t.at? j).isSome then (t.gen j + 1) % 2048 else t.gen j := by
  rw [reset_eq_foldl, foldl_freeAdvanced_gen hl]
  simp only [ObjTable.at?, smFind_isSome_iff]

end Tables

/-! ### The objects after a reset of the field die -/

/-- All objects as before, but for what the audit sessions count. -/
def SameButSums (s t : State) : Prop :=
  t.objs = { s.objs with sessions := t.objs.sessions } ∧ t.objs.sessions.gens = s.objs.sessions.gens ∧
    t.objs.sessions.live.map (·.1) = s.objs.sessions.live.map (·.1)

theorem sameButSums_of_objs {s t : State} (h : t.objs = s.objs) : SameButSums s t := by
  rw [SameButSums, h]; exact ⟨rfl, rfl, rfl⟩

theorem sameButSums_trans {s t u : State} (h1 : SameButSums s t) (h2 : SameButSums t u) : SameButSums s u := by
  obtain ⟨ho1, hg1, hl1⟩ := h1
  obtain ⟨ho2, hg2, hl2⟩ := h2
  refine ⟨?_, hg2.trans hg1, hl2.trans hl1⟩
  rw [ho2, ho1]

/-- A fold keeps what each of its steps keeps. -/
theorem foldl_keeps {α β : Type} {g : State → β} {f : State → α → State} (hf : ∀ s a, g (f s a) = g s)
    (l : List α) (s : State) : g (l.foldl f s) = g s :=
  List.foldlRecOn (motive := fun t => g t = g s) l f rfl fun t ht a _ => (hf t a).trans ht

@[simp] theorem noteFireEn_objs (cause : Nat) (before after : State) : (noteFireEn cause before after).objs = after.objs := by
  unfold noteFireEn
  dsimp only
  split <;> simp

/-- A record entered or held leaves the objects, the image memory and the store. -/
theorem writeRecord_frame (ty : Nat) (session : BitVec 32) (flags entries : Nat) (body : Bytes) (s : State) :
    (writeRecord ty session flags entries body s).objs = s.objs ∧
      (writeRecord ty session flags entries body s).mem = s.mem ∧
      (writeRecord ty session flags entries body s).store = s.store := by
  fun_cases writeRecord
  case case2 => split <;> exact ⟨rfl, rfl, rfl⟩
  all_goals exact ⟨rfl, rfl, rfl⟩

theorem recordRun_sameButSums (h : BitVec 32) (r : Run) (cause : Nat) (s : State) : SameButSums s (recordRun h r cause s) := by
  unfold recordRun
  dsimp only
  split
  · exact ⟨rfl, rfl, by simp [ObjTable.mapLive]⟩
  · refine sameButSums_trans ?_ (sameButSums_of_objs (foldl_keeps (g := State.objs) (fun s p => (writeRecord_frame ..).1) _ _))
    exact ⟨rfl, rfl, by simp [ObjTable.mapLive]⟩

theorem recordFreedRuns_sameButSums (s : State) : SameButSums s (recordFreedRuns s) := by
  refine List.foldlRecOn (motive := SameButSums s) _ _ (sameButSums_of_objs rfl) fun t ht e _ => ?_
  dsimp only
  split
  · exact ht
  · exact sameButSums_trans ht (recordRun_sameButSums ..)

@[simp] theorem dropFieldMessages_objs (s : State) : (dropFieldMessages s).objs = s.objs :=
  foldl_keeps (g := State.objs) (fun s e => by simp) _ s

@[simp] theorem clearField_objs (whole : Bool) (s : State) : (clearField whole s).objs = freeFieldObjects s.objs := rfl

/-- The reset asserted, with the event of FIRE_EN falling (R183). -/
def resetAsserted (s : State) : State := noteFireEn 2 s { s with power := { s.power with fieldReset := true } }

theorem resetAsserted_objs (s : State) : (resetAsserted s).objs = s.objs := noteFireEn_objs ..

@[simp] theorem floatVdd_objs (s : State) : (floatVdd s).objs = s.objs := rfl

@[simp] theorem recoverItems_objs (s : State) : (recoverItems s).objs = s.objs := rfl

/-- The objects just before the registers of the field die are cleared: only what the audit sessions count has moved. -/
theorem resetField_objs (whole : Bool) (s : State) : ∃ t : State, SameButSums s t ∧
    (resetField whole s).objs = freeFieldObjects t.objs := by
  have hs : SameButSums s (resetAsserted s) := sameButSums_of_objs (resetAsserted_objs s)
  by_cases halone : whole = true ∨ s.power.hostReset = true
  · exact ⟨resetAsserted s, hs, by simp only [resetField, if_pos halone, floatVdd_objs, clearField_objs, resetAsserted]⟩
  · refine ⟨recordFreedRuns (resetAsserted s), sameButSums_trans hs (recordFreedRuns_sameButSums _), ?_⟩
    simp only [resetField, if_neg halone, floatVdd_objs, clearField_objs, recoverItems_objs, dropFieldMessages_objs,
      resetAsserted]

/-- Settles O57: every table of the field die is reset; of the audit sessions only the sums may have moved. -/
theorem fieldResetFrees : Obligations.FieldResetFrees := by
  refine ⟨fun whole s => ?_, fun α t hl => ⟨reset_live t, reset_free t, fun i hi => ?_, fun i hi => ?_⟩⟩
  · obtain ⟨t, ⟨hobjs, hgens, hlive⟩, ht⟩ := resetField_objs whole s
    dsimp only
    rw [ht, hobjs]
    exact ⟨rfl, rfl, rfl, rfl, rfl, rfl, rfl, rfl, hgens, hlive⟩
  · rw [reset_gen hl, if_pos hi]
  · rw [reset_gen hl, hi]; rfl

end Sys2Proof.ObjectProofs
end

section
/-! SUPPORT. The checks 13 and 14 of an operation's body, one lemma each, and the channel operations (O4). -/

namespace Sys2Proof.ObjectProofs

open Sys2Proof Sys2Proof.Machine Sys2Proof.Laws Sys2Proof.CompletionProofs

/-! ### Checks that pass -/

section Checks

variable {α β : Type} {e : OpErr}

theorem bind_of_ok {x : Except OpErr α} {a : α} (h : x = .ok a) (f : α → Except OpErr β) : (x >>= f) = f a := by
  rw [h]; rfl

theorem orErr_bind {o : Option α} {a : α} (h : o = some a) (f : α → Except OpErr β) : (orErr o e >>= f) = f a :=
  bind_of_ok (by rw [h]; rfl) f

theorem require_bind {c : Bool} (h : c = true) (f : Unit → Except OpErr β) : (require c e >>= f) = f () :=
  bind_of_ok (if_pos h) f

/-- Budgets of which none is broken are admitted (R91). -/
theorem admitAll_bind {l : List Budget} (h : ∀ b ∈ l, b.broken = false) (f : Unit → Except OpErr β) :
    (admitAll l >>= f) = f () := by
  have hnone : l.filter Budget.broken = [] := List.filter_eq_nil_iff.mpr fun b hb => by simp [h b hb]
  exact bind_of_ok (by rw [admitAll, hnone]) f

end Checks

/-- An operation that is late under a condition leaves the same state as one in time. -/
theorem late_if (late : Prop) [Decidable late] (t : State) (b : Bytes) :
    (if late then okLate t b else okState t) =
      .ok (if late then { state := t, status := stLate, payload := b } else { state := t }) := by
  split <;> rfl

/-! ### The channel operations -/

section Channels

variable {m : Msg} {s : State} {c : Channel}

theorem chanCreate_completes {p : Plate} {i : Nat} {t : ObjTable Channel} (ha : admitted opChanCreate m s = true) :
    let c := newChannel m.payload
    plateOf s c.plate = some p → (barAt s c.bar).table.isSome = true → p.isSealed = true →
    (s.objs.channels.live.any fun e => e.2.bar == c.bar && e.2.lane != c.lane && spansMeet e.2 c) = false →
    s.objs.channels.create c = some (i, t) → rowDemand s c ≤ 1703936 → c.fireAhead + 72 ≤ fifoDepth s c.bar →
    Completes (.chanCreate m) opChanCreate m s
      { state := { s with objs := { s.objs with channels := t } }, handle := some (t.handle tyChannel i) } := by
  intro c hp htable hsealed hmeet hcreate hrow hfifo
  refine completes_of_body rfl ha ?_
  simp only [opChanCreate]
  rw [orErr_bind hp, require_bind (by rw [htable, hsealed]; rfl), require_bind (by rw [hmeet]; rfl), orErr_bind hcreate,
    admitAll_bind (by simpa [Budget.broken] using ⟨hrow, hfifo⟩)]

theorem chanDestroy_completes (ha : admitted opChanDestroy m s = true) (hc : channelOf s m.handle = some c)
    (hidle : c.run = 0) :
    let correcting := s.objs.calsets.live.any fun e => e.2.channel == m.handle && e.2.mode == .correct
    let s1 := if correcting then setBar s c.bar fun b => { b with regCorr := 0 } else s
    Completes (.chanDestroy m) opChanDestroy m s { state := { s1 with objs := { s.objs with
      channels := s.objs.channels.release (hIdx m.handle)
      streams := s.objs.streams.mapLive fun st => if st.channel = m.handle then { st with channel := 0 } else st
      calsets := s.objs.calsets.mapLive fun q =>
        if q.channel = m.handle then { q with channel := 0, mode := .detached } else q } } } := by
  refine completes_of_body rfl ha ?_
  simp only [opChanDestroy]
  rw [orErr_bind hc, require_bind (by simp [hidle])]
  rfl

theorem chanQuery_completes (ha : admitted opChanQuery m s = true) (hc : channelOf s m.handle = some c) :
    ∃ b : Bytes, b.length = 24 ∧ Completes (.chanQuery m) opChanQuery m s { state := s, payload := b } := by
  refine ⟨_, ?_, completes_of_body rfl ha (orErr_bind hc _)⟩
  simp

/-- The budgets of a next plate are met: 6 by its size, and by the gap to the switch where the message names a repeat (R118). -/
theorem chanNextPlate_completes {p : Plate} {r : Run} {size format width : Nat} (ha : admitted opChanNextPlate m s = true)
    (hc : channelOf s m.handle = some c) (hp : plateOf s (w32 m.payload 0) = some p) (hr : runOf s c.run = some r)
    (hswitch : r.switchMin ≠ 0)
    (hadm : r.admitted.find? (fun e => e.1 == m.handle) = some (m.handle, size, format, width))
    (hformat : p.format = format) (hwidth : p.width = width) (hsize : plateSize p ≤ size) :
    let named := u32 m.payload 4
    let asked := if named = 0xFFFFFFFF then 0 else named
    let target := if r.state.active then firstAhead s r c.bar asked else asked
    let len := ((plateOf s c.plate).map fun q => repeatLength q r.pitch).getD 0
    (named = 0xFFFFFFFF ∨
      r.switchMin ≤ if r.state.active then repeatStart r target - c.prevSwitch else target * len) →
    let after := setChannel s m.handle fun c => { c with
      next := some ⟨w32 m.payload 0, if named = 0xFFFFFFFF then none else some target, target⟩ }
    Completes (.chanNextPlate m) opChanNextPlate m s
      (if named ≠ 0xFFFFFFFF ∧ target ≠ named then { state := after, status := stLate, payload := le 4 target }
       else { state := after }) := by
  intro named asked target len hgap after
  refine completes_of_body rfl ha ?_
  simp only [opChanNextPlate]
  rw [orErr_bind hc, orErr_bind hp, orErr_bind hr, require_bind (by simp [hswitch]), hadm,
    require_bind (by simp [hformat, hwidth]), admitAll_bind (by simp [Budget.broken, hsize])]
  simp only [Bool.and_eq_true, Bool.not_eq_true', beq_iff_eq, beq_eq_false_iff_ne, bne_iff_ne]
  by_cases hany : named = 0xFFFFFFFF
  · rw [if_neg (not_not_intro hany)]
    exact late_if _ after _
  · rw [if_pos hany, admitAll_bind]
    · exact late_if _ after _
    · exact List.forall_mem_singleton.mpr (decide_eq_false (Nat.not_lt.mpr (hgap.resolve_left hany)))

end Channels

/-- Settles O4: each clause is the lemma of its message. -/
theorem channelComplete : Obligations.ChannelComplete :=
  ⟨fun _ _ _ _ _ => chanCreate_completes, fun _ _ _ => chanDestroy_completes, fun _ _ _ => chanQuery_completes,
    fun _ _ _ _ _ _ _ _ => chanNextPlate_completes⟩

end Sys2Proof.ObjectProofs
end

section
/-! SUPPORT. The run operations (O5): what the end of a run leaves of memory and store, and the slot it frees. -/

namespace Sys2Proof.ObjectProofs

open Sys2Proof Sys2Proof.Machine Sys2Proof.Laws Sys2Proof.CompletionProofs

/-! ### What the parts of a run's end leave of memory and store -/

/-- The image memory and the store of extents. -/
def stored (s : State) : Memory × Store := (s.mem, s.store)

@[simp] theorem stored_eta (s : State) : (s.mem, s.store) = stored s := rfl

@[simp] theorem stored_mk (ident : Identity) (mbx : Mailbox) (eth : EthMbx) (win : Window) (objs : Objects) (store : Store)
    (mem : Memory) (bars : List Bar) (bench : Benches) (pos : Position) (sett : Sett) (vision : Vision) (vd : Vd)
    (fabric : Fabric) (ports : List EthPort) (ptp : Ptp) (time : Time) (saddle : Saddle) (ilk : Interlock)
    (thermal : Thermal) (power : Power) (cps : Failover) (cairn : Cairn) (transit : List EventRec) (fresh : Nat)
    (pending : List Instr) :
    stored ⟨ident, mbx, eth, win, objs, store, mem, bars, bench, pos, sett, vision, vd, fabric, ports, ptp, time, saddle, ilk,
      thermal, power, cps, cairn, transit, fresh, pending⟩ = (mem, store) := rfl

@[simp] theorem stored_ite (c : Prop) [Decidable c] (s t : State) :
    stored (if c then s else t) = if c then stored s else stored t := apply_ite ..

@[simp] theorem foldl_stored {α : Type} {f : State → α → State} (hf : ∀ s a, stored (f s a) = stored s) (l : List α)
    (s : State) : stored (l.foldl f s) = stored s :=
  foldl_keeps hf l s

section Stored

variable (s : State) (h : BitVec 32)

@[simp] theorem setChannel_stored (f : Channel → Channel) : stored (setChannel s h f) = stored s := rfl

@[simp] theorem setRun_stored (f : Run → Run) : stored (setRun s h f) = stored s := rfl

@[simp] theorem setBar_stored (b : Nat) (f : Bar → Bar) : stored (setBar s b f) = stored s := rfl

@[simp] theorem fieldEventAt_stored (code : Nat) (web : Option Nat) (args : Bytes) :
    stored (fieldEventAt code h web args s) = stored s := by
  simp [← stored_eta]

@[simp] theorem fieldEvent_stored (code : Nat) (args : Bytes) : stored (fieldEvent code h args s) = stored s := by
  simp [← stored_eta]

@[simp] theorem finishItem_stored (slot seq : Nat) (fin : ItemState) (cause : Nat) (v : Verdict) :
    stored (finishItem slot seq fin cause v s) = stored s := by
  unfold finishItem
  repeat' split
  all_goals simp

@[simp] theorem finishItems_stored (slot : Nat) (seqs : List Nat) (fin : ItemState) (cause : Nat) :
    stored (finishItems slot seqs fin cause s) = stored s := by
  simp [finishItems]

@[simp] theorem setItem_stored (slot seq : Nat) (f : Item → Item) : stored (setItem slot seq f s) = stored s := rfl

@[simp] theorem settleItems_stored (r : Run) (cause firstBlank : Nat) : stored (settleItems r cause firstBlank s) = stored s :=
  foldl_stored (fun _ _ => (foldl_stored (fun _ _ => setItem_stored ..) _ _).trans (finishItems_stored ..)) _ s

@[simp] theorem pushServe_stored (b item line : Nat) : stored (pushServe b item line s) = stored s := by
  simp [pushServe, pushServeAt]

@[simp] theorem emitSwitch_stored (b : Nat) (w : Switch) (line : Option Nat) : stored (emitSwitch b w line s) = stored s := by
  simp [emitSwitch, disturb]

@[simp] theorem settleTables_stored : stored (settleTables h s) = stored s := by
  unfold settleTables
  dsimp only
  split <;> simp

@[simp] theorem completeSwitch_stored (web : Nat) : stored (completeSwitch h web s) = stored s := by
  fun_cases completeSwitch <;> simp [renewHistory]

@[simp] theorem dropSwitches_stored (upTo web : Nat) : stored (dropSwitches h upTo web s) = stored s := by
  unfold dropSwitches
  split <;> simp

@[simp] theorem unbind_stored (r : Run) (upTo : Nat) : stored (unbind r upTo s) = stored s := by
  simp [unbind]

@[simp] theorem drainRun_stored (r : Run) (blank : Nat) : stored (drainRun r blank s) = stored s := by
  simp [drainRun]

@[simp] theorem writeRecord_stored (ty : Nat) (flags entries : Nat) (body : Bytes) :
    stored (writeRecord ty h flags entries body s) = stored s := by
  simp [← stored_eta, writeRecord_frame]

@[simp] theorem recordRun_stored (r : Run) (cause : Nat) : stored (recordRun h r cause s) = stored s := by
  simp [recordRun]

@[simp] theorem parkBars_stored : stored (parkBars s) = stored s := rfl

end Stored

/-! ### The slot of an aborted or destroyed run -/

/-- The slot of a run freed. -/
def freeRun (h : BitVec 32) (s : State) : State :=
  { s with objs := { s.objs with runs := s.objs.runs.release (hIdx h) } }

@[simp] theorem freeRun_stored (h : BitVec 32) (s : State) : stored (freeRun h s) = stored s := rfl

theorem update_at?_of_free {α : Type} {t : ObjTable α} {i : Nat} (hi : t.at? i = none) (j : Nat) (f : α → α) :
    (t.update j f).at? i = none := by
  unfold ObjTable.update
  split
  · exact hi
  · next a ha =>
    have hij : i ≠ j := fun h => by rw [← h, hi] at ha; cases ha
    exact (smFind_smSet ..).trans ((if_neg hij).trans hi)

/-- No run stands in the slot of a handle. -/
def RunGone (h : BitVec 32) (s : State) : Prop := s.objs.runs.at? (hIdx h) = none

theorem runOf_of_runGone {h : BitVec 32} {s : State} (hgone : RunGone h s) : runOf s h = none := find_eq_none_of_free hgone

theorem freeRun_gone (h : BitVec 32) (s : State) : RunGone h (freeRun h s) := release_at?_self ..

theorem setRun_gone {h : BitVec 32} {s : State} (hgone : RunGone h s) (g : BitVec 32) (f : Run → Run) :
    RunGone h (setRun s g f) := update_at?_of_free hgone ..

theorem fieldEventAt_gone {h : BitVec 32} {s : State} (hgone : RunGone h s) (code : Nat) (src : BitVec 32) (web : Option Nat)
    (args : Bytes) : RunGone h (fieldEventAt code src web args s) := by
  have hobjs : (fieldEventAt code src web args s).objs = s.objs := by simp
  rw [RunGone, hobjs]
  exact hgone

/-- The queued run of an aborted run's lane returns to CREATED (R87). -/
def unqueue (lane : Nat) (s : State) : State :=
  match queuedRun s lane with
  | some (qh, _) => fieldEvent 0x0405 qh [] (setRun s qh fun q => { q with state := .created })
  | none => s

theorem unqueue_stored (lane : Nat) (s : State) : stored (unqueue lane s) = stored s := by
  unfold unqueue
  split <;> simp

theorem unqueue_gone {h : BitVec 32} {s : State} (hgone : RunGone h s) (lane : Nat) : RunGone h (unqueue lane s) := by
  unfold unqueue
  split
  · exact fieldEventAt_gone (setRun_gone hgone ..) ..
  · exact hgone

/-- What run.abort leaves of an active run from its first blank line on (R87). -/
def abortActive (h : BitVec 32) (r : Run) (s : State) : State :=
  let blank := firstUnhanded s r
  let r' := { r with state := .ended, lastLine := blank - 1 }
  let s2 := unbind r blank (setRun (settleItems r 3 blank (drainRun r blank s)) h fun _ => r')
  parkBars (unqueue r.lane (fieldEventAt 0x0403 h (some (runPos s r.pitch)) (le 6 blank)
    (freeRun h (recordRun h ((runOf s2 h).getD r') 3 s2))))

/-- What run.abort leaves of a run that is not active (R87, log 141). -/
def abortIdle (h : BitVec 32) (r : Run) (s : State) : State :=
  fieldEventAt 0x0403 h (some (runPos s r.pitch)) (le 6 0xFFFFFFFFFFFF) (freeRun h (
    if r.state = .ended then s
    else recordRun h r 3 (unbind r 0 (setRun (settleItems r 3 0 s) h fun r => { r with state := .ended }))))

/-- The state that run.abort leaves. -/
def abortRun (h : BitVec 32) (r : Run) (s : State) : State :=
  if r.state.active then abortActive h r s else abortIdle h r s

theorem abortRun_stored (h : BitVec 32) (r : Run) (s : State) : stored (abortRun h r s) = stored s := by
  simp [abortRun, abortActive, abortIdle, unqueue_stored]

theorem abortRun_gone (h : BitVec 32) (r : Run) (s : State) : RunGone h (abortRun h r s) := by
  unfold abortRun
  split
  · exact unqueue_gone (fieldEventAt_gone (freeRun_gone h _) ..) r.lane
  · exact fieldEventAt_gone (freeRun_gone h _) ..

/-- The state that run.destroy leaves: a CREATED run returns its channels to IDLE first, an ENDED one has none left (R88). -/
def destroyRun (h : BitVec 32) (r : Run) (s : State) : State :=
  freeRun h (if r.state = .created then unbind r 0 (setRun s h fun r => { r with state := .ended }) else s)

theorem destroyRun_stored (h : BitVec 32) (r : Run) (s : State) : stored (destroyRun h r s) = stored s := by
  simp [destroyRun]

/-! ### The operations -/

section Runs

variable {m : Msg} {s : State} {r : Run}

theorem runCreate_completes {i : Nat} {t : ObjTable Run} (ha : admitted opRunCreate m s = true) :
    let r := newRun m.payload
    ((runChannels s r).all fun e => e.2.run == 0) = true → pitchClash s r = false →
    (auditLock s && !auditSlotFree s) = false → runsBarred s = .ok () →
    s.objs.runs.create { r with admitted := (runChannels s r).map fun e =>
      let p := plateOf s e.2.plate
      (e.1, (p.map plateSize).getD 0, (p.map fun p => p.format).getD 0, (p.map fun p => p.width).getD 0) } = some (i, t) →
    ((runBudgets s r).all fun b => !b.broken) = true →
    Completes (.runCreate m) opRunCreate m s
      { state := r.channels.foldl (fun s c => setChannel s c fun c => { c with run := t.handle tyRun i })
          (commandVdd (max 720 s.fabric.vddMv) { s with objs := { s.objs with runs := t } })
        handle := some (t.handle tyRun i) } := by
  intro r hidle hpitch haudit hbarred hcreate hbudgets
  refine completes_of_body rfl ha ?_
  simp only [opRunCreate]
  rw [require_bind hidle, require_bind (by rw [hpitch]; rfl), require_bind (by rw [haudit]; rfl), bind_of_ok hbarred,
    orErr_bind hcreate, admitAll_bind (by simpa using hbudgets)]

theorem runStart_completes (ha : admitted opRunStart m s = true) (hr : runOf s m.handle = some r)
    (hstate : r.state = .created) (hpos : s.pos.configured = true)
    (hlane : (laneHas s m.handle r.lane RunState.active && laneHas s m.handle r.lane (· == .queued)) = false)
    (hbarred : runsBarred s = .ok ()) :
    Completes (.runStart m) opRunStart m s
      (if laneHas s m.handle r.lane RunState.active then
        { state := setRun s m.handle fun r => { r with state := .queued } }
       else if r.startLine < earliestFirst s r then
        { state := armRun m.handle (earliestFirst s r) s, status := stLate, payload := le 6 (earliestFirst s r) }
       else { state := armRun m.handle r.startLine s }) := by
  refine completes_of_body rfl ha ?_
  simp only [opRunStart]
  rw [orErr_bind hr, require_bind (by rw [hstate, hpos]; rfl), require_bind (by rw [hlane]; rfl), bind_of_ok hbarred]
  by_cases hactive : laneHas s m.handle r.lane RunState.active = true
  · rw [if_pos hactive, if_pos hactive]; rfl
  · rw [if_neg hactive, if_neg hactive]
    by_cases hlate : r.startLine < earliestFirst s r
    · rw [if_pos hlate, Nat.max_eq_right (Nat.le_of_lt hlate), if_neg (Nat.ne_of_gt hlate)]; rfl
    · rw [if_neg hlate, Nat.max_eq_left (Nat.not_lt.mp hlate), if_pos rfl]; rfl

theorem runStop_ends_armed (ha : admitted opRunStop m s = true) (hr : runOf s m.handle = some r) (hstate : r.state = .armed)
    (hat : byteAt m.payload 0 = 0 ∨ u48 m.payload 2 ≤ r.firstLine) :
    Completes (.runStop m) opRunStop m s { state := endRun m.handle 1 (r.firstLine - 1) s } := by
  refine completes_of_body rfl ha ?_
  simp only [opRunStop]
  rw [orErr_bind hr, require_bind (by rw [hstate]; rfl), if_pos ⟨hstate, hat⟩]
  rfl

/-- The line at which a run with a natural end stops (log 140). -/
def stopWithin (r : Run) (stop : Nat) : Nat :=
  match runEnd r with
  | none => stop
  | some e => min stop e

theorem runStop_arms (ha : admitted opRunStop m s = true) (hr : runOf s m.handle = some r)
    (hstate : r.state = .printing ∨ r.state = .armed ∧ byteAt m.payload 0 = 1 ∧ r.firstLine < u48 m.payload 2) :
    let line := u48 m.payload 2
    let ahead := firstUnhanded s r
    let stop := if byteAt m.payload 0 = 0 then repeatStart r ((repeatOf r (max r.firstLine (ahead - 1))).1 + 1)
      else max line ahead
    let final := stopWithin r stop
    let after := setRun s m.handle fun r => { r with
      state := .stopping, stopAt := some final, cause := 1, leftAt := r.leftAt.orElse fun _ => some (runPos s r.pitch) }
    Completes (.runStop m) opRunStop m s
      (if byteAt m.payload 0 = 1 ∧ line < final then { state := after, status := stLate, payload := le 6 final }
       else { state := after }) := by
  intro line ahead stop final after
  refine completes_of_body rfl ha ?_
  have hactive : r.state.active = true ∧ (r.state == .stopping) = false := by
    obtain h | ⟨h, -⟩ := hstate <;> rw [h] <;> decide
  have hrun : ¬(r.state = .armed ∧ (byteAt m.payload 0 = 0 ∨ line ≤ r.firstLine)) := by
    rintro ⟨harmed, hat⟩
    obtain h | ⟨-, hmode, hline⟩ := hstate
    · rw [harmed] at h; cases h
    · omega
  simp only [opRunStop]
  rw [orErr_bind hr, require_bind hactive.1, if_neg hrun, require_bind (by rw [hactive.2]; rfl)]
  exact late_if _ after _

theorem opRunAbort_body (hr : runOf s m.handle = some r) : opRunAbort.body m s = .ok {
    state := abortRun m.handle r s
    payload := le 6 (if r.state.active then firstUnhanded s r else 0xFFFFFFFFFFFF) } := by
  simp only [opRunAbort, abortRun]
  rw [orErr_bind hr]
  by_cases hactive : r.state.active = true
  · simp only [if_pos hactive]; rfl
  · simp only [if_neg hactive]; rfl

theorem runAbort_completes (ha : admitted opRunAbort m s = true) (hr : runOf s m.handle = some r) :
    ∃ t : State, runOf t m.handle = none ∧ t.mem = s.mem ∧ t.store = s.store ∧
      Completes (.runAbort m) opRunAbort m s
        { state := t, payload := le 6 (if r.state.active then firstUnhanded s r else 0xFFFFFFFFFFFF) } := by
  obtain ⟨hmem, hstore⟩ := Prod.mk.inj (abortRun_stored m.handle r s)
  exact ⟨abortRun m.handle r s, runOf_of_runGone (abortRun_gone ..), hmem, hstore,
    completes_of_body rfl ha (opRunAbort_body hr)⟩

theorem runDestroy_completes (ha : admitted opRunDestroy m s = true) (hr : runOf s m.handle = some r)
    (hstate : r.state = .created ∨ r.state = .ended) :
    ∃ t : State, runOf t m.handle = none ∧ t.mem = s.mem ∧ t.store = s.store ∧
      Completes (.runDestroy m) opRunDestroy m s { state := t } ∧
      (r.state = .ended → t = { s with objs := { s.objs with runs := s.objs.runs.release (hIdx m.handle) } }) := by
  have hbody : opRunDestroy.body m s = okState (destroyRun m.handle r s) := by
    simp only [opRunDestroy]
    rw [orErr_bind hr, require_bind (by obtain h | h := hstate <;> rw [h] <;> rfl)]
    rfl
  obtain ⟨hmem, hstore⟩ := Prod.mk.inj (destroyRun_stored m.handle r s)
  refine ⟨destroyRun m.handle r s, runOf_of_runGone (freeRun_gone ..), hmem, hstore, completes_of_body rfl ha hbody,
    fun h => ?_⟩
  rw [destroyRun, h]; rfl

theorem runQuery_completes (ha : admitted opRunQuery m s = true) (hr : runOf s m.handle = some r) :
    ∃ b : Bytes, b.length = 28 ∧ Completes (.runQuery m) opRunQuery m s { state := s, payload := b } := by
  refine ⟨_, ?_, completes_of_body rfl ha (orErr_bind hr _)⟩
  simp

end Runs

/-- Settles O5: each clause is the lemma of its message; a stop ends an armed run or arms its stop line. -/
theorem runComplete : Obligations.RunComplete :=
  ⟨fun _ _ _ _ => runCreate_completes, fun _ _ _ => runStart_completes,
    fun _ _ _ ha hr => ⟨runStop_ends_armed ha hr, runStop_arms ha hr⟩, fun _ _ _ => runAbort_completes,
    fun _ _ _ => runDestroy_completes, fun _ _ _ => runQuery_completes⟩

end Sys2Proof.ObjectProofs
end

section
/-! SUPPORT. The operations on a variable-data stream (O24). -/

namespace Sys2Proof.ObjectProofs

open Sys2Proof Sys2Proof.Machine Sys2Proof.Laws Sys2Proof.CompletionProofs

section Streams

variable {m : Msg} {s : State} {st : VdStream}

theorem vdCreate_completes {s1 : State} {ext : List Nat} {eng i : Nat} {t : ObjTable VdStream}
    (ha : admitted opVdCreate m s = true) :
    let b := m.payload
    (s.objs.streams.live.any fun e => e.2.streamId == u32 b 0) = false →
    (s.vd.recovery.any fun e => e.1 == u32 b 0) = false → s.objs.streams.free.isEmpty = false →
    let d := fun k : Nat => vdDemand s k + u16 b 4 * max 62500 (u32 b 8)
    eng = (if s.vd.fault.getD 0 false then 1 else if s.vd.fault.getD 1 false then 0 else if d 1 < d 0 then 1 else 0) →
    d eng ≤ 500000000 → 2 * u32 b 8 ≤ u32 b 16 →
    takeExtents (vdExtents (u32 b 12) (u16 b 6) (u32 b 16) (u32 b 20)) s = some (ext, s1) →
    s1.objs.streams.create { streamId := u32 b 0, itemsPerS := u16 b 4, maxRecord := u16 b 6, maxWindow := u32 b 8
                             ringRecords := u32 b 12, storeBytes := u32 b 16, results := u32 b 20, extents := ext
                             engine := eng } = some (i, t) →
    Completes (.vdCreate m) opVdCreate m s
      { state := { s1 with objs := { s1.objs with streams := t } }, handle := some (t.handle tyStream i)
        payload := le 8 (vdExtents (u32 b 12) (u16 b 6) (u32 b 16) (u32 b 20) * extentBytes) } := by
  intro b hid hrecovery hfree d heng hdemand hstore hext hcreate
  have hengine : eng = 0 ∨ eng = 1 := by
    rw [heng]
    repeat' split
    · exact .inr rfl
    · exact .inl rfl
    · exact .inr rfl
    · exact .inl rfl
  have hlimit : (if eng = 0 then d 0 else d 1) ≤ 500000000 := by
    obtain h | h := hengine <;> rw [h] at hdemand ⊢ <;> exact hdemand
  refine completes_of_body rfl ha ?_
  simp only [opVdCreate]
  rw [require_bind (by rw [hid, hrecovery]; rfl), require_bind (by rw [hfree]; rfl), ← heng,
    admitAll_bind (by simpa [Budget.broken] using ⟨hstore, hlimit⟩), orErr_bind hext, orErr_bind hcreate]

theorem vdDestroy_completes (hst : streamOf s m.handle = some st) (ha : admitted opVdDestroy m s = true)
    (hidle : st.channel = 0) :
    Completes (.vdDestroy m) opVdDestroy m s
      { state := giveExtents st.extents { s with objs := { s.objs with
          streams := s.objs.streams.release (hIdx m.handle) } } } := by
  refine completes_of_body rfl ha ?_
  simp only [opVdDestroy]
  rw [orErr_bind hst, require_bind (by simp [hidle])]
  rfl

theorem vdAttach_completes {c : Channel} (hst : streamOf s m.handle = some st) (ha : admitted opVdAttach m s = true)
    (hc : channelOf s (w32 m.payload 0) = some c) (hidle : st.channel = 0) (hnone : c.stream = 0) :
    Completes (.vdAttach m) opVdAttach m s
      { state := setChannel (setStream s m.handle fun st => { st with channel := w32 m.payload 0 })
          (w32 m.payload 0) fun c => { c with stream := m.handle } } := by
  refine completes_of_body rfl ha ?_
  simp only [opVdAttach]
  rw [orErr_bind hst, orErr_bind hc, require_bind (by simp [hidle, hnone])]
  rfl

theorem vdDetach_completes (hst : streamOf s m.handle = some st) (ha : admitted opVdDetach m s = true)
    (hdone : (st.items.any fun i => i.state == .rendered || i.state == .fired) = false) :
    let s1 := finishItems (hIdx m.handle) (itemsWhere s (hIdx m.handle) fun i => i.state == .queued) .void 5 s
    Completes (.vdDetach m) opVdDetach m s
      { state := setStream (setChannel s1 st.channel fun c => { c with stream := 0 }) m.handle fun st =>
          { st with channel := 0 } } := by
  refine completes_of_body rfl ha ?_
  simp only [opVdDetach]
  rw [orErr_bind hst, require_bind (by rw [hdone]; rfl)]
  rfl

/-- A font part that is not the last leaves the font unusable; a good last part makes it usable (R366). -/
theorem vdFontWrite_completes (ha : admitted opVdFontWrite m s = true) :
    let n := byteAt m.payload 0
    let off := u32 m.payload 4
    let d := m.payload.drop 8
    let old := (s.vd.fonts.getD n {}).bytes
    let bytes := fit off old ++ d ++ old.drop (off + d.length)
    fontInUse s n = false →
    (bit (byteAt m.payload 1) 0 = false → Completes (.vdFontWrite m) opVdFontWrite m s
      { state := { s with vd := { s.vd with fonts := setAt s.vd.fonts n ⟨bytes, false⟩ } } }) ∧
    (bit (byteAt m.payload 1) 0 = true → fontOk ⟨bytes.take (off + d.length), false⟩ = true →
      Completes (.vdFontWrite m) opVdFontWrite m s { state := { s with vd := { s.vd with
        fonts := setAt s.vd.fonts n ⟨bytes.take (off + d.length), true⟩ } } }) := by
  intro n off d old bytes hunused
  refine ⟨fun hpart => completes_of_body rfl ha ?_, fun hlast hgood => completes_of_body rfl ha ?_⟩
  · simp only [opVdFontWrite]
    rw [require_bind (by rw [hunused]; rfl), hpart]
    rfl
  · simp only [opVdFontWrite]
    rw [require_bind (by rw [hunused]; rfl), hlast, if_pos rfl, if_pos rfl, if_pos hgood]
    rfl

end Streams

/-- Settles O24: each clause is the lemma of its message; the two configurations only write what the payload says. -/
theorem streamComplete : Obligations.StreamComplete :=
  ⟨fun _ _ _ _ _ _ _ => vdCreate_completes,
    fun _ _ _ hst => ⟨vdDestroy_completes hst, fun _ => vdAttach_completes hst, vdDetach_completes hst⟩,
    fun _ _ ha => completes_of_body rfl ha rfl, fun _ _ ha => completes_of_body rfl ha rfl, fun _ _ => vdFontWrite_completes⟩

end Sys2Proof.ObjectProofs
end

section
/-! SUPPORT. Time triggers, timers and captures (O33). -/

namespace Sys2Proof.ObjectProofs

open Sys2Proof Sys2Proof.Machine Sys2Proof.Laws Sys2Proof.CompletionProofs

/-! ### Triggers -/

section Triggers

variable {m : Msg} {s : State} {t : Trigger} {out width period count : Nat} {event : Bool}

theorem timeTriggerCreate_completes {i : Nat} {t : ObjTable Trigger} (ha : admitted opTimeTriggerCreate m s = true) :
    let b := m.payload
    s.objs.triggers.create
      { kind := .time (byteAt b 0) (bit (byteAt b 1) 0) (u32 b 4) (u64 b 8) (u32 b 16), armed := false, value := 0
        hits := 0, armHits := 0, skipped := 0, lastHit := 0, next16 := 0, eventAts := [] } = some (i, t) →
    Completes (.timeTriggerCreate m) opTimeTriggerCreate m s
      { state := { s with objs := { s.objs with triggers := t } }, handle := some (t.handle tyTrigger i) } :=
  fun hcreate => completes_of_body rfl ha (orErr_bind hcreate _)

/-- The trigger that time.trigger_arm arms, before a late start is counted (R431). -/
def armedFrom (t : Trigger) (start : Nat) : Trigger :=
  { t with armed := true, hits := 0, skipped := 0, next16 := start * 65536, late := false }

/-- time.trigger_arm of a time trigger, by where its start lies (R431). -/
theorem opTimeTriggerArm_body (ht : triggerOf s m.handle = some t) (hkind : t.kind = .time out event width period count) :
    let start := timeAt m.payload 0
    let now := outputTime s out
    let k := ceilDiv ((now + 1000 - start) * 65536) period
    opTimeTriggerArm.body m s =
      if now + 1000 ≤ start then okState (setTrigger s m.handle fun _ => armedFrom t start)
      else if period = 0 then
        okLate (givePulse (hIdx m.handle) (setTrigger s m.handle fun _ => { armedFrom t start with late := true })) (le 4 0)
      else okLate (setTrigger s m.handle fun _ => { armedFrom t start with
          skipped := k, next16 := (start * 65536) + k * period, armed := count == 0 || k < count })
        (le 4 (min k 0xFFFFFFFF)) := by
  simp only [opTimeTriggerArm]
  rw [orErr_bind ht]
  split
  · next hcompare => rw [hkind] at hcompare; cases hcompare
  · next htime => rw [hkind] at htime; cases htime; rfl

theorem timeTriggerArm_completes (ht : triggerOf s m.handle = some t) (hkind : t.kind = .time out event width period count) :
    let start := timeAt m.payload 0
    let now := outputTime s out
    let t0 := armedFrom t start
    (admitted opTimeTriggerArm m s = true → now + 1000 ≤ start →
      Completes (.timeTriggerArm m) opTimeTriggerArm m s { state := setTrigger s m.handle fun _ => t0 }) ∧
    (admitted opTimeTriggerArm m s = true → start < now + 1000 → period = 0 →
      Completes (.timeTriggerArm m) opTimeTriggerArm m s
        { state := givePulse (hIdx m.handle) (setTrigger s m.handle fun _ => { t0 with late := true })
          status := stLate, payload := le 4 0 }) ∧
    (admitted opTimeTriggerArm m s = true → start < now + 1000 → period ≠ 0 →
      let k := ceilDiv ((now + 1000 - start) * 65536) period
      Completes (.timeTriggerArm m) opTimeTriggerArm m s
        { state := setTrigger s m.handle fun _ =>
            { t0 with skipped := k, next16 := (start * 65536) + k * period, armed := count == 0 || k < count }
          status := stLate, payload := le 4 (min k 0xFFFFFFFF) }) := by
  refine ⟨fun ha hahead => ?_, fun ha hlate hsingle => ?_, fun ha hlate hperiodic => ?_⟩ <;>
    refine completes_of_body rfl ha ((opTimeTriggerArm_body ht hkind).trans ?_)
  · exact if_pos hahead
  · exact (if_neg (Nat.not_le.mpr hlate)).trans (if_pos hsingle)
  · exact (if_neg (Nat.not_le.mpr hlate)).trans (if_neg hperiodic)

theorem timeTriggerDestroy_completes (ht : triggerOf s m.handle = some t) (ha : admitted opTimeTriggerDestroy m s = true)
    (hidle : t.armed = false) :
    let s1 := endPulses (hIdx m.handle) s
    Completes (.timeTriggerDestroy m) opTimeTriggerDestroy m s
      { state := { s1 with objs := { s1.objs with triggers := s1.objs.triggers.release (hIdx m.handle) } } } := by
  refine completes_of_body rfl ha ?_
  simp only [opTimeTriggerDestroy]
  rw [orErr_bind ht, require_bind (by rw [hidle]; rfl)]
  rfl

theorem timeTriggerQuery_armed (ht : triggerOf s m.handle = some t) (ha : admitted opTimeTriggerQuery m s = true)
    (harmed : t.armed = true) :
    Completes (.timeTriggerQuery m) opTimeTriggerQuery m s
      { state := s, payload := le 1 1 ++ zeros 3 ++ le 4 t.hits ++ le 4 t.skipped ++
          le 8 (t.next16 / 65536 / 1000000000) ++ le 4 (t.next16 / 65536 % 1000000000) } := by
  refine completes_of_body rfl ha ?_
  simp only [opTimeTriggerQuery]
  rw [orErr_bind ht, harmed]
  rfl

/-- The next pulse time of a trigger that is not armed is the next free value (log 48). -/
theorem timeTriggerQuery_idle (ht : triggerOf s m.handle = some t) (ha : admitted opTimeTriggerQuery m s = true)
    (hidle : t.armed = false) :
    ∃ b : Bytes, b.length = 24 ∧
      Completes (.timeTriggerQuery m) opTimeTriggerQuery m s { state := { s with fresh := s.fresh + 1 }, payload := b } := by
  have hbody : opTimeTriggerQuery.body m s = okBytes (takeFree 64 s).2 (le 1 0 ++ zeros 3 ++ le 4 t.hits ++ le 4 t.skipped ++
      le 8 ((takeFree 64 s).1 / 1000000000) ++ le 4 ((takeFree 64 s).1 % 1000000000)) := by
    simp only [opTimeTriggerQuery]
    rw [orErr_bind ht, hidle]
    rfl
  exact ⟨_, by simp, completes_of_body rfl ha hbody⟩

theorem triggerPulse_given {k : Fin 128} (ht : s.objs.triggers.at? k = some t)
    (hkind : t.kind = .time out event width period count) (harmed : t.armed = true)
    (hdue : t.next16 / 65536 ≤ outputTime s out) : exec (.triggerPulse k) s = .next (givePulse k s) := by
  simp [exec, execTriggerPulse, ht, hkind, harmed, hdue]

end Triggers

/-! ### Timers -/

section Timers

variable {m : Msg} {s : State} {t : Timer}

theorem timeTimerCreate_completes {i : Nat} {tab : ObjTable Timer} (ha : admitted opTimeTimerCreate m s = true) :
    let b := m.payload
    let late := timeAt b 0 < s.time.field + 1000
    let k := if late then ceilDiv ((s.time.field + 1000 - timeAt b 0) * 65536) (u64 b 16) else 0
    s.objs.timers.create
      { running := u32 b 12 == 0 || k < u32 b 12, next16 := timeAt b 0 * 65536 + k * u64 b 16, period16 := u64 b 16
        count := u32 b 12, expired := 0, skipped := k } = some (i, tab) →
    Completes (.timeTimerCreate m) opTimeTimerCreate m s
      { state := { s with objs := { s.objs with timers := tab } }, handle := some (tab.handle tyTimer i)
        status := if late then stLate else stOk, payload := if late then le 4 (min k 0xFFFFFFFF) else [] } := by
  intro b late k hcreate
  refine completes_of_body rfl ha ?_
  simp only [opTimeTimerCreate]
  rw [orErr_bind hcreate]
  by_cases hlate : timeAt m.payload 0 < s.time.field + 1000 <;> simp [late, k, b, hlate, stOk]

theorem timeTimerDestroy_completes (ha : admitted opTimeTimerDestroy m s = true) (ht : timerOf s m.handle = some t)
    (hidle : t.running = false) :
    Completes (.timeTimerDestroy m) opTimeTimerDestroy m s
      { state := { s with objs := { s.objs with timers := s.objs.timers.release (hIdx m.handle) } } } := by
  refine completes_of_body rfl ha ?_
  simp only [opTimeTimerDestroy]
  rw [orErr_bind ht, require_bind (by rw [hidle]; rfl)]
  rfl

theorem timerExpired_taken {k : Fin 32} (ht : s.objs.timers.at? k = some t) (hrun : t.running = true)
    (hdue : t.next16 / 65536 ≤ s.time.field) : exec (.timerExpired k) s = .next (expireTimer k t s) := by
  simp [exec, execTimerExpired, ht, hrun, hdue]

end Timers

/-! ### Captures -/

section Captures

variable {s : State}

/-- A write to a capture input depends on what the write does to that input only. -/
theorem setCapture_congr {i : Nat} {f g : CaptureIn → CaptureIn} (hfg : f (captureAt s i) = g (captureAt s i)) :
    setCapture s i f = setCapture s i g := by
  have hmod : modAt s.time.captures i f = modAt s.time.captures i g := by
    refine List.ext_getElem? fun j => ?_
    simp only [modAt, List.getElem?_modify]
    by_cases hj : i = j
    · subst hj
      cases hc : s.time.captures[i]? with
      | none => rfl
      | some c =>
        have hat : captureAt s i = c := by simp [captureAt, List.getD, hc]
        simp [← hat, hfg]
    · simp [hj]
  rw [setCapture, hmod, setCapture]

/-- A write that leaves the number of drops as it is. -/
theorem setCapture_dropped {i : Nat} {f : CaptureIn → CaptureIn} (hf : ∀ c, (f c).dropped = c.dropped) :
    (captureAt (setCapture s i f) i).dropped = (captureAt s i).dropped := by
  cases hc : s.time.captures[i]? <;> simp [captureAt, setCapture, modAt, List.getD, hc, hf]

/-- With no drop to report, CAPTURE_LOST is not written (R436). -/
theorem reportLost_none {i : Nat} (hnone : (captureAt s i).dropped = 0) : reportLost i s = s :=
  if_neg fun h => h.1 hnone

theorem capture_recorded {i : Fin 6} {falling : Bool} {held : Nat} :
    let c := captureAt s i
    edgeSelected c.edges falling = true → 5 * c.filter ≤ held →
    (∀ t, c.edgeAt = some t → t + 100 ≤ s.time.clock - held) → c.events = false → c.records.length < 64 →
    c.dropped = 0 →
    exec (.capture i falling held) s = .next (setCapture s i fun c => { c with
      records := c.records ++ [⟨(if i.val < 4 then s.time.field else s.time.te) - held, c.seq, falling,
        if i.val < 4 then s.time.fieldEpoch else s.time.epoch⟩]
      seq := (c.seq + 1) % 65536, eventAts := c.eventAts.filter fun e => s.time.clock < e + 1000000000
      edgeAt := some (s.time.clock - held) }) := by
  intro c hedge hfilter hnear hevents hroom hdropped
  refine congrArg Host.Outcome.next ((if_neg ?_).trans ?_)
  · rintro (hother | hshort | hclose)
    · rw [hedge] at hother; cases hother
    · exact absurd hfilter (Nat.not_le.mpr hshort)
    · cases hat : c.edgeAt with
      | none => rw [hat] at hclose; cases hclose
      | some t =>
        rw [hat] at hclose
        exact absurd (hnear t hat) (Nat.not_le.mpr (of_decide_eq_true hclose))
  · simp only [show (captureAt s i).events = false from hevents, show (captureAt s i).records.length < 64 from hroom,
      Bool.false_and, Bool.not_false, Bool.false_eq_true, if_true, if_false]
    refine (reportLost_none ((setCapture_dropped fun _ => ?_).trans hdropped)).trans (setCapture_congr ?_)
    · rfl
    · rfl

end Captures

/-- Settles O33: each clause is the lemma of its message or event; the others only write what they are given. -/
theorem triggerComplete : Obligations.TriggerComplete := by
  refine ⟨fun _ _ _ _ => timeTriggerCreate_completes, ?_, fun _ _ _ _ _ _ _ _ => triggerPulse_given, fun _ _ => rfl,
    fun _ _ _ _ => timeTimerCreate_completes, ?_, fun _ _ _ => timerExpired_taken, fun _ _ _ _ => capture_recorded, ?_⟩
  · intro m s t out width period count event ht hkind
    obtain ⟨hahead, hsingle, hperiodic⟩ := timeTriggerArm_completes ht hkind
    exact ⟨hahead, hsingle, hperiodic, fun ha => completes_of_body rfl ha rfl, timeTriggerDestroy_completes ht,
      timeTriggerQuery_armed ht, timeTriggerQuery_idle ht⟩
  · exact fun m s => ⟨fun ha => completes_of_body rfl ha rfl, fun t => timeTimerDestroy_completes⟩
  · exact fun m s => ⟨fun ha => completes_of_body rfl ha rfl, fun ha => completes_of_body rfl ha rfl⟩

end Sys2Proof.ObjectProofs
end

section
/-! SUPPORT. A plate's bytes in the image store go to its own addresses and read back as written (O53). -/

namespace Sys2Proof.ObjectProofs

open Sys2Proof Sys2Proof.Machine Sys2Proof.Laws

/-! ### Bytes of the image memory -/

/-- A byte written leaves every other byte, whatever the form of the cells: each step of `cellWrite` keeps the cell that it
passes, and writes or drops only that of the address. -/
theorem cellRead_cellWrite_ne {a c : Nat} (hc : c ≠ a) (l : List Host.Cell) (v : Byte) :
    cellRead (cellWrite l a v) c = cellRead l c := by
  have hpass : ∀ (w : Byte) (r : List Host.Cell), cellRead ((a, w) :: r) c = cellRead r c := fun w r => if_neg hc.symm
  induction l with
  | nil =>
    rw [cellWrite]
    split
    · rfl
    · exact hpass v []
  | cons e r ih =>
    obtain ⟨k, w⟩ := e
    rw [cellWrite]
    by_cases hk : k = a
    · subst hk
      rw [if_pos rfl, hpass]
      split
      · rfl
      · exact hpass v r
    · rw [if_neg hk]
      split
      · split
        · rfl
        · exact hpass v _
      · rw [cellRead, ih, cellRead]

theorem cellRead_cellsWrite_outside (l : List Host.Cell) (a : Nat) (b : Bytes) {c : Nat} (hc : ∀ k < b.length, a + k ≠ c) :
    cellRead (cellsWrite l a b) c = cellRead l c := by
  induction b generalizing l a with
  | nil => rfl
  | cons x r ih =>
    have hrest : ∀ k < r.length, a + 1 + k ≠ c := fun k hk => by
      rw [Nat.add_assoc, Nat.add_comm 1]
      exact hc (k + 1) (Nat.succ_lt_succ hk)
    exact (ih _ _ hrest).trans (cellRead_cellWrite_ne (hc 0 (Nat.succ_pos _)).symm l x)

/-- A store writes the cells as far as its bytes reach. -/
theorem memStore_cells (m : Memory) (a : Nat) (b : Bytes) : (memStore m a b).cells = cellsWrite m.cells a b := by
  unfold memStore
  split
  · next hb => rw [hb]; rfl
  · rfl

/-- No segment is marked uncorrectable. -/
def Clean (m : Memory) : Prop := m.poison = [] ∧ m.bad = []

theorem memByte_of_clean {m : Memory} (hm : Clean m) (a : Nat) : memByte m a = cellRead m.cells a := by
  obtain ⟨hp, hb⟩ := hm
  exact if_neg (by simp only [poisoned, hp, hb, List.any_nil, Bool.or_self, Bool.false_eq_true, not_false_eq_true])

theorem memStore_clean {m : Memory} (hm : Clean m) (a : Nat) (b : Bytes) : Clean (memStore m a b) := by
  obtain ⟨hp, hb⟩ := hm
  unfold memStore
  split
  · exact ⟨hp, hb⟩
  · have hgood : ∀ c, poisoned m c = false := fun c => by simp only [poisoned, hp, hb, List.any_nil, Bool.or_self]
    have hmarked : ((partWords a b.length).filter fun w => poisoned m (8 * w) && !m.poison.contains w) = [] :=
      List.filter_eq_nil_iff.mpr fun w _ => by rw [hgood]; exact Bool.false_ne_true
    refine ⟨?_, by simp only [hb, List.filter_nil]⟩
    simp only [hmarked, List.eraseDups_nil, List.append_nil]
    rw [hp, List.filter_nil]

/-- A default is not taken below a list's length. -/
theorem getD_of_lt {α : Type} {l : List α} {i : Nat} {d : α} (hi : i < l.length) : l.getD i d = l[i] := by
  rw [List.getD, List.getElem?_eq_getElem hi, Option.getD_some]

/-! ### The addresses of a plate's bytes -/

section Layout

variable {p : Plate} {o k : Nat}

/-- The device address of packed-image byte `o` (R101, R103). -/
def byteAddr (p : Plate) (o : Nat) : Nat := imageAddr p (packedToImage p o)

/-- Bytes from packed-image offset `o` on that lie within one line and one extent. -/
def runBytes (p : Plate) (o : Nat) : Nat :=
  min (packedBytes p.format p.width - o % packedBytes p.format p.width)
    (extentBytes - packedToImage p o % extentBytes)

theorem storePacked_succ (p : Plate) (fuel o : Nat) {b : Bytes} (m : Memory) (hb : b ≠ []) :
    storePacked p (fuel + 1) o b m = storePacked p fuel (o + runBytes p o) (b.drop (runBytes p o))
      (memStore m (byteAddr p o) (b.take (runBytes p o))) :=
  if_neg (mt List.isEmpty_iff.mp hb)

theorem runBytes_pos (hw : 0 < packedBytes p.format p.width) (o : Nat) : 0 < runBytes p o :=
  Nat.lt_min.mpr ⟨Nat.sub_pos_of_lt (Nat.mod_lt o hw), Nat.sub_pos_of_lt (Nat.mod_lt _ (by decide))⟩

/-- Within a line, packed bytes lie side by side in the image. -/
theorem packedToImage_add (hk : o % packedBytes p.format p.width + k < packedBytes p.format p.width) :
    packedToImage p (o + k) = packedToImage p o + k := by
  have hw : 0 < packedBytes p.format p.width := Nat.zero_lt_of_lt hk
  have hsplit : o + k = (o % packedBytes p.format p.width + k) +
      packedBytes p.format p.width * (o / packedBytes p.format p.width) := by
    rw [Nat.add_right_comm, Nat.mod_add_div]
  have hdiv : (o + k) / packedBytes p.format p.width = o / packedBytes p.format p.width := by
    rw [hsplit, Nat.add_mul_div_left _ _ hw, Nat.div_eq_of_lt hk, Nat.zero_add]
  have hmod : (o + k) % packedBytes p.format p.width = o % packedBytes p.format p.width + k := by
    rw [hsplit, Nat.add_mul_mod_self_left, Nat.mod_eq_of_lt hk]
  rw [packedToImage, hdiv, hmod, packedToImage, Nat.add_assoc]

/-- Within an extent, image bytes lie side by side in DRAM. -/
theorem imageAddr_add {off : Nat} (hk : off % extentBytes + k < extentBytes) :
    imageAddr p (off + k) = imageAddr p off + k := by
  simp only [imageAddr, extentBytes] at *
  have hdiv : (off + k) / 2097152 = off / 2097152 := by omega
  rw [hdiv]
  omega

/-- The bytes of a run lie side by side in DRAM. -/
theorem byteAddr_add (hk : k < runBytes p o) : byteAddr p (o + k) = byteAddr p o + k := by
  obtain ⟨hline, hextent⟩ := Nat.lt_min.mp hk
  rw [byteAddr, packedToImage_add (by omega), imageAddr_add (by omega), byteAddr]

/-- A line's stride holds its packed bytes (R101). -/
theorem packedBytes_le_strideOf (f w : Nat) : packedBytes f w ≤ strideOf f w := by
  rw [strideOf, ceilDiv]; omega

/-- The image offsets of a plate's lines stay below the end of its last line. -/
theorem packedToImage_lt (ho : o < p.lines * packedBytes p.format p.width) :
    packedToImage p o < p.lines * strideOf p.format p.width := by
  have hw : 0 < packedBytes p.format p.width := Nat.pos_of_lt_mul_left ho
  have hrest : o % packedBytes p.format p.width < strideOf p.format p.width :=
    Nat.lt_of_lt_of_le (Nat.mod_lt o hw) (packedBytes_le_strideOf ..)
  calc packedToImage p o
      < o / packedBytes p.format p.width * strideOf p.format p.width + strideOf p.format p.width := Nat.add_lt_add_left hrest _
    _ = (o / packedBytes p.format p.width + 1) * strideOf p.format p.width := (Nat.succ_mul ..).symm
    _ ≤ p.lines * strideOf p.format p.width := Nat.mul_le_mul_right _ (Nat.div_lt_of_lt_mul (Nat.mul_comm .. ▸ ho))

/-- Different packed bytes have different image offsets. -/
theorem packedToImage_injective (hw : 0 < packedBytes p.format p.width) : Function.Injective (packedToImage p) := by
  intro i j hij
  have hstride : ∀ x, x % packedBytes p.format p.width < strideOf p.format p.width := fun x =>
    Nat.lt_of_lt_of_le (Nat.mod_lt x hw) (packedBytes_le_strideOf ..)
  have hpos : 0 < strideOf p.format p.width := Nat.zero_lt_of_lt (hstride 0)
  have hdiv : ∀ x, packedToImage p x / strideOf p.format p.width = x / packedBytes p.format p.width := fun x => by
    rw [packedToImage, Nat.mul_comm, Nat.mul_add_div hpos, Nat.div_eq_of_lt (hstride x), Nat.add_zero]
  have hmod : ∀ x, packedToImage p x % strideOf p.format p.width = x % packedBytes p.format p.width := fun x => by
    rw [packedToImage, Nat.mul_add_mod_self_right, Nat.mod_eq_of_lt (hstride x)]
  rw [← Nat.div_add_mod i (packedBytes p.format p.width), ← hdiv, ← hmod, hij, hdiv, hmod, Nat.div_add_mod]

/-- Different offsets within different extents have different addresses. -/
theorem imageAddr_injOn (hext : p.extents.Nodup) {i j : Nat} (hi : i < p.extents.length * extentBytes)
    (hj : j < p.extents.length * extentBytes) (hij : imageAddr p i = imageAddr p j) : i = j := by
  simp only [imageAddr, extentBytes] at *
  have hi' : i / 2097152 < p.extents.length := by omega
  have hj' : j / 2097152 < p.extents.length := by omega
  rw [getD_of_lt hi', getD_of_lt hj'] at hij
  have hsame : p.extents[i / 2097152] = p.extents[j / 2097152] := by omega
  have hslot : i / 2097152 = j / 2097152 := (List.getElem_inj hext).mp hsame
  omega

/-- Different packed bytes below an offset have different addresses. -/
def OwnAddresses (p : Plate) (last : Nat) : Prop := ∀ i j, i < last → j < last → byteAddr p i = byteAddr p j → i = j

/-- A plate whose extents differ and hold its lines has each packed byte at an address of its own (R101). -/
theorem byteAddr_own (hext : p.extents.Nodup) (hw : 0 < packedBytes p.format p.width)
    (hfit : p.lines * strideOf p.format p.width ≤ p.extents.length * extentBytes) :
    OwnAddresses p (p.lines * packedBytes p.format p.width) := fun _ _ hi hj hij =>
  packedToImage_injective hw (imageAddr_injOn hext (Nat.lt_of_lt_of_le (packedToImage_lt hi) hfit)
    (Nat.lt_of_lt_of_le (packedToImage_lt hj) hfit) hij)

end Layout

/-! ### Packed bytes stored -/

/-- A store of packed bytes leaves every address that none of them has. -/
theorem storePacked_elsewhere (p : Plate) (fuel o : Nat) (b : Bytes) (m : Memory) {a : Nat}
    (ha : ∀ k < b.length, byteAddr p (o + k) ≠ a) : cellRead (storePacked p fuel o b m).cells a = cellRead m.cells a := by
  induction fuel generalizing o b m with
  | zero => rfl
  | succ fuel ih =>
    by_cases hb : b = []
    · subst hb; rfl
    · rw [storePacked_succ p fuel o m hb, ih, memStore_cells, cellRead_cellsWrite_outside]
      · intro k hk
        obtain ⟨hrun, hlen⟩ := Nat.lt_min.mp (List.length_take ▸ hk)
        rw [← byteAddr_add hrun]
        exact ha k hlen
      · intro k hk
        rw [List.length_drop] at hk
        rw [Nat.add_assoc]
        exact ha _ (by omega)

theorem storePacked_clean (p : Plate) (fuel o : Nat) (b : Bytes) {m : Memory} (hm : Clean m) :
    Clean (storePacked p fuel o b m) := by
  induction fuel generalizing o b m with
  | zero => exact hm
  | succ fuel ih =>
    by_cases hb : b = []
    · subst hb; exact hm
    · rw [storePacked_succ p fuel o m hb]
      exact ih _ _ (memStore_clean hm ..)

/-- Each packed byte stored stands at its address: a run holds its own bytes, and no later run reaches them. -/
theorem storePacked_at {p : Plate} {last : Nat} (hw : 0 < packedBytes p.format p.width)
    (hown : OwnAddresses p last) {fuel o k : Nat} {b : Bytes} {m : Memory} (hm : m.wf = true)
    (hfuel : b.length ≤ fuel) (hlast : o + b.length ≤ last) (hk : k < b.length) :
    cellRead (storePacked p fuel o b m).cells (byteAddr p (o + k)) = b.getD k 0 := by
  induction fuel generalizing o k b m with
  | zero => omega
  | succ fuel ih =>
    have hrun := runBytes_pos hw o
    have hdrop : (b.drop (runBytes p o)).length = b.length - runBytes p o := List.length_drop
    rw [storePacked_succ p fuel o m (List.ne_nil_of_length_pos (Nat.zero_lt_of_lt hk))]
    by_cases hin : k < runBytes p o
    · rw [storePacked_elsewhere, memStore_cells, byteAddr_add hin, cellRead_cellsWrite _ _ _ _ hm,
        if_pos (by rw [List.length_take]; omega), Nat.add_sub_cancel_left]
      · rw [List.getD, List.getElem?_take_of_lt hin, List.getD]
      · intro j hj heq
        have := hown _ _ (by omega) (by omega) heq
        omega
    · have hlater : o + k = o + runBytes p o + (k - runBytes p o) := by omega
      rw [hlater, ih (memStore_wf hm) (by omega) (by omega) (by omega)]
      simp only [List.getD, List.getElem?_drop]
      rw [Nat.add_sub_cancel' (Nat.le_of_not_lt hin)]

/-- Settles O53: a run of bytes within one line and one extent lies side by side, and different offsets of the plate have
different addresses. -/
theorem plateStore : Obligations.PlateStore := by
  refine ⟨fun p m o b a ha => storePacked_elsewhere p _ o b m ha,
    fun p m o b hm hpoison hbad hext hw hfit hlast => ⟨SafetyProofs.storePacked_wf _ _ _ _ _ hm, ?_⟩⟩
  refine List.ext_getElem (by rw [readPacked, List.length_map, List.length_range]) fun k _ hk => ?_
  simp only [readPacked, List.getElem_map, List.getElem_range, memByte_of_clean (storePacked_clean p _ o b ⟨hpoison, hbad⟩)]
  exact (storePacked_at hw (byteAddr_own hext hw hfit) hm (Nat.le_refl _) hlast hk).trans (getD_of_lt hk)

end Sys2Proof.ObjectProofs
end

section
/-! SUPPORT. The plate operations (O6): the checks of each body pass, one lemma per message. -/

namespace Sys2Proof.ObjectProofs

open Sys2Proof Sys2Proof.Machine Sys2Proof.Laws Sys2Proof.CompletionProofs

section Plates

variable {m : Msg} {s : State} {p : Plate}

theorem plateCreate_completes {s1 : State} {ext : List Nat} {i : Nat} {t : ObjTable Plate}
    (ha : admitted opPlateCreate m s = true) :
    let f := byteAt m.payload 0
    let w := u32 m.payload 4
    let n := u32 m.payload 8
    takeExtents (imageExtents f w n + digestExtents f w n) s = some (ext, s1) →
    s1.objs.plates.create { format := f, width := w, lines := n, isSealed := false
                            extents := ext.take (imageExtents f w n), digestExtents := ext.drop (imageExtents f w n)
                            blocks := [], hash := 0, damaged := false, damagedBlocks := [] } = some (i, t) →
    Completes (.plateCreate m) opPlateCreate m s
      { state := { s1 with objs := { s1.objs with plates := t } }, handle := some (t.handle tyPlate i)
        payload := le 4 (blockCount f w n) ++ le 4 (packedBytes f w) ++ le 4 (strideOf f w) ++ zeros 4 ++
          le 8 ((imageExtents f w n + digestExtents f w n) * extentBytes) } := by
  intro f w n hext hcreate
  refine completes_of_body rfl ha ?_
  simp only [opPlateCreate]
  rw [orErr_bind hext, orErr_bind hcreate]

theorem plateData_completes (ha : admitted opPlateData m s = true) (hp : plateOf s m.handle = some p)
    (hopen : p.isSealed = false) :
    let d := m.payload.drop 8
    Completes (.plateData m) opPlateData m s
      { state := setPlate { s with
            mem := storeDigest p (u32 m.payload 0) (Config.sha384 d)
              (storePacked p d.length (4064 * u32 m.payload 0) d s.mem) } m.handle
          fun p => { p with blocks := u32 m.payload 0 :: p.blocks.filter (· != u32 m.payload 0) } } := by
  refine completes_of_body rfl ha ?_
  simp only [opPlateData]
  rw [orErr_bind hp, require_bind (by rw [hopen]; rfl)]
  rfl

theorem plateRead_completes (ha : admitted opPlateRead m s = true) (hp : plateOf s m.handle = some p)
    (hblock : p.isSealed = true ∨ p.blocks.contains (u32 m.payload 0) = true) :
    let i := u32 m.payload 0
    let n := blockBytes p.format p.width p.lines i
    Completes (.plateRead m) opPlateRead m s
      { state := damageRead m.handle p (4064 * i) n s, payload := readPacked p s.mem (4064 * i) n } := by
  refine completes_of_body rfl ha ?_
  simp only [opPlateRead]
  rw [orErr_bind hp, require_bind ((Bool.or_eq_true ..).mpr hblock)]
  rfl

theorem plateSeal_completes (ha : admitted opPlateSeal m s = true) (hp : plateOf s m.handle = some p)
    (hopen : p.isSealed = false) (hall : missingBlock p = none) :
    Completes (.plateSeal m) opPlateSeal m s
      { state := setPlate s m.handle fun q => { q with isSealed := true, hash := plateHash s.mem p }
        payload := leB 48 (plateHash s.mem p) } := by
  refine completes_of_body rfl ha ?_
  simp only [opPlateSeal]
  rw [orErr_bind hp, require_bind (by rw [hopen]; rfl), hall]
  rfl

theorem plateDestroy_completes (ha : admitted opPlateDestroy m s = true) (hp : plateOf s m.handle = some p)
    (hfree : plateRefs s m.handle = 0) :
    Completes (.plateDestroy m) opPlateDestroy m s
      { state := giveExtents (p.extents ++ p.digestExtents)
          { s with objs := { s.objs with plates := s.objs.plates.release (hIdx m.handle) } } } := by
  refine completes_of_body rfl ha ?_
  simp only [opPlateDestroy]
  rw [orErr_bind hp, require_bind (beq_iff_eq.mpr hfree)]
  rfl

theorem plateQuery_completes (ha : admitted opPlateQuery m s = true) (hp : plateOf s m.handle = some p) :
    ∃ b : Bytes, b.length = 88 ∧ Completes (.plateQuery m) opPlateQuery m s { state := s, payload := b } := by
  refine ⟨_, ?_, completes_of_body rfl ha (orErr_bind hp _)⟩
  simp only [List.length_append, le_length, leB_length, zeros_length]

theorem plateStoreQuery_completes (ha : admitted opPlateStoreQuery m s = true) :
    ∃ b : Bytes, b.length = 40 ∧ Completes (.plateStoreQuery m) opPlateStoreQuery m s { state := s, payload := b } := by
  refine ⟨_, ?_, completes_of_body rfl ha rfl⟩
  simp only [List.length_append, le_length, zeros_length]

end Plates

/-- Settles O6: each clause is the lemma of its message. -/
theorem plateComplete : Obligations.PlateComplete :=
  ⟨fun _ _ _ _ _ _ => plateCreate_completes, fun _ _ _ => plateData_completes, fun _ _ _ => plateRead_completes,
    fun _ _ _ => plateSeal_completes, fun _ _ _ => plateDestroy_completes, fun _ _ _ => plateQuery_completes,
    fun _ _ => plateStoreQuery_completes⟩

end Sys2Proof.ObjectProofs
end

section
/-! SUPPORT. The path of a dot (O10): what each of its commands does under the conditions of its rule. -/

namespace Sys2Proof.ObjectProofs

open Sys2Proof Sys2Proof.Machine Sys2Proof.Laws

/-! ### Decisions of switch groups -/

theorem update_gens {α : Type} (t : ObjTable α) (i : Nat) (f : α → α) : (t.update i f).gens = t.gens := by
  unfold ObjTable.update
  split <;> rfl

/-- The decision of a group writes runs in place: no slot is freed or taken. -/
theorem decideGroup_runGens (h : BitVec 32) (g : Option Nat) (s : State) :
    (decideGroup h g s).objs.runs.gens = s.objs.runs.gens := by
  fun_cases decideGroup h g s
  case case1 | case2 => rfl
  case case3 extended =>
    refine (foldl_keeps (g := fun s => s.objs.runs.gens) (fun _ _ => ?_) _ _).trans ?_
    · rfl
    · simp only [extended]
      split
      · rfl
      · exact update_gens ..
  case case4 =>
    refine foldl_keeps (g := fun s => s.objs.runs.gens) (fun s e => ?_) _ s
    dsimp only
    split
    · simp only [fieldEventAt_frame, setChannel_objs]
    · rfl

/-- A fold of decisions may take the run's handle anew at each group. -/
theorem foldl_decideGroup_handle (ty k : Nat) (l : List (Option Nat)) (s : State) :
    l.foldl (fun s g => decideGroup (s.objs.runs.handle ty k) g s) s =
      l.foldl (fun t g => decideGroup (s.objs.runs.handle ty k) g t) s := by
  suffices hall : ∀ t : State, t.objs.runs.gens = s.objs.runs.gens →
      l.foldl (fun s g => decideGroup (s.objs.runs.handle ty k) g s) t =
        l.foldl (fun t g => decideGroup (s.objs.runs.handle ty k) g t) t from hall s rfl
  induction l with
  | nil => intros; simp only [List.foldl_nil]
  | cons g l ih =>
    intro t ht
    have hsame : t.objs.runs.handle ty k = s.objs.runs.handle ty k := by
      simp only [ObjTable.handle, ObjTable.gen, ht]
    rw [List.foldl_cons, List.foldl_cons, hsame, ih _ ((decideGroup_runGens ..).trans ht)]

/-! ### The commands -/

section DotPath

variable {b : Fin 8} {s : State} {n out : Nat} {t : BarTable}

/-- A bench that may screen its bar's next output line does so (R124, R146). -/
theorem outputLineScreen_screens (hout : (barAt s b).nextOut = some n) (htable : (barAt s b).table = some t)
    (hserves : benchServes s b = true) (hmay : mayScreen s b n = true) (hdecided : decisionDue s b n = false) :
    let s1 := decideItems b n t s
    let r := (presentSlots t).foldl (fun acc e => screenSlot b n t (sources s1 b) s1 e acc) (s1, [], 0)
    exec (.outputLineScreen b) s = .next (shadowLine b n (setBar (noteLost b n r.2.2 r.1) b fun x =>
      { x with
        strips := ageStrips s (barQ s b) 128 x.strips, profile := ageStrips s (barQ s b) 1 x.profile
        nextOut := some (n + 1), outLines := ⟨n, r.2.1.reverse⟩ :: x.outLines })) := by
  have hgo : ¬(!benchServes s b ∨ !mayScreen s b n ∨ decisionDue s b n) := by
    rw [hserves, hmay, hdecided]; decide
  simp only [exec, execOutputLineScreen, hout, htable, if_neg hgo]

section Packing

variable (hpack : (barAt s b).nextPack = some n) (hout : (barAt s b).nextOut = some out)
  (htable : (barAt s b).table = some t) (hmay : mayHand s b n = true)

include hpack hout htable hmay

/-- The fire line of a bar that no bench can serve is handed as BLANK blocks, its dots lost (R154). -/
theorem fireLinePack_blank (htwo : twoAhead s b n = true) (hlead : (n : Int) ≤ barPos s b + (fifoDepth s b : Int) - 8)
    (hnone : benchless s b = true) :
    exec (.fireLinePack b) s = .next (loseFireLine b n (handLine b n true (lineBlocks s b n t (fun _ => true) none)
      (setBar s b fun x => { x with nextOut := some (max out (n + 1)) }))) := by
  simp only [exec, execFireLinePack, hpack, hout, htable, hmay, htwo, hlead, hnone, and_self, decide_true, Bool.and_self,
    if_true]

/-- A packable fire line is handed to the lanes as its blocks (R178, R214). -/
theorem fireLinePack_packs (htwo : twoAhead s b n = true) (hlead : (n : Int) ≤ barPos s b + (fifoDepth s b : Int) - 8)
    (hserved : benchless s b = false) (hscreened : n < out) :
    let drop := testDrop s b n t
    let blocks := lineBlocks s b n t (fun _ => false) drop
    let s1 := handLine b n false blocks s
    exec (.fireLinePack b) s =
      .next (startDrop b n drop (if blocks.any (fun k => !k.blank) then itemsFired b n s1 else s1)) := by
  simp only [exec, execFireLinePack, hpack, hout, htable, hmay, htwo, hlead, hserved, hscreened, and_self, decide_true,
    Bool.and_false, Bool.and_self, Bool.false_eq_true, if_false, if_true]

/-- At 2 lines before its instant a line goes out as it is (R214). -/
theorem lineDeadline_hands (hnear : twoAhead s b n = false) :
    exec (.lineDeadline b) s = .next (handLate b n out t s) := by
  have hdue : mayHand s b n ∧ !twoAhead s b n := ⟨hmay, by rw [hnear]; rfl⟩
  simp only [exec, execLineDeadline, hpack, hout, htable, if_pos hdue]

end Packing

/-- A bar whose next instant Φ has reached, with the trim moved one step, fires that line (R210, R211). -/
theorem fireInstant_fires (hfire : (barAt s b).nextFire = some n) :
    let trim := nextTrim (barAt s b)
    fireAt { barAt s b with trim4 := trim } (barQ s b) n ≤ s.pos.phi32 →
    let s1 := setBar s b fun bar => { bar with trim4 := trim, nextFire := some (n + 1) }
    let s2 := startRuns b n (fireLine b n (if trim = (barAt s b).trim4 then s1 else disturb b n s1))
    exec (.fireInstant b) s = .next (dropDrained b (endRuns (noteRate b
      (setBar s2 b fun bar => { bar with handed := bar.handed.filter fun e => n < e.1 })))) := by
  intro trim hreached
  simp only [exec, execFireInstant, fireNext, hfire]
  exact congrArg Host.Outcome.next (if_neg (Int.not_lt.mpr hreached))

/-- The switch groups of an active run decide (R116). Its handle stays the same, whichever of them have decided. -/
theorem switchDecision_decides {k : Fin 8} {r : Run} (hr : s.objs.runs.at? k = some r) (hactive : r.state.active = true) :
    exec (.switchDecision k) s = .next ((switchGroups s r).foldl
      (fun s g => decideGroup (s.objs.runs.handle tyRun k) g s) s) := by
  simp only [exec, execSwitchDecision, hr, hactive, Bool.not_true, Bool.false_eq_true, if_false]
  exact congrArg Host.Outcome.next (foldl_decideGroup_handle ..).symm

/-- A decided switch that the heads have reached completes (R119, R120). -/
theorem plateSwitched_completes {k : Fin 64} {c : Channel} {d : Decided} {rest : List Decided}
    (hc : s.objs.channels.at? k = some c) (hd : c.decided = d :: rest) (hout : (barAt s c.bar).nextOut = some n)
    (hline : d.line ≤ n + leastSkew s c.bar) (hprints : switchPrints s c.run d.line = true) :
    exec (.plateSwitched k) s =
      .next (completeSwitch (s.objs.channels.handle tyChannel k) (runPos s (barPitch s c.bar)) s) := by
  simp only [exec, execPlateSwitched, hc, hd, hout, if_pos (And.intro hline hprints)]

/-- Armed table switches whose line the bar has reached come into force and are reported (R146). -/
theorem tableSwitched_reports :
    let y := barPos s b
    let now := (barAt s b).switches.filter fun w => (w.line : Int) ≤ y
    now ≠ [] →
    exec (.tableSwitched b) s = .next (now.foldl (fun s w => emitSwitch b w (some w.line) s)
      (setBar { s with objs := { s.objs with channels := s.objs.channels.mapLive fun c =>
                  if c.bar = b then
                    { c with tone := c.tone.reach y.toNat, screen := c.screen.reach y.toNat,
                             dropmap := c.dropmap.reach y.toNat }
                  else c } } b fun x => { x with
        nozzles := x.nozzles.reach y.toNat, subst := x.subst.reach y.toNat, ramps := x.ramps.reach y.toNat
        switches := x.switches.filter fun w => y < (w.line : Int) })) := by
  intro y now hsome
  exact congrArg Host.Outcome.next (if_neg (mt List.isEmpty_iff.mp hsome))

end DotPath

/-- Settles O10: each clause is the lemma of its command. -/
theorem dotPathComplete : Obligations.DotPathComplete :=
  ⟨fun _ _ _ _ => outputLineScreen_screens,
    fun _ _ _ _ _ hpack hout htable hmay htwo hlead => ⟨fireLinePack_blank hpack hout htable hmay htwo hlead,
      fireLinePack_packs hpack hout htable hmay htwo hlead⟩,
    fun _ _ _ _ _ => lineDeadline_hands, fun _ _ _ => fireInstant_fires, fun _ _ _ => switchDecision_decides,
    fun _ _ _ _ _ _ => plateSwitched_completes, fun _ _ => tableSwitched_reports⟩

end Sys2Proof.ObjectProofs
end

section
/-! SUPPORT. The bench write and table operations (O7, O8): the checks of each body pass, one lemma per message. -/

namespace Sys2Proof.BenchProofs

open Sys2Proof Sys2Proof.Machine Sys2Proof.Laws Sys2Proof.CompletionProofs Sys2Proof.ObjectProofs

/-! ### The bench write messages -/

section Writes

variable {m : Msg} {s : State} {c : Channel}

/-- Where the loop holds none of the nozzles named, their gains and offsets are the host's (R307). -/
theorem benchNozzleWrite_completes (ha : admitted opBenchNozzleWrite m s = true) :
    let bar := byteAt m.payload 0
    let n := u16 m.payload 8
    (barAt s bar).table.isSome = true →
    (byteAt m.payload 1 % 4 ≠ 0 → ∀ j < n, loopHolds s bar (u32 m.payload 4 + j) = false) →
    let edits := (List.range n).map fun j =>
      (u32 m.payload 4 + j, (⟨nozzleMask (byteAt m.payload 1), w32 m.payload (12 + 4 * j)⟩ : Edit))
    Completes (.benchNozzleWrite m) opBenchNozzleWrite m s { state := stageNozzles bar 0 edits s } := by
  intro bar n htable hfree edits
  refine completes_of_body rfl ha ?_
  simp only [opBenchNozzleWrite]
  rw [require_bind htable]
  by_cases hloop : byteAt m.payload 1 % 4 ≠ 0
  · have hnone : (List.range n).find? (fun j => loopHolds s bar (u32 m.payload 4 + j)) = none :=
      List.find?_eq_none.mpr fun j hj => Bool.eq_false_iff.mp (hfree hloop j (List.mem_range.mp hj))
    rw [if_pos hloop, hnone]
    rfl
  · rw [if_neg hloop]
    rfl

/-- A screen defined outside a run asks for no budget; in a run budget 16 admits it (R136). -/
theorem benchScreenDefine_completes (ha : admitted opBenchScreenDefine m s = true) (hc : channelOf s m.handle = some c) :
    let b := m.payload
    let v : Screen := ⟨byteAt b 0 == 1, byteAt b 1, byteAt b 2, byteAt b 3 % 2 ^ byteAt b 1, byteAt b 4 % 2 ^ byteAt b 2, []⟩
    (c.run = 0 ∨ laneDemand s [] (fun _ h d =>
      if d.bar ≠ c.bar then 0 else screenDemand s d
        (newestScreen d (if h = m.handle then some v else d.screenStaged))) ≤ 1048576) →
    Completes (.benchScreenDefine m) opBenchScreenDefine m s
      { state := setChannel s m.handle fun c => { c with screenStaged := some v } } := by
  intro b v hbudget
  refine completes_of_body rfl ha ?_
  simp only [opBenchScreenDefine]
  rw [orErr_bind hc]
  by_cases hrun : c.run = 0
  · rw [if_neg (not_not_intro hrun)]
    rfl
  · rw [if_pos hrun]
    refine admitAll_bind (List.forall_mem_singleton.mpr ?_) _
    exact decide_eq_false (Nat.not_lt.mpr (hbudget.resolve_left hrun))

theorem benchScreenWrite_completes (ha : admitted opBenchScreenWrite m s = true) (hc : channelOf s m.handle = some c)
    (hcustom : (stagedScreen c).custom = true) :
    let cells := (List.range (u16 m.payload 2)).map fun j =>
      (List.range (lmaxOf c.dropBits)).map fun k => u16 m.payload (8 + cellBytes c.dropBits * j + 2 * k)
    Completes (.benchScreenWrite m) opBenchScreenWrite m s { state := setChannel s m.handle fun d => { d with
      screenStaged := some { stagedScreen c with cells := smSetRun (stagedScreen c).cells (u16 m.payload 0) cells } } } := by
  refine completes_of_body rfl ha ?_
  simp only [opBenchScreenWrite]
  rw [orErr_bind hc, require_bind hcustom]
  rfl

end Writes

/-- Settles O7: the nozzle and screen writes are the lemmas of their messages; the others check nothing of their own. -/
theorem benchWriteComplete : Obligations.BenchWriteComplete :=
  ⟨fun _ _ ha => completes_of_body rfl ha rfl, fun _ _ => benchNozzleWrite_completes,
    fun _ _ _ => benchScreenDefine_completes, fun _ _ _ => benchScreenWrite_completes,
    fun _ _ ha => completes_of_body rfl ha rfl,
    fun _ _ ha => completes_of_body rfl ha rfl, fun _ _ ha => completes_of_body rfl ha rfl⟩

/-! ### The bench table messages -/

section Tables

variable {m : Msg} {s : State}

/-- The check of a message that names no channel: it holds where handle 0 meets the condition. -/
theorem handleCheck_passes {h : BitVec 32} {c : Bool} (hc : h = 0 → c = false) : (!(h == 0 && c)) = true := by
  by_cases hh : h = 0
  · rw [hc hh, Bool.and_false]; rfl
  · rw [beq_eq_false_iff_ne.mpr hh]; rfl

/-- Tables whose lines run are armed for the planned line, LATE where it is not the one asked; the others switch at once
(R146, R148). -/
theorem benchCommit_completes (ha : admitted opBenchCommit m s = true) :
    let bar := namedBar s m.handle (byteAt m.payload 1)
    (m.handle = 0 → byteAt m.payload 0 % 8 = 0 ∧ barActive s bar = false) →
    let keys := (maskTables (byteAt m.payload 0)).filter (hasStaged s bar m.handle 0)
    let timed := keys.filter fun k => if k < 3 then channelActive s m.handle else barActive s bar
    let now := keys.filter fun k => !timed.contains k
    let line := if u48 m.payload 4 = 0xFFFFFFFFFFFF then none else some (u48 m.payload 4)
    let s1 := if now.isEmpty then s else switchTables bar m.handle 0 m.seq now none s
    (timed = [] → Completes (.benchCommit m) opBenchCommit m s { state := s1 }) ∧
    (∀ (l : Nat) (isLate : Bool), timed ≠ [] → planLine s bar m.handle timed line = some (l, isLate) →
      let s2 := switchTables bar m.handle 0 m.seq timed (some l) s1
      Completes (.benchCommit m) opBenchCommit m s
        (if isLate then { state := s2, status := stLate, payload := le 6 l } else { state := s2 })) := by
  intro bar hnamed keys timed now line s1
  have hcheck : (!(m.handle == 0 && (byteAt m.payload 0 % 8 != 0 || barActive s bar))) = true :=
    handleCheck_passes fun h => by
      obtain ⟨hmask, hidle⟩ := hnamed h
      rw [hmask, hidle]; rfl
  refine ⟨fun hnone => completes_of_body rfl ha ?_, fun l isLate hsome hplan => completes_of_body rfl ha ?_⟩
  all_goals
    simp only [opBenchCommit]
    rw [require_bind hcheck]
  · exact if_pos (List.isEmpty_iff.mpr hnone)
  · refine (if_neg (mt List.isEmpty_iff.mp hsome)).trans ?_
    rw [hplan]
    exact late_if (isLate = true) _ _

theorem benchDiscard_completes (ha : admitted opBenchDiscard m s = true) (hnamed : m.handle = 0 → byteAt m.payload 0 % 8 = 0) :
    let bar := namedBar s m.handle (byteAt m.payload 1)
    Completes (.benchDiscard m) opBenchDiscard m s
      { state := (maskTables (byteAt m.payload 0)).foldl (fun s k => dropStaged bar m.handle k s) s } := by
  refine completes_of_body rfl ha ?_
  simp only [opBenchDiscard]
  rw [require_bind (handleCheck_passes fun h => by rw [hnamed h]; rfl)]
  rfl

theorem benchRead_completes (ha : admitted opBenchRead m s = true) (hnamed : m.handle = 0 → 2 < byteAt m.payload 0) :
    Completes (.benchRead m) opBenchRead m s
      { state := s, payload := (List.range (u32 m.payload 8)).flatMap fun j =>
          readEntry s (namedBar s m.handle (byteAt m.payload 2)) m.handle (byteAt m.payload 0) (byteAt m.payload 1)
            (u32 m.payload 4 + j) } := by
  refine completes_of_body rfl ha ?_
  simp only [opBenchRead]
  rw [require_bind (handleCheck_passes fun h => decide_eq_false (Nat.not_le.mpr (hnamed h)))]
  rfl

/-- Period and time left, then 8 bytes of each bench (R155). -/
theorem benchStatus_completes (ha : admitted opBenchStatus m s = true) :
    ∃ b : Bytes, b.length = 8 + 8 * s.bench.bench.length ∧
      Completes (.benchStatus m) opBenchStatus m s { state := s, payload := b } := by
  refine ⟨_, ?_, completes_of_body rfl ha rfl⟩
  simp only [List.length_append, List.length_flatMap, le_length, List.map_const', List.sum_replicate_nat]
  omega

end Tables

/-- Settles O8: each clause is the lemma of its message; bench.rotation checks nothing of its own. -/
theorem benchTableComplete : Obligations.BenchTableComplete :=
  ⟨fun _ _ => benchCommit_completes, fun _ _ => benchDiscard_completes, fun _ _ => benchRead_completes,
    fun _ _ => benchStatus_completes, fun _ _ ha => completes_of_body rfl ha rfl⟩

end Sys2Proof.BenchProofs
end

section
/-! SUPPORT. The spare bench, the heads and the line sequencers (O11): what each event does under the conditions of its rule. -/

namespace Sys2Proof.BenchProofs

open Sys2Proof Sys2Proof.Machine

/-! ### Benches -/

section Benches

variable {s : State}

/-- A bench in service that is declared faulty leaves its role (R126, R154). -/
theorem benchFault_declares {i : Fin 9} (c : Fin 2) (hserves : (benchAt s i).role ≠ .removed) :
    exec (.benchFault i c) s = .next (declareBench i (c + 1) s) := by
  cases hrole : (benchAt s i).role with
  | removed => exact absurd hrole hserves
  | _ => simp only [exec, execBenchFault, hrole]

/-- The spare takes over the bar of the bench that failed (R153). -/
theorem spareTakeover_serves {b : Fin 8} {leaving i : Nat}
    (hwaits : s.bench.takeovers.find? (fun e => e.1 == b.val) = some (b.val, leaving)) (hspare : spareBench s = some i) :
    let matched := if (benchAt s i).role = .shadowing b then (benchAt s i).matched else 0
    let s1 := setBench (abandonLoan i b s) i fun e => { e with role := .working b, matched := 0 }
    exec (.spareTakeover b) s = .next (tellNoSpare (benchRotated b leaving i 1 matched (auditRuns (runOn s b)
      (fun a => { a with tkBench := a.tkBench + 1 })
      { s1 with bench := { s1.bench with takeovers := s1.bench.takeovers.filter fun e => e.1 != b.val } }))) := by
  simp only [exec, execSpareTakeover, hwaits, hspare]

/-- Two results that agree condemn the working bench, others the one that shadows it (R152). -/
theorem shadowMismatch_condemns (slot : Fin 32) {x b w : Nat} (hx : shadowed s = some (x, b)) (hw : workingOn s b = some w) :
    let count := fun (e : Bench) => { e with mismatches := (e.mismatches + 1) % 2 ^ 32, matched := 0 }
    let s1 := setBench (setBench s x count) w count
    exec (.shadowMismatch slot true) s = .next (declareBench w 3 (fieldEvent 0x0503 0
      (le 1 b ++ le 1 w ++ le 1 x ++ le 1 0 ++ le 4 slot) s1)) ∧
    exec (.shadowMismatch slot false) s = .next (declareBench x 3 (fieldEvent 0x0503 0
      (le 1 b ++ le 1 w ++ le 1 x ++ le 1 1 ++ le 4 slot) s1)) := by
  constructor
  all_goals
    simp only [exec, execShadowMismatch, hx, hw]
    rfl

/-- At the end of a period the spare takes over the bar that it shadows, and the bench it relieves is tested (R155). -/
theorem rotationPeriod_rotates {x b w : Nat} (hx : shadowed s = some (x, b)) (hended : s.bench.periodEnd ≤ s.time.clock)
    (hcool : s.thermal.step = 0) (hon : s.bench.period ≠ 0) (hw : workingOn s b = some w)
    (hready : (benchAt s x).matched ≠ 0 ∨ barLive s b = false) :
    let s1 := benchRotated b w x 0 (benchAt s x).matched (setBench (setBench s w fun e => { e with role := .testing false }) x
      fun e => { e with role := .working b, matched := 0 })
    let p := s.bench.newPeriod.getD s.bench.period
    exec .rotationPeriod s = .next { s1 with bench := { s1.bench with
      rotBar := (b + 1) % 8, period := p, newPeriod := none
      periodEnd := s1.time.clock + 1000000000 * (if p = 0 then 120 else p) } } := by
  have hdue : ¬(s.time.clock < s.bench.periodEnd ∨ s.thermal.step ≠ 0) :=
    not_or.mpr ⟨Nat.not_lt.mpr hended, not_not_intro hcool⟩
  have hgo : ¬((benchAt s x).matched = 0 ∧ barLive s b) := by
    rintro ⟨hnone, hlive⟩
    rcases hready with hsome | hdead
    · exact hsome hnone
    · rw [hdead] at hlive; cases hlive
  -- `hon` rules out the arm of the period that is off.
  simp only [exec, execRotationPeriod, hx, if_neg hdue, hw, if_neg hgo]

/-- A bench that passes its test loads as the spare, one that fails is removed (R154, R155). -/
theorem benchTestDone_verdict {i : Fin 9} {declared : Bool} (htest : (benchAt s i).role = .testing declared) :
    exec (.benchTestDone i true) s =
      .next (setBench s i fun e => { e with role := .loading s.bench.rotBar, matched := 0 }) ∧
    exec (.benchTestDone i false) s = .next (removeBench i (fieldEvent 0x0504 0 (le 1 i ++ [4, 0xFF, 1]) s)) := by
  constructor <;> simp only [exec, execBenchTestDone, htest, if_true, Bool.false_eq_true, if_false]

/-- A loaded spare that no recalculation waits for shadows the bar (R155). -/
theorem spareLoadDone_shadows {x b : Nat} (hx : loadingSpare s = some (x, b)) (hunwanted : loanWanted s b = false) :
    exec .spareLoadDone s = .next (setBench s x fun e => { e with role := .shadowing b, matched := 0 }) := by
  simp only [exec, execSpareLoadDone, hx, hunwanted, Bool.false_eq_true, if_false]

end Benches

/-! ### Heads -/

section Heads

variable {b : Fin 8} {i : Fin 32} {s : State}

theorem headReportMissing_blanks {t : Nat} (haccepted : (headAt s b i).accepted = true)
    (hreport : (headAt s b i).reportAt = some t) (hlong : t + 300000000 ≤ s.time.clock)
    (hlimit : (barAt s b).headLimit.isSome = true) :
    exec (.headReportMissing b i) s = .next (withCauses b i (6 :: ·) s) := by
  simp only [exec, execHeadReportMissing, haccepted, hreport, hlong, hlimit, decide_true, and_self, if_true]

theorem headLost_rejected (haccepted : (headAt s b i).accepted = true) :
    exec (.headLost b i) s = .next (recordCause b i (some 1)
      (setHead s b i fun h => { h with reported := some false, accepted := false })) := by
  simp only [exec, execHeadLost, if_pos haccepted]

/-- A head with a cause, not blanked yet or about to resume, is blanked from the first line on time (R185). -/
theorem headBlanked_blanks (hcause : (headAt s b i).causes ≠ [])
    (hprints : (headAt s b i).blank = false ∨ (headAt s b i).resumeAt ≠ none) :
    let h := headAt s b i
    let live := barActive s b
    let l := if live then firstOnTime s b else 0
    let stop := (barAt s b).nextFire.getD (barPos s b + 1).toNat
    let stretch := match h.resumeAt, h.outFrom with
      | some r, some o => if l < r then (o, h.outPast) else (l, ((o, r) :: h.outPast).take 8)
      | _, _ => (l, h.outPast)
    let s1 := setHead s b i fun h =>
      { h with blank := true, outFrom := some stretch.1, outPast := stretch.2, resumeAt := none }
    let s2 := pushServe b 3 l (headCommand b (2 ^ i.val) 1 (disturb b stop (if live then disturb b l s1 else s1)))
    exec (.headBlanked b i) s = .next (fieldEventAt 0x0602 0 (if live then some l else none)
      (le 1 b ++ le 1 i ++ le 1 (h.causes.headD 0) ++ zeros 1 ++ le 4 stop)
      (auditRuns (runOn s b) (fun a => { a with headBlanks := a.headBlanks + 1 }) s2)) := by
  have hgo : ¬((headAt s b i).causes.isEmpty ∨ ((headAt s b i).blank ∧ (headAt s b i).resumeAt = none)) := by
    rintro (hnone | ⟨hblank, hstays⟩)
    · exact hcause (List.isEmpty_iff.mp hnone)
    · rcases hprints with hopen | hresumes
      · rw [hopen] at hblank; cases hblank
      · exact hresumes hstays
  exact congrArg Host.Outcome.next (if_neg hgo)

/-- A blanked head without a cause resumes (R186). -/
theorem headResumed_resumes (hnone : (headAt s b i).causes = []) (hblank : (headAt s b i).blank = true)
    (hstays : (headAt s b i).resumeAt = none) :
    let l := resumeLineOf s b (((barAt s b).table.map fun t => t.slots.getD i {}).getD {})
    exec (.headResumed b i) s = .next (fieldEventAt 0x0603 0 l (le 1 b ++ le 1 i) (pushServe b 3 (l.getD 0)
      (disturb b (l.getD (barPos s b).toNat) (setHead s b i fun h => match l with
        | some y => { h with resumeAt := some y }
        | none => { h with blank := false, outFrom := none, resumeAt := none })))) := by
  have hgo : ¬(!(headAt s b i).causes.isEmpty ∨ !(headAt s b i).blank ∨ (headAt s b i).resumeAt.isSome) := by
    rw [hnone, hblank, hstays]; decide
  exact congrArg Host.Outcome.next (if_neg hgo)

end Heads

/-! ### Line sequencers -/

section Sequencers

variable {s : State}

/-- While both sequencers run and no test is under way, the item that differs is tested (R216). -/
theorem lsMismatch_tests (b : Fin 8) (dev : SeqDev) (hboth : s.bench.lsRemoved = false) (hformer : s.bench.lsFormerTest = false)
    (hidle : s.bench.lsTest = none) :
    exec (.lsMismatch b dev) s = .next { s with bench := { s.bench with
      lsDev := dev, lsTest := (seqItem s b dev).map fun item => (item, b.val) } } := by
  have hgo : ¬(s.bench.lsRemoved ∨ s.bench.lsFormerTest ∨ s.bench.lsTest.isSome) := by
    rw [hboth, hformer, hidle]; decide
  exact congrArg Host.Outcome.next (if_neg hgo)

/-- The sequencer that compares passes: it takes over from the driving one (R217). -/
theorem lsbTestDone_takes_over {item b : Nat} (htest : s.bench.lsTest = some (item, b)) :
    exec (.lsbTestDone true) s = .next (sequencerTakeover (fieldEventAt 0x070B 0 (some (runPos s 0))
      (le 1 item ++ le 1 b ++ le 1 (flag s.bench.lsbActive)) s)) := by
  simp only [exec, execLsbTestDone, htest, if_true]

/-- The verdict on the sequencer that no longer drives: it compares again, or is removed (R217, R513). -/
theorem lsbTestDone_former (hidle : s.bench.lsTest = none) (hformer : s.bench.lsFormerTest = true) :
    exec (.lsbTestDone true) s = .next { s with bench := { s.bench with lsFormerTest := false, lsDev := {} } } ∧
    exec (.lsbTestDone false) s = .next (domainOff (if s.bench.lsbActive then 17 else 18)
      { s with bench := { s.bench with lsFormerTest := false, lsRemoved := true } }) := by
  constructor <;>
    simp only [exec, execLsbTestDone, hidle, hformer, Bool.not_true, Bool.false_eq_true, if_false, if_true]

/-- While both sequencers run, the other one issues the marker of a stopped one and drives (R513). -/
theorem lsaStop_replaced (b : Fin 8) (hboth : s.bench.lsRemoved = false) (hformer : s.bench.lsFormerTest = false) :
    exec (.lsaStop b) s = .next (fireNext b (sequencerTakeover s)) := by
  have hgo : ¬(s.bench.lsRemoved ∨ s.bench.lsFormerTest) := by
    rw [hboth, hformer]; decide
  exact congrArg Host.Outcome.next (if_neg hgo)

end Sequencers

/-- Settles O11: each clause is the lemma of its event; what a bar driver reports is taken under no condition. -/
theorem benchServiceComplete : Obligations.BenchServiceComplete :=
  ⟨fun _ c _ => benchFault_declares c, fun _ _ _ _ => spareTakeover_serves,
    fun slot _ _ _ _ => shadowMismatch_condemns slot, fun _ _ _ _ => rotationPeriod_rotates,
    fun _ _ _ => benchTestDone_verdict, fun _ _ _ => spareLoadDone_shadows, fun _ _ _ _ _ => rfl, fun _ _ _ => rfl,
    fun _ _ _ _ => headReportMissing_blanks, fun _ _ _ => headLost_rejected, fun _ _ _ _ => rfl,
    fun _ _ _ => headBlanked_blanks, fun _ _ _ => headResumed_resumes, fun b dev _ => lsMismatch_tests b dev,
    fun _ _ _ => lsbTestDone_takes_over, fun _ => lsbTestDone_former, fun b _ => lsaStop_replaced b⟩

end Sys2Proof.BenchProofs
end

section
/-! SUPPORT. The geometry and head operations (O9): the checks of each body pass, one lemma per message. -/

namespace Sys2Proof.BenchProofs

open Sys2Proof Sys2Proof.Machine Sys2Proof.Laws Sys2Proof.CompletionProofs Sys2Proof.ObjectProofs

section Geometry

variable {m : Msg} {s : State} {t : BarTable}

/-- A table that breaks no rule of R165 is committed, and the heads of its present slots are checked (R172, R189). -/
theorem barGeomCommit_completes (ha : admitted opBarGeomCommit m s = true) :
    let b := byteAt m.payload 0
    let t := stagedTable (barAt s b) (u32 m.payload 4)
    commitRefusal (s.objs.channels.live.any fun e => e.2.bar == b) t = none →
    let s1 := setBar s b fun bar => { bar with
      table := some t, staged := [], ramps := ⟨[], [], none⟩, heads := bar.heads.map (fun h => { h with serial := none }) }
    Completes (.barGeomCommit m) opBarGeomCommit m s
      { state := (presentSlots t).foldl (fun s e => judgeHead b e.1 s) (pushServe b 2 0 (pushServe b 0 0 s1)) } := by
  intro b t hsound
  refine completes_of_body rfl ha ?_
  simp only [opBarGeomCommit]
  rw [hsound]
  rfl

/-- Enables are written where no bar enabled lacks a committed table (R183, R191). -/
theorem barFireEnable_completes (ha : admitted opBarFireEnable m s = true) :
    let mask := byteAt m.payload 0
    let value := byteAt m.payload 1
    (∀ b < 8, bit mask b = true → bit value b = true → (barAt s b).table.isSome = true) →
    Completes (.barFireEnable m) opBarFireEnable m s { state := noteFireEn 0 s { s with
      bars := s.bars.zipIdx.map fun e => if bit mask e.2 then { e.1 with enable := bit value e.2 } else e.1 } } := by
  intro mask value htables
  have hcheck : ((List.range 8).all fun b => !(bit mask b && bit value b) || (barAt s b).table.isSome) = true := by
    refine List.all_eq_true.mpr fun b hb => ?_
    cases hon : bit mask b && bit value b with
    | false => rfl
    | true =>
      obtain ⟨hmask, hvalue⟩ := Bool.and_eq_true_iff.mp hon
      exact htables b (List.mem_range.mp hb) hmask hvalue
  exact completes_of_body rfl ha (require_bind hcheck _)

section Committed

variable (ht : (barAt s (byteAt m.payload 0)).table = some t)

include ht

/-- Width, counts, delay needs, blanked heads and the state of the bar's driver (R170). -/
theorem barQuery_completes (ha : admitted opBarQuery m s = true) :
    ∃ b : Bytes, b.length = 48 ∧ Completes (.barQuery m) opBarQuery m s { state := s, payload := b } := by
  refine ⟨_, ?_, completes_of_body rfl ha (orErr_bind ht _)⟩
  simp only [List.length_append, le_length, zeros_length]

/-- State, causes, temperature, skew and the delays of 8 rows, then the head's record (R169). -/
theorem headQuery_completes (ha : admitted opHeadQuery m s = true) :
    ∃ b : Bytes, b.length = 112 ∧ Completes (.headQuery m) opHeadQuery m s { state := s, payload := b } := by
  refine ⟨_, ?_, completes_of_body rfl ha (orErr_bind ht _)⟩
  simp only [List.length_append, List.length_flatMap, le_length, leS_length, zeros_length, fit_length,
    List.map_const', List.sum_replicate_nat, List.length_map, List.length_range]
  split
  · simp only [le_length]
  · simp only [leS_length]

theorem headBlank_completes (ha : admitted opHeadBlank m s = true) :
    Completes (.headBlank m) opHeadBlank m s
      { state := (namedSlots t (u32 m.payload 4)).foldl (fun s h => withCauses (byteAt m.payload 0) h (7 :: ·) s) s } :=
  completes_of_body rfl ha (orErr_bind ht _)

/-- The head of a slot with cause 5 is accepted with the serial it reports (R173). -/
theorem headUnblank_completes (ha : admitted opHeadUnblank m s = true) :
    Completes (.headUnblank m) opHeadUnblank m s
      { state := ((List.range 32).filter (bit (u32 m.payload 4))).foldl (fun s i =>
        withCauses (byteAt m.payload 0) i (fun l => l.filter fun c => c != 5 && c != 7)
          (if (headAt s (byteAt m.payload 0) i).causes.contains 5 then
            setHead s (byteAt m.payload 0) i fun h => { h with
              accepted := true, serial := some (slice (h.record.getD []) 4 16)
              reportAt := some (h.reportAt.getD s.time.clock) }
          else s)) s } :=
  completes_of_body rfl ha (orErr_bind ht _)

theorem headBandMap_completes (ha : admitted opHeadBandMap m s = true) :
    Completes (.headBandMap m) opHeadBandMap m s
      { state := ((List.range 32).filter (bit (u32 m.payload 4))).foldl (fun s i =>
        setHead s (byteAt m.payload 0) i fun h => { h with
          bounds := (List.range 7).map fun k => s16 m.payload (8 + 2 * k)
          waves := (List.range 8).map fun k => byteAt m.payload (22 + k) }) s } :=
  completes_of_body rfl ha (orErr_bind ht _)

end Committed

end Geometry

/-- Settles O9: each clause is the lemma of its message; bar.geom_write checks nothing of its own. -/
theorem geometryComplete : Obligations.GeometryComplete :=
  ⟨fun _ _ ha => completes_of_body rfl ha rfl, fun _ _ => barGeomCommit_completes,
    fun _ _ _ ha ht => barQuery_completes ht ha, fun _ _ _ ha ht => headQuery_completes ht ha,
    fun _ _ _ ha ht => headBlank_completes ht ha, fun _ _ _ ha ht => headUnblank_completes ht ha,
    fun _ _ _ ha ht => headBandMap_completes ht ha, fun _ _ => barFireEnable_completes⟩

end Sys2Proof.BenchProofs
end

section
/-! SUPPORT. The pos operations (O12): the checks of each body pass, one lemma per message; lines that Φ is set past leave the
position. -/

namespace Sys2Proof.PositionProofs

open Sys2Proof Sys2Proof.Machine Sys2Proof.Laws Sys2Proof.CompletionProofs Sys2Proof.ObjectProofs

/-! ### Lines that Φ is set past -/

section Skipped

variable (s : State)

@[simp] theorem itemsOnLine_pos (b n : Nat) (p : Item → Bool) (f : Item → Item) :
    (itemsOnLine b n p f s).pos = s.pos := by
  unfold itemsOnLine
  split
  · rfl
  · refine foldl_keeps (g := State.pos) (fun t slot => ?_) _ s
    exact foldl_keeps (g := State.pos) (f := fun t q => setItem slot q f t) (fun _ _ => rfl) _ t

@[simp] theorem loseFireLine_pos (b n : Nat) : (loseFireLine b n s).pos = s.pos := itemsOnLine_pos ..

@[simp] theorem skipLines_pos : (skipLines s).pos = s.pos := by
  refine foldl_keeps (g := State.pos) (fun t b => ?_) _ s
  dsimp only
  split
  · rfl
  · exact foldl_keeps (g := State.pos) (fun _ _ => loseFireLine_pos ..) _ t

theorem setLine_phi32 (line : Nat) : (setLine line s).pos.phi32 = (line : Int) * 2 ^ 32 := by
  simp only [setLine, camerasBack, shiftMarks, skipLines_pos]

end Skipped

/-! ### The messages -/

section Messages

variable {m : Msg} {s : State}

/-- An input is configured unless a run depends on it as the web source (R233). -/
theorem posEncoderConfig_completes (ha : admitted opPosEncoderConfig m s = true)
    (hfree : (webInput s (byteAt m.payload 0) && anyActive s) = false) :
    Completes (.posEncoderConfig m) opPosEncoderConfig m s
      { state := setEnc s (byteAt m.payload 0) fun e => { e with
          mode := byteAt m.payload 1, filter := byteAt m.payload 2
          invert := bit (byteAt m.payload 3) 0, term := bit (byteAt m.payload 3) 1 } } :=
  completes_of_body rfl ha (require_bind (by rw [hfree]; rfl) _)

/-- In a run, source, role and ratio stay; outside every run all may change (R233). -/
theorem posTrackConfig_completes (ha : admitted opPosTrackConfig m s = true) :
    let b := m.payload
    anyActive s = false ∨ s.pos.configured = true ∧ s.pos.source = byteAt b 0 ∧ s.pos.role = byteAt b 1 ∧
      s.pos.num = u48 b 8 ∧ s.pos.den = u48 b 14 →
    let s1 := retrack (byteAt b 0) (byteAt b 1) (u48 b 8) (u48 b 14) s
    Completes (.posTrackConfig m) opPosTrackConfig m s
      { state := { s1 with pos := { s1.pos with
          hyst := byteAt b 2, speedAvg := byteAt b 3, standstillMs := u16 b 4, bandwidth := u16 b 6
          lagLimit := byteAt b 20, wordEvery8 := byteAt b 21 == 1 } } } := by
  intro b hallowed s1
  have hcheck : (s.pos.configured && s.pos.source == byteAt b 0 && s.pos.role == byteAt b 1 && s.pos.num == u48 b 8 &&
      s.pos.den == u48 b 14 || !anyActive s) = true := by
    rcases hallowed with hidle | ⟨hconf, hsource, hrole, hnum, hden⟩
    · rw [hidle]; exact Bool.or_true _
    · simp only [hconf, hsource, hrole, hnum, hden, beq_self_eq_true, Bool.and_self, Bool.true_or]
  exact completes_of_body rfl ha (require_bind hcheck _)

/-- The web position with its flags, then the counts of the inputs, and the trims and missed lines of the bars. -/
theorem posQuery_completes (ha : admitted opPosQuery m s = true) :
    ∃ b : Bytes, b.length = 48 + 12 * s.pos.enc.length + 6 * s.bars.length ∧
      Completes (.posQuery m) opPosQuery m s { state := s, payload := b } := by
  refine ⟨_, ?_, completes_of_body rfl ha rfl⟩
  simp only [List.length_append, List.length_flatMap, le_length, leS_length, zeros_length, List.map_const',
    List.sum_replicate_nat]
  omega

theorem posSet_completes (ha : admitted opPosSet m s = true) (hconf : s.pos.configured = true) (hrole : s.pos.role ≠ 2)
    (hidle : anyActive s = false) (hcompare : webCompareArmed s = false) :
    Completes (.posSet m) opPosSet m s { state := setLine (u48 m.payload 0) s } := by
  have hcheck : (s.pos.configured && s.pos.role != 2 && !anyActive s && !webCompareArmed s) = true := by
    rw [hconf, hidle, hcompare, bne_iff_ne.mpr hrole]; rfl
  exact completes_of_body rfl ha (require_bind hcheck _)

/-- The fault of each input that froze Φ ends with its event, and the high-water count moves to the raw count (R235). -/
theorem posFaultClear_completes (ha : admitted opPosFaultClear m s = true) (hgone : faultStands s = false) :
    let c := (encAt s s.pos.source).count
    let s1 := s.pos.frozenBy.foldl (fun s i =>
      faultEvent i 3 (setEnc s i fun e => { e with absentSince := none, illegalAt := [] }))
      { s with pos := { s.pos with slip := false } }
    Completes (.posFaultClear m) opPosFaultClear m s
      (if s.pos.frozen = true then
        { state := { s1 with pos := { s1.pos with
            frozen := false, frozenBy := [], theta0 := theta s.pos, high := c, h0 := c, inDebt := false, maxDebt := 0 } } }
       else { state := { s with pos := { s.pos with slip := false } } }) := by
  intro c s1
  refine completes_of_body rfl ha ?_
  simp only [opPosFaultClear]
  rw [require_bind (by rw [hgone]; rfl)]
  by_cases hfrozen : s.pos.frozen = true
  · rw [if_pos hfrozen, if_neg (by simp [hfrozen])]
    rfl
  · rw [if_neg hfrozen, if_pos (by simp [hfrozen])]
    rfl

end Messages

/-- Settles O12: each clause is the lemma of its message; pos.trim, pos.mark_config and pos.emu_config check nothing of their
own. -/
theorem positionComplete : Obligations.PositionComplete :=
  ⟨fun _ _ => posEncoderConfig_completes, fun _ _ => posTrackConfig_completes, fun _ _ => posQuery_completes,
    fun _ s ha hconf hrole hidle hcompare => ⟨posSet_completes ha hconf hrole hidle hcompare, setLine_phi32 s _⟩,
    fun _ _ ha => completes_of_body rfl ha rfl, fun _ _ ha => completes_of_body rfl ha rfl,
    fun _ _ ha => completes_of_body rfl ha rfl, fun _ _ => posFaultClear_completes⟩

end Sys2Proof.PositionProofs
end

section
/-! SUPPORT. The compare operations (O13): the checks of each body pass, one lemma per message. -/

namespace Sys2Proof.PositionProofs

open Sys2Proof Sys2Proof.Machine Sys2Proof.Laws Sys2Proof.CompletionProofs Sys2Proof.ObjectProofs

section Compares

variable {m : Msg} {s : State} {t : Trigger}

theorem cmpCreate_completes {i : Nat} {l : ObjTable Trigger} (ha : admitted opCmpCreate m s = true) :
    let b := m.payload
    s.objs.triggers.create { kind := .compare (byteAt b 0) (byteAt b 1) (byteAt b 2) (bit (byteAt b 3) 0)
                               (bit (byteAt b 3) 1) (byteAt b 4) (u16 b 6) (s64 b 8) (u32 b 16)
                             armed := false, value := 0, hits := 0, armHits := 0, skipped := 0, lastHit := 0
                             next16 := 0, eventAts := [] } = some (i, l) →
    Completes (.cmpCreate m) opCmpCreate m s
      { state := { s with objs := { s.objs with triggers := l } }, handle := some (l.handle tyTrigger i) } :=
  fun hcreate => completes_of_body rfl ha (orErr_bind hcreate _)

/-- An operation in time under a condition answers OK, else LATE with another state left. -/
theorem hit_or_late (c : Prop) [Decidable c] (t u : State) (b : Bytes) :
    (if c then okState t else okLate u b) =
      .ok (if c then { state := t } else { state := u, status := stLate, payload := b }) := by
  split <;> rfl

/-- A value ahead waits; one that is not hits at once, LATE unless it is the present position itself (R219). -/
theorem cmpArm_completes {source input dir out us repeats : Nat} {event pulse : Bool} {period : Int}
    (ha : admitted opCmpArm m s = true) (ht : triggerOf s m.handle = some t)
    (hkind : t.kind = .compare source input dir event pulse out us period repeats) :
    let v := s64 m.payload 0
    let s1 := setTrigger s m.handle fun t => { t with armed := true, value := v, armHits := 0 }
    (lateness s source input dir v = none → Completes (.cmpArm m) opCmpArm m s { state := s1 }) ∧
    (∀ late, lateness s source input dir v = some late →
      Completes (.cmpArm m) opCmpArm m s
        (if v = comparePos s source input then { state := compareHit (hIdx m.handle) none s1 }
         else { state := compareHit (hIdx m.handle) (some late) s1, status := stLate, payload := le 6 late })) := by
  intro v s1
  refine ⟨fun hahead => completes_of_body rfl ha ?_, fun late hlate => completes_of_body rfl ha ?_⟩
  all_goals
    simp only [opCmpArm]
    rw [orErr_bind ht, hkind]
    dsimp only
  · rw [hahead]
    rfl
  · rw [hlate]
    exact hit_or_late (v = comparePos s source input) _ _ _

theorem cmpDestroy_completes (ha : admitted opCmpDestroy m s = true) (ht : triggerOf s m.handle = some t)
    (hoff : t.armed = false) : Completes (.cmpDestroy m) opCmpDestroy m s
      { state := { s with objs := { s.objs with triggers := s.objs.triggers.release (hIdx m.handle) } } } := by
  refine completes_of_body rfl ha ?_
  simp only [opCmpDestroy]
  rw [orErr_bind ht, require_bind (by rw [hoff]; rfl)]
  rfl

/-- Armed or not, hits, value and the time of the last hit (R236). -/
theorem cmpQuery_completes (ha : admitted opCmpQuery m s = true) (ht : triggerOf s m.handle = some t) :
    ∃ b : Bytes, b.length = 28 ∧ Completes (.cmpQuery m) opCmpQuery m s { state := s, payload := b } := by
  refine ⟨_, ?_, completes_of_body rfl ha (orErr_bind ht _)⟩
  simp only [List.length_append, le_length, leS_length, zeros_length]

end Compares

/-- Settles O13: each clause is the lemma of its message; cmp.disarm checks nothing of its own, and a pulse ends under no
condition but its own end. -/
theorem compareComplete : Obligations.CompareComplete :=
  ⟨fun _ _ _ _ => cmpCreate_completes, fun _ _ _ _ _ _ _ _ _ _ _ _ => cmpArm_completes,
    fun _ _ ha => completes_of_body rfl ha rfl, fun _ _ _ => cmpDestroy_completes, fun _ _ _ => cmpQuery_completes,
    fun _ _ => rfl⟩

end Sys2Proof.PositionProofs
end

section
/-! SUPPORT. The encoder inputs, the loop, marks, emulated outputs and the cascade (O14): what each event does under the
conditions of its rule. -/

namespace Sys2Proof.PositionProofs

open Sys2Proof Sys2Proof.Machine

/-! ### Encoder inputs -/

section Inputs

variable {s : State}

/-- The filters of A and B after a burst of samples (R193). -/
def filtered (i : Nat) (a b : Bool) (n : Nat) (s : State) : State :=
  setEnc s i fun e => { e with a := feed e.filter a n e.a, b := feed e.filter b n e.b }

section Bursts

variable {i : Fin 4} {a b : Bool} {n x y : Nat}

theorem encoderCount_unaccepted (ha : acceptAt (encAt s i).filter (encAt s i).a a n = none)
    (hb : acceptAt (encAt s i).filter (encAt s i).b b n = none) :
    exec (.encoderCount i a b n) s = .next (filtered i a b n s) := by
  simp only [exec, execEncoderCount, ha, hb, filtered]

theorem encoderCount_edge_of_a (ha : acceptAt (encAt s i).filter (encAt s i).a a n = some x)
    (hb : acceptAt (encAt s i).filter (encAt s i).b b n = none) :
    exec (.encoderCount i a b n) s = .next (takeEdge i true a (encAt s i).b.level (filtered i a b n s)) := by
  simp only [exec, execEncoderCount, ha, hb, filtered]

theorem encoderCount_edge_of_b (ha : acceptAt (encAt s i).filter (encAt s i).a a n = none)
    (hb : acceptAt (encAt s i).filter (encAt s i).b b n = some x) :
    exec (.encoderCount i a b n) s = .next (takeEdge i false (encAt s i).a.level b (filtered i a b n s)) := by
  simp only [exec, execEncoderCount, ha, hb, filtered]

theorem encoderCount_same_sample (ha : acceptAt (encAt s i).filter (encAt s i).a a n = some x)
    (hb : acceptAt (encAt s i).filter (encAt s i).b b n = some x) :
    exec (.encoderCount i a b n) s = .next (takeIllegal i (filtered i a b n s)) := by
  simp only [exec, execEncoderCount, ha, hb, filtered, if_true]

theorem encoderCount_a_before_b (ha : acceptAt (encAt s i).filter (encAt s i).a a n = some x)
    (hb : acceptAt (encAt s i).filter (encAt s i).b b n = some y) (hxy : x < y) :
    exec (.encoderCount i a b n) s =
      .next (takeEdge i false a b (takeEdge i true a (encAt s i).b.level (filtered i a b n s))) := by
  simp only [exec, execEncoderCount, ha, hb, filtered, if_neg (Nat.ne_of_lt hxy), if_pos hxy]

end Bursts

/-- An edge that the input's mode counts: the web source and the compares on the input follow its new count (R194, R197,
R218). -/
theorem takeEdge_counts {i : Nat} {aEdge a b : Bool} (hd : edgeCount (encAt s i) aEdge a b ≠ 0) :
    let e := encAt s i
    let d := edgeCount e aEdge a b
    let c := toSigned 48 (ofSigned 48 (e.count + d))
    let s1 := setEnc s i fun e => { e with count := c, steps := e.steps + 1 }
    takeEdge i aEdge a b s = checkCounts i e.count c (if webInput s i then webCount d c s1 else s1) :=
  if_neg hd

theorem zEdge_captures {i : Fin 4} {n : Nat} (hmode : (encAt s i).mode ≠ 0)
    (haccept : acceptAt (encAt s i).filter (encAt s i).z true n ≠ none) :
    exec (.zEdge i true n) s = .next (setEnc (setEnc s i fun e => { e with z := feed e.filter true n e.z }) i fun e =>
      { e with zCount := e.count, zTime := s.time.field, zEdges := e.zEdges + 1 }) := by
  have hgo : ¬((encAt s i).mode = 0 ∨ (!true) = true ∨ acceptAt (encAt s i).filter (encAt s i).z true n = none) := by
    simp [hmode, haccept]
  exact congrArg Host.Outcome.next (if_neg hgo)

/-- A cause that appears is told, and freezes Φ where the input is the web source (R196). -/
theorem encFault_appears {i : Fin 4} {illegal : Bool} (hmode : (encAt s i).mode ≠ 0)
    (hnew : hasCause illegal (encAt s i) = false) (hmany : illegal = true → manyIllegal (encAt s i) = true) :
    let s1 := setEnc s i fun e => { withCause illegal true e with absentSince := none }
    exec (.encFault i illegal false) s = .next (posEvent 0x0701 0
      (le 1 i ++ le 1 (if illegal then 2 else 1) ++ le 1 (flag (webInput s i)))
      (if webInput s i then { s1 with pos := { s1.pos with
        frozen := true, frozenBy := i.val :: s1.pos.frozenBy.filter (· != i.val) } } else s1)) := by
  intro s1
  have hgo : ¬((encAt s i).mode = 0 ∨ (illegal = true ∧ (!manyIllegal (encAt s i)) = true) ∨
      hasCause illegal (encAt s i) = true) := by
    rintro (hoff | ⟨hillegal, hfew⟩ | hold)
    · exact hmode hoff
    · rw [hmany hillegal] at hfew; cases hfew
    · rw [hnew] at hold; cases hold
  have hweb : webInput (if webInput s i then freezeFor i s1 else s1) i = webInput s i := by
    split <;> rfl
  refine congrArg Host.Outcome.next ((if_neg hgo).trans ?_)
  rw [faultEvent, hweb]
  rfl

/-- The last cause absent: the fault of an input that froze nothing ends, that of one that did starts its 10 ms (R196). -/
theorem encFault_clears {i : Fin 4} {illegal : Bool} (hcause : hasCause illegal (encAt s i) = true)
    (hlast : faulty (withCause illegal false (encAt s i)) = false) :
    let s1 := setEnc s i (withCause illegal false)
    exec (.encFault i illegal true) s = .next
      (if freezes s i then setEnc s1 i fun e => { e with absentSince := some s.time.clock } else faultEvent i 3 s1) := by
  simp only [exec, execEncFault, hcause, hlast, if_true, Bool.not_true, Bool.false_eq_true, if_false]

theorem standstill_declared {t : Nat} {l : List Nat} (hstamps : s.pos.stamps = t :: l) (hconf : s.pos.configured = true)
    (hrole : s.pos.role ≠ 2) (hmoving : s.pos.still = false) (hlong : t + 1000000 * s.pos.standstillMs ≤ s.time.clock) :
    exec .standstill s =
      .next (posEvent 0x0704 0 (zeros 8) { s with pos := { s.pos with still := true, stamps := [] } }) := by
  simp only [exec, execStandstill, hstamps]
  exact congrArg Host.Outcome.next (if_pos ⟨hconf, hrole, by rw [hmoving]; rfl, hlong⟩)

end Inputs

/-! ### The loop, marks and emulated outputs -/

section Loop

variable {s : State}

theorem loopUpdate_advances (hdue : s.pos.loopAt + 1000 ≤ s.time.clock) :
    exec .loopUpdate s = .next ((List.range 8).foldl (fun s b => tellMissed b s) ([0, 1].foldl markMissed (checkPositions
      (loopStep { s with pos := { s.pos with loopAt := s.pos.loopAt + 1000 } })))) :=
  congrArg Host.Outcome.next (if_neg (Nat.not_lt.mpr hdue))

/-- An accepted mark edge is reported; one within its window sets what is ignored and expected next (R222, R223). -/
theorem mark_reported {k : Fin 2} {falling : Bool} {held : Nat} :
    let s0 := markMissed s k
    let m := markAt s0 k
    let pos := thetaMark s0
    m.enable = true → m.falling = falling → m.filterUs ≤ held → (∀ l : Int, m.ignoreTo = some l → l ≤ pos) →
    let stray := m.window && m.halfWidth < distInt pos m.expect
    let s1 := markEvent k pos (flag stray + 4 * flag s0.pos.inDebt) s0
    exec (.mark k falling held) s = .next (if stray then s1 else setMark s1 k fun m =>
      { m with ignoreTo := some (pos + 64 * (m.maskLines : Int)), passed := false
               expect := if m.window && !s0.pos.inDebt then pos.toNat + m.pitch else m.expect }) := by
  intro s0 m pos henable hfalling hheld hpast stray s1
  refine congrArg Host.Outcome.next (if_neg ?_)
  rintro (hoff | hother | hshort | hmasked)
  · rw [henable] at hoff; cases hoff
  · exact hother hfalling
  · exact Nat.not_lt.mpr hheld hshort
  · split at hmasked
    next l hl => exact Int.not_lt.mpr (hpast l hl) (of_decide_eq_true hmasked)
    next => cases hmasked

theorem modAt_congr {α : Type} {l : List α} {i : Nat} {f g : α → α} (h : ∀ a, l[i]? = some a → f a = g a) :
    modAt l i f = modAt l i g := by
  refine List.ext_getElem? fun j => ?_
  simp only [modAt, List.getElem?_modify]
  cases hj : l[j]? with
  | none => rfl
  | some a =>
    by_cases hij : i = j
    · subst hij
      simp only [if_true, Option.map_eq_map, Option.map_some, h a hj]
    · simp only [if_neg hij]

/-- What an output becomes depends on what it is. -/
theorem setEmu_congr {k : Nat} {f g : EmuOut → EmuOut} (h : f (emuAt s k) = g (emuAt s k)) : setEmu s k f = setEmu s k g := by
  have hmod : modAt s.pos.emus k f = modAt s.pos.emus k g := modAt_congr fun o ho => by
    have hat : emuAt s k = o := by rw [emuAt, List.getD_eq_getElem?_getD, ho, Option.getD_some]
    rw [← hat, h]
  rw [setEmu, setEmu, hmod]

/-- With no more than 4,096 counts owed there is no overrun to report: the output turns by one count (R224, R225). -/
theorem emuEdge_turns {k : Fin 4} (hfew : (emuOwed s (emuAt s k)).natAbs ≤ 4096) (howed : emuOwed s (emuAt s k) ≠ 0)
    (hdue : due (emuAt s k).edgeAt (emuAt s k).minEdge s.time.clock = true) :
    let owed := emuOwed s (emuAt s k)
    let zNext := emuRepeat (emuAt s k) (encAt s (emuAt s k).input)
    exec (.emuEdge k) s = .next (setEmu s k fun o =>
      let step : Int := if 0 < owed then 1 else -1
      { emuTurn (decide (0 < owed)) o with
        emitted := o.emitted + step, edgeAt := some s.time.clock
        z := if o.source == 1 && o.zPeriod == 0 then o.zEnable && zNext else emuZ o (o.emitted + step)
        zSeen := (encAt s (emuAt s k).input).zEdges }) := by
  intro owed zNext
  have hlate : ¬(decide (4096 < owed.natAbs) && due (emuAt s k).overrunAt 1000000000 s.time.clock) = true := by
    rw [decide_eq_false (Nat.not_lt.mpr hfew)]
    exact Bool.false_ne_true
  simp only [exec, execEmuEdge]
  rw [if_neg hlate]
  simp only [howed, hdue, Bool.not_true, Bool.false_eq_true, false_and, or_self, if_false]
  exact congrArg Host.Outcome.next (setEmu_congr rfl)

end Loop

/-! ### The cascade -/

section Cascade

variable {s t : State} {b : Bytes}

/-- A control block that a lane reads is taken, and the blocks behind it are settled. -/
theorem onBlock_reads {l type : Nat} (f : Bytes → State → State) (hread : ReadsBlock s l type b t) :
    onBlock l type f s = settleRx l (f b t) := by
  obtain ⟨r, hnext, h0, h1, htype, hsettled, rfl, rfl⟩ := hread
  simp only [onBlock, hnext]
  exact if_pos ⟨h0, by rw [h1]; rfl, htype, hsettled⟩

theorem follower_of_readsBlock {l type : Nat} (hread : ReadsBlock s l type b t) : follower t = follower s := by
  obtain ⟨r, -, -, -, -, -, -, rfl⟩ := hread
  rfl

theorem positionWordSend_sends (hconf : s.pos.configured = true) (hrole : s.pos.role = 1)
    (hdue : s.pos.wordAt + 50000 ≤ s.time.clock) :
    exec .positionWordSend s = .next (sendMark 11 2 (positionWord s) { s with pos := { s.pos with
      wordPos := (phi64 s).toNat, wordAt := s.time.clock, wordSeq := (s.pos.wordSeq + 1) % 256 } }) :=
  congrArg Host.Outcome.next (if_pos ⟨hconf, hrole, .inr hdue⟩)

/-- A MARK of class 2 is a position word: with a good CRC it is judged, else it counts as missed (R231, R263). -/
theorem positionWordReceive_judges (hread : ReadsBlock s 22 0x66 b t) (hclass : byteAt b 1 = 2)
    (hfollows : follower s = true) :
    let w := slice b 2 10
    exec .positionWordReceive s = .next (settleRx 22
      (if crcMsb (0x1021#16) (0xFFFF#16) (w.take 8) = BitVec.ofNat 16 (u16 w 8) then validWord w t else missWords 1 t)) := by
  intro w
  have htake : takeWord w t =
      if crcMsb (0x1021#16) (0xFFFF#16) (w.take 8) = BitVec.ofNat 16 (u16 w 8) then validWord w t else missWords 1 t := by
    simp only [takeWord, follower_of_readsBlock hread, hfollows, Bool.not_true, Bool.false_eq_true, if_false, ne_eq, ite_not]
  simp only [exec, execPositionWordReceive]
  rw [onBlock_reads _ hread, if_pos hclass, htake]

theorem cascadeWordTimeout_misses {a : Nat} (hfollows : follower s = true) (hlast : s.pos.rxAt = some a)
    (hlong : a + 100000 ≤ s.time.clock) : exec .cascadeWordTimeout s = .next (missWords 2 s) := by
  simp only [exec, execCascadeWordTimeout, hlast]
  exact congrArg Host.Outcome.next (if_pos ⟨hfollows, hlong⟩)

end Cascade

/-- Settles O14: each clause is the lemma of its event. -/
theorem webInputComplete : Obligations.WebInputComplete :=
  ⟨fun _ _ _ _ _ => ⟨encoderCount_unaccepted, fun _ => encoderCount_edge_of_a, fun _ => encoderCount_edge_of_b,
      fun _ => encoderCount_same_sample, fun _ _ => encoderCount_a_before_b⟩,
    fun _ _ _ _ _ => takeEdge_counts, fun _ _ _ => zEdge_captures, fun _ _ _ => encFault_appears,
    fun _ _ _ => encFault_clears, fun _ _ _ => standstill_declared, fun _ => loopUpdate_advances,
    fun _ _ => emuEdge_turns, fun _ => positionWordSend_sends, fun _ _ _ => positionWordReceive_judges,
    fun _ _ => cascadeWordTimeout_misses, fun _ _ _ _ => mark_reported⟩

end Sys2Proof.PositionProofs
end

section
/-! SUPPORT. The rules of a lane, a link and a received block (O16, O17, O18): what two writes to one make, what a write leaves
to be read, and what the block that a lane reads leaves of the state. -/

namespace Sys2Proof.LinkProofs

open Sys2Proof Sys2Proof.Machine Sys2Proof.PositionProofs

section Writes

variable {s : State}

/-! ### Writes to a lane and to a link -/

/-- One entry changed keeps of every entry what the change keeps. -/
theorem getD_modAt_keeps {α β : Type} {d : α} {f : α → α} {g : α → β} (hg : ∀ a, g (f a) = g a) (l : List α)
    (i j : Nat) : g ((modAt l i f).getD j d) = g (l.getD j d) := by
  simp only [modAt, List.getD_eq_getElem?_getD, List.getElem?_modify]
  cases l[j]? with
  | none => rfl
  | some a =>
    by_cases hij : i = j
    · simp only [hij, if_true, Option.map_eq_map, Option.map_some, Option.getD_some, hg]
    · simp only [hij, if_false, Option.map_eq_map, Option.map_some, Option.getD_some]

/-- What an entry becomes depends on what it is. -/
theorem modAt_congr_getD {α : Type} {l : List α} {i : Nat} {d : α} {f g : α → α} (h : f (l.getD i d) = g (l.getD i d)) :
    modAt l i f = modAt l i g :=
  modAt_congr fun a ha => by
    have hat : l.getD i d = a := by rw [List.getD_eq_getElem?_getD, ha, Option.getD_some]
    rw [← hat, h]

theorem setLane_setLane (l : Nat) (f g : Lane → Lane) :
    setLane (setLane s l f) l g = setLane s l fun x => g (f x) := by
  simp only [setLane, modAt, List.modify_modify_eq]
  rfl

theorem setLink_setLink (k : Nat) (f g : Link → Link) :
    setLink (setLink s k f) k g = setLink s k fun n => g (f n) := by
  simp only [setLink, modAt, List.modify_modify_eq]
  rfl

theorem setLane_congr {l : Nat} {f g : Lane → Lane} (h : f (laneAt s l) = g (laneAt s l)) :
    setLane s l f = setLane s l g := by
  rw [setLane, setLane, modAt_congr_getD h]

theorem setLink_congr {k : Nat} {f g : Link → Link} (h : f (linkAt s k) = g (linkAt s k)) :
    setLink s k f = setLink s k g := by
  rw [setLink, setLink, modAt_congr_getD h]

end Writes

/-! ### What depends on the links alone -/

section Places

variable {s t : State} (h : t.sett.links = s.sett.links)

include h

theorem linkAt_of_links (k : Nat) : linkAt t k = linkAt s k := by rw [linkAt, h, linkAt]

theorem lanePhase_of_links (l : Nat) : lanePhase t l = lanePhase s l := by
  simp only [lanePhase, trainGroup, ownLane, linkAt_of_links h]

theorem servedLink_of_links (l : Nat) : servedLink t l = servedLink s l := by
  simp only [servedLink, linkAt_of_links h]

theorem laneFor_of_links (k i : Nat) : laneFor t k i = laneFor s k i := by
  simp only [laneFor, ownLane, linkAt_of_links h]

theorem logicalOf_of_links (l : Nat) : logicalOf t l = logicalOf s l := by
  simp only [logicalOf, servedLink_of_links h, laneFor_of_links h]

end Places

/-! ### A block that a lane reads -/

section Blocks

variable {s t : State} {b : Bytes} {l type : Nat}

theorem links_of_readsBlock (hread : ReadsBlock s l type b t) : t.sett.links = s.sett.links := by
  obtain ⟨r, -, -, -, -, -, -, rfl⟩ := hread
  rfl

theorem clock_of_readsBlock (hread : ReadsBlock s l type b t) : t.time.clock = s.time.clock := by
  obtain ⟨r, -, -, -, -, -, -, rfl⟩ := hread
  rfl

/-- A block taken changes only the queue and the descrambler of its lane. -/
theorem laneAt_of_readsBlock {β : Type} {g : Lane → β} (hread : ReadsBlock s l type b t)
    (hg : ∀ (x : Lane) rx scr, g { x with rx := rx, rxScr := scr } = g x) (i : Nat) : g (laneAt t i) = g (laneAt s i) := by
  obtain ⟨r, -, -, -, -, -, -, rfl⟩ := hread
  exact getD_modAt_keeps (fun x => hg x _ _) ..

/-- A row that answers a received control block sees one where the lane reads a block of that type. -/
theorem next_of_readsBlock (hread : ReadsBlock s l type b t) :
    ((laneAt s l).next?.any fun r => r.h0 && !r.h1 && byteAt r.payload 0 == type) = true := by
  obtain ⟨r, hnext, h0, h1, htype, -⟩ := hread
  simp only [hnext, Option.any_some, h0, h1, htype, beq_self_eq_true, Bool.not_false, Bool.and_self]

end Blocks

end Sys2Proof.LinkProofs
end

section
/-! SUPPORT. The sett operations (O15): the checks of each body pass, one lemma per message. -/

namespace Sys2Proof.LinkProofs

open Sys2Proof Sys2Proof.Machine Sys2Proof.Laws Sys2Proof.CompletionProofs Sys2Proof.ObjectProofs

section Messages

variable {m : Msg} {s : State}

/-- What sett.config writes of a link whatever becomes of its state (R276). -/
def reconfigured (m : Msg) (s : State) : State :=
  let b := m.payload
  let k := byteAt b 0
  setLink s k fun n => { n with
    rateCfg := if k < 12 then byteAt b 1 else (linkAt s k).rateCfg
    spareBar := if k < 12 then none else if byteAt b 3 = 0xFF then none else some (byteAt b 3)
    configured := n.configured || bit (byteAt b 2) 0 }

/-- Neither check of sett.config on a use stops one of a link that nothing uses (R276). -/
theorem unused_bind {k : Nat} {p q : Bool} {e : OpErr} (hidle : linkInUse s k = false) (hspare : spareInUse s k = false)
    (r : OpResult) :
    (do require (!(linkInUse s k && p)) e; require (!(spareInUse s k && q)) e; r) = r := by
  rw [require_bind (by rw [hidle]; rfl), require_bind (by rw [hspare]; rfl)]

section Config

variable (ha : admitted opSettConfig m s = true) (hidle : linkInUse s (byteAt m.payload 0) = false)
  (hspare : spareInUse s (byteAt m.payload 0) = false)

include ha hidle hspare

theorem settConfig_stays_disabled (hoff : (linkAt s (byteAt m.payload 0)).state = .disabled)
    (hclear : bit (byteAt m.payload 2) 0 = false) :
    Completes (.settConfig m) opSettConfig m s { state := reconfigured m s } := by
  refine completes_of_body rfl ha ((unused_bind hidle hspare _).trans ?_)
  rw [if_pos (by rw [hclear]; rfl), if_neg (by rw [hoff]; decide)]
  rfl

theorem settConfig_enables (hoff : (linkAt s (byteAt m.payload 0)).state = .disabled)
    (hset : bit (byteAt m.payload 2) 0 = true) :
    let k := byteAt m.payload 0
    Completes (.settConfig m) opSettConfig m s
      { state := startPass k none (setLink (reconfigured m s) k fun n => { n with offlineTold := false }) } := by
  refine completes_of_body rfl ha ((unused_bind hidle hspare _).trans ?_)
  rw [if_neg (by rw [hset]; decide), if_pos (by rw [hoff]; decide)]
  rfl

theorem settConfig_disables (hon : (linkAt s (byteAt m.payload 0)).state ≠ .disabled)
    (hclear : bit (byteAt m.payload 2) 0 = false) :
    let k := byteAt m.payload 0
    Completes (.settConfig m) opSettConfig m s
      { state := linkEvent k 0 (setLink (leaveActive k (reconfigured m s)) k fun n =>
          { n with state := .disabled, pass := false, deferred := false, lanePass := none }) } := by
  refine completes_of_body rfl ha ((unused_bind hidle hspare _).trans ?_)
  rw [if_pos (by rw [hclear]; rfl), if_pos (bne_iff_ne.mpr hon)]
  rfl

/-- An enabled link trains anew at another rate (R249). -/
theorem settConfig_new_rate (hon : (linkAt s (byteAt m.payload 0)).state ≠ .disabled)
    (hset : bit (byteAt m.payload 2) 0 = true) :
    let k := byteAt m.payload 0
    let rate := if k < 12 then byteAt m.payload 1 else (linkAt s k).rateCfg
    rate ≠ (linkAt s k).rateCfg →
    Completes (.settConfig m) opSettConfig m s { state := requestPass k (reconfigured m s) } := by
  intro k rate hrate
  have hwas : ((linkAt s k).state != .disabled) = true := bne_iff_ne.mpr hon
  refine completes_of_body rfl ha ((unused_bind hidle hspare _).trans ?_)
  rw [if_neg (by rw [hset]; decide), if_neg (by rw [hwas]; decide),
    if_pos (by rw [hwas, hset, bne_iff_ne.mpr hrate]; rfl)]
  rfl

end Config

/-- The record of a link and of its two lanes (R276). -/
theorem settQuery_completes (ha : admitted opSettQuery m s = true)
    (hpartner : (linkAt s (byteAt m.payload 0)).partner.length = 16) (heye : ∀ l, (laneAt s l).partnerEye.length = 8) :
    ∃ b : Bytes, b.length = 96 ∧ Completes (.settQuery m) opSettQuery m s { state := s, payload := b } := by
  refine ⟨_, ?_, completes_of_body rfl ha rfl⟩
  simp only [List.length_append, le_length, zeros_length, hpartner]
  -- a remap or none; a lane or none in each of the two places
  split <;> split <;> split <;> simp only [List.length_append, List.length_cons, List.length_nil, le_length, zeros_length, heye]

/-- A link trains anew on request unless it is disabled or a run uses it (R277). -/
theorem settRetrain_completes (ha : admitted opSettRetrain m s = true) :
    let k := byteAt m.payload 0
    (linkAt s k).state ≠ .disabled → linkInUse s k = false →
    Completes (.settRetrain m) opSettRetrain m s { state := requestPass k s } := by
  intro k hon hidle
  exact completes_of_body rfl ha (require_bind (by rw [hidle, bne_iff_ne.mpr hon]; rfl) _)

/-- A lane is replaced where a wired spare or a spare core can take its place (R269). -/
theorem settRemap_replaces (ha : admitted opSettRemap m s = true) (hway : byteAt m.payload 2 = 0) :
    let k := byteAt m.payload 0
    (wiredSpare s k).isSome = true ∨ (freeCore s).isSome = true →
    Completes (.settRemap m) opSettRemap m s { state := remapLane k (byteAt m.payload 1) s } := by
  intro k hfree
  exact completes_of_body rfl ha ((if_pos hway).trans (require_bind (Bool.or_eq_true_iff.mpr hfree) _))

/-- On an ACTIVE link the lane trains on its own, the spare still in its place (R270). -/
theorem returnLane_of_active {k lane : Nat} (hactive : (linkAt s k).state = .active)
    (hnone : (linkAt s k).lanePass = none) :
    returnLane k lane s =
      startLanePass k lane (putControl k (laneFor s k (1 - lane)) (le 1 0x69 ++ le 1 1 ++ le 1 lane) s) := by
  simp only [returnLane, hactive, hnone, Option.any_none, Bool.false_eq_true, if_false, ne_eq, not_true_eq_false]

theorem returnLane_of_not_active {k lane : Nat} (hactive : (linkAt s k).state ≠ .active)
    (hnone : (linkAt s k).lanePass = none) : returnLane k lane s = laneReturned k lane s := by
  simp only [returnLane, hnone, Option.any_none, Bool.false_eq_true, if_false, if_pos hactive]

section Return

variable (ha : admitted opSettRemap m s = true) (hway : byteAt m.payload 2 ≠ 0)
  (hmapped : ∃ r ∈ (linkAt s (byteAt m.payload 0)).remaps, r.2.2 = byteAt m.payload 1)

include ha hway hmapped

theorem settRemap_returns :
    Completes (.settRemap m) opSettRemap m s { state := returnLane (byteAt m.payload 0) (byteAt m.payload 1) s } := by
  obtain ⟨r, hr, hlane⟩ := hmapped
  have hany : ((linkAt s (byteAt m.payload 0)).remaps.any fun r => r.2.2 == byteAt m.payload 1) = true :=
    List.any_eq_true.mpr ⟨r, hr, beq_iff_eq.mpr hlane⟩
  exact completes_of_body rfl ha ((if_neg hway).trans (require_bind hany _))

variable (hnone : (linkAt s (byteAt m.payload 0)).lanePass = none)

include hnone

theorem settRemap_starts_pass (hactive : (linkAt s (byteAt m.payload 0)).state = .active) :
    let k := byteAt m.payload 0
    let lane := byteAt m.payload 1
    let s1 := putControl k (laneFor s k (1 - lane)) (le 1 0x69 ++ le 1 1 ++ le 1 lane) s
    Completes (.settRemap m) opSettRemap m s { state := startLanePass k lane s1 } := by
  have hreturns := settRemap_returns ha hway hmapped
  rwa [returnLane_of_active hactive hnone] at hreturns

theorem settRemap_returns_at_once (hactive : (linkAt s (byteAt m.payload 0)).state ≠ .active) :
    Completes (.settRemap m) opSettRemap m s { state := laneReturned (byteAt m.payload 0) (byteAt m.payload 1) s } := by
  have hreturns := settRemap_returns ha hway hmapped
  rwa [returnLane_of_not_active hactive hnone] at hreturns

end Return

end Messages

/-- Settles O15: each clause is the lemma of its message. -/
theorem settComplete : Obligations.SettComplete :=
  ⟨fun _ _ ha hidle hspare => ⟨settConfig_stays_disabled ha hidle hspare, settConfig_enables ha hidle hspare,
      settConfig_disables ha hidle hspare, settConfig_new_rate ha hidle hspare⟩,
    fun _ _ => settQuery_completes, fun _ _ => settRetrain_completes,
    fun _ _ ha => ⟨settRemap_replaces ha, fun hway hmapped =>
      ⟨fun hactive hnone => settRemap_starts_pass ha hway hmapped hnone hactive,
        fun hactive hnone => settRemap_returns_at_once ha hway hmapped hnone hactive⟩⟩⟩

end Sys2Proof.LinkProofs
end

section
/-! SUPPORT. Training of a link (O16): alignment, the blocks of a pass, and the pass itself; one lemma per event. -/

namespace Sys2Proof.LinkProofs

open Sys2Proof Sys2Proof.Machine Sys2Proof.PositionProofs

/-! ### Alignment -/

section Alignment

theorem laneAlignment_unlocked {l : Fin 24} {s : State} {line : List Bool} (hon : (linkAt s (linkOf l)).state ≠ .disabled) :
    let s1 := setLane s l fun x => line.foldl (Lane.takeBit s.time.clock) x
    (laneAt s l).isLocked = true ∨ (laneAt s1 l).isLocked = false →
    exec (.laneAlignment l line) s = .next (settleRx l s1) := by
  intro s1 hlock
  have hback : ¬((!(laneAt s l).isLocked) = true ∧ (laneAt s1 l).isLocked = true) := by
    rintro ⟨hbefore, hafter⟩
    rcases hlock with hlock | hlock
    · rw [hlock] at hbefore; cases hbefore
    · rw [hlock] at hafter; cases hafter
  exact congrArg Host.Outcome.next ((if_neg hon).trans (congrArg (settleRx l) (if_neg hback)))

theorem laneAlignment_locks {l : Fin 24} {s : State} {line : List Bool} (hon : (linkAt s (linkOf l)).state ≠ .disabled) :
    let s1 := setLane s l fun x => line.foldl (Lane.takeBit s.time.clock) x
    (laneAt s l).isLocked = false → (laneAt s1 l).isLocked = true →
    exec (.laneAlignment l line) s = .next (settleRx l (laneBack l s1)) := by
  intro s1 hbefore hafter
  exact congrArg Host.Outcome.next ((if_neg hon).trans
    (congrArg (settleRx l) (if_pos ⟨by rw [hbefore]; rfl, hafter⟩)))

variable {now : Nat} {h : Bool} {x : Lane}

theorem header_hunt_valid (halign : x.align = .hunt) : x.header now h (!h) = { x with align := .try 1 } := by
  simp only [Lane.header, halign, Bool.bne_not_self, if_true]

theorem header_try_valid {c : Nat} (halign : x.align = .try c) (hfew : c < 63) :
    x.header now h (!h) = { x with align := .try (c + 1) } := by
  have hgo : ¬64 ≤ c + 1 := by omega
  simp only [Lane.header, halign, Bool.bne_not_self, Bool.not_true, Bool.false_eq_true, if_false, if_neg hgo]

theorem header_try_locks {c : Nat} (halign : x.align = .try c) (hmany : 63 ≤ c) :
    x.header now h (!h) = { x with align := .locked [], lostAt := none, lockDue := true } := by
  have hend : 64 ≤ c + 1 := by omega
  simp only [Lane.header, halign, Bool.bne_not_self, Bool.not_true, Bool.false_eq_true, if_false, if_pos hend]

/-- The bit after an invalid header begins the next candidate (log 123). -/
theorem header_unlocked_invalid (hunlocked : x.isLocked = false) :
    x.header now h h = { x with align := .hunt, candidate := x.candidate + 1, rxBits := [h], rxViol := false } := by
  match halign : x.align with
  | .hunt => simp only [Lane.header, halign, bne_self_eq_false, Bool.false_eq_true, if_false]
  | .try c => simp only [Lane.header, halign, bne_self_eq_false, Bool.not_false, if_true]
  | .locked bad => rw [Lane.isLocked, halign] at hunlocked; cases hunlocked

theorem header_locked_invalid {bad : List Bool} (halign : x.align = .locked bad)
    (hfew : (((true :: bad).take 64).filter id).length < 16) :
    x.header now h h = { x with align := .locked ((true :: bad).take 64), headerErr := count32 x.headerErr } := by
  simp only [Lane.header, halign, bne_self_eq_false, Bool.not_false, Nat.not_le.mpr hfew, if_false, Bool.false_eq_true,
    decide_false, Bool.or_false]

theorem header_locked_lost {bad : List Bool} (halign : x.align = .locked bad)
    (hmany : 16 ≤ (((true :: bad).take 64).filter id).length) :
    x.header now h h = { x with
      align := .hunt, headerErr := count32 x.headerErr, lockLoss := min (x.lockLoss + 1) 65535
      lostAt := some now, lockDue := true } := by
  simp only [Lane.header, halign, bne_self_eq_false, Bool.not_false, hmany, if_true, if_false, Bool.false_eq_true,
    decide_true, Bool.or_true]

end Alignment

/-! ### TS1 -/

section Ts1

variable {l : Fin 24} {s : State} {b : RxBlock} (hnext : (laneAt s l).next? = some b)

include hnext

theorem ts1_taken (h0 : b.h0 = true) (h1 : b.h1 = false) (htype : byteAt b.payload 0 = 0x1E) :
    exec (.ts1 l) s = .next (settleRx l (takeTs1 l b.payload s)) := by
  simp only [exec, execTs1, hnext]
  exact congrArg Host.Outcome.next (if_pos ⟨h0, by rw [h1]; rfl, htype⟩)

/-- An inverted TS1 is one only where the polarity is open (R246). -/
theorem ts1_inverted (h0 : b.h0 = false) (h1 : b.h1 = true) (htype : byteAt b.payload 0 = 0xE1)
    (hopen : (laneAt s l).settled = false) : exec (.ts1 l) s = .next (settleRx l (takeInverted l b.payload s)) := by
  have hplain : ¬(b.h0 = true ∧ (!b.h1) = true ∧ byteAt b.payload 0 = 0x1E) := fun h => by rw [h0] at h; cases h.1
  simp only [exec, execTs1, hnext]
  exact congrArg Host.Outcome.next ((if_neg hplain).trans
    (if_pos ⟨by rw [h0]; rfl, h1, htype, by rw [hopen]; rfl⟩))

end Ts1

section Inverted

variable {l : Nat} {s : State} {b : Bytes}

theorem takeInverted_turns (hok : ts1Ok (complement b) = true) (hsecond : 1 ≤ (laneAt s l).ts1InvRun) :
    takeInverted l b s = setLane s l fun x => { x with inverted := !x.inverted, ts1Run := 0, ts1InvRun := 0 } := by
  simp only [takeInverted, hok, Bool.not_true, Bool.false_eq_true, if_false, if_pos hsecond]

theorem takeInverted_first (hok : ts1Ok (complement b) = true) (hfirst : (laneAt s l).ts1InvRun = 0) :
    takeInverted l b s = setLane s l fun x => { x.skip with ts1InvRun := 1, ts1Run := 0 } := by
  have hnone : ¬1 ≤ (laneAt s l).ts1InvRun := by omega
  simp only [takeInverted, hok, Bool.not_true, Bool.false_eq_true, if_false, if_neg hnone]
  exact setLane_congr (by simp only [hfirst])

theorem takeInverted_fails (hbad : ts1Ok (complement b) = false) :
    takeInverted l b s = setLane s l fun x => { x.skip with ts1Run := 0, ts1InvRun := 0 } := by
  simp only [takeInverted, hbad, Bool.not_false, if_true]

end Inverted

/-! ### TS2, CONFIG and LAT -/

section Blocks

variable {l : Fin 24} {s t : State} {b : Bytes}

/-- A request with a new number sets the taps and the answer to it (R250, R251). -/
theorem ts2_new_request (hread : ReadsBlock s l 0x2D b t) (hphase : lanePhase s l = some 1)
    (hnew : (laneAt s l).ts2Any = false ∨ byteAt b 2 ≠ (laneAt s l).ts2Seq) :
    let s1 := setLane t l fun x => { x with
      ts2Any := true, ts2Seq := byteAt b 2, partnerDone := x.partnerDone || byteAt b 1 == 15
      ownAnswered := x.ownAnswered || (byteAt b 4 == x.ownSeq && byteAt b 3 != 1) }
    exec (.ts2 l) s = .next (settleRx l (setLane s1 l fun x =>
      match firRequest x.pre x.post (byteAt b 1) with
      | none => { x with ts2Resp := 3 }
      | some (a, c) => if firOk a c then { x with pre := a, post := c, ts2Resp := 0 } else { x with ts2Resp := 2 })) := by
  intro s1
  have hany : (laneAt t l).ts2Any = (laneAt s l).ts2Any := laneAt_of_readsBlock (g := Lane.ts2Any) hread (fun _ _ _ => rfl) l
  have hseq : (laneAt t l).ts2Seq = (laneAt s l).ts2Seq := laneAt_of_readsBlock (g := Lane.ts2Seq) hread (fun _ _ _ => rfl) l
  have hfresh : (!(laneAt t l).ts2Any) = true ∨ byteAt b 2 ≠ (laneAt t l).ts2Seq := by
    rw [hany, hseq, Bool.not_eq_true']; exact hnew
  simp only [exec, execTs2]
  rw [onBlock_reads _ hread, if_pos ((lanePhase_of_links (links_of_readsBlock hread) l).trans hphase)]
  refine congrArg (fun u => Host.Outcome.next (settleRx l u)) (Eq.trans ?_ (setLane_setLane ..).symm)
  exact setLane_congr (if_pos hfresh)

/-- A CONFIG is counted as long as it repeats; this one refuses no driver (R245, R252, R265). -/
theorem config_counted (hread : ReadsBlock s l 0x3C b t) (hphase : lanePhase s l = some 2)
    (hfifo : 256 ≤ u16 b 4 ∨ 8 ≤ linkOf l) :
    let k := linkOf l
    exec (.config l) s = .next (settleRx l (setLink t k fun n => { n with
      configs := if n.configs != 0 && n.partner == b then n.configs + 1 else 1
      partner := b, masterLatency := if k = 10 then u32 b 11 else n.masterLatency })) := by
  intro k
  have hgood : ¬(linkOf l < 8 ∧ u16 b 4 < 256) := by omega
  simp only [exec, execConfig]
  rw [onBlock_reads _ hread, if_pos ((lanePhase_of_links (links_of_readsBlock hread) l).trans hphase)]
  refine congrArg (fun u => Host.Outcome.next (settleRx l u)) ((if_neg hgood).trans ?_)
  exact setLink_congr rfl

section Lat

variable {ph : Nat} (hread : ReadsBlock s l 0x47 b t) (hphase : lanePhase s l = some ph) (hlat : 3 ≤ ph)

include hread hphase hlat

theorem lat_taken : exec (.lat l) s = .next (settleRx l (takeLat l b t)) := by
  have hany : (lanePhase t l).any (3 ≤ ·) = true := by
    rw [lanePhase_of_links (links_of_readsBlock hread), hphase]; exact decide_eq_true hlat
  simp only [exec, execLat]
  rw [onBlock_reads _ hread, if_pos hany]

theorem lat_echoed (hprobe : byteAt b 1 = 0) :
    exec (.lat l) s = .next (settleRx l (putControl (linkOf l) l (slice b 0 1 ++ [1] ++ slice b 2 14) t)) := by
  rw [lat_taken hread hphase hlat, takeLat, if_pos hprobe]

theorem lat_measured (hecho : byteAt b 1 ≠ 0) (hown : (linkAt s (linkOf l)).probes.contains (u32 b 4) = true) :
    exec (.lat l) s = .next (settleRx l (setLink t (linkOf l) fun n => { n with
      probes := n.probes.erase (u32 b 4), echoes := n.echoes + 1
      echoSum := n.echoSum + (s.time.clock * 16 / 10 % 2 ^ 32 + 2 ^ 32 - u32 b 4) % 2 ^ 32 })) := by
  have hprobe : (linkAt t (linkOf l)).probes.contains (u32 b 4) = true := by
    rwa [linkAt_of_links (links_of_readsBlock hread)]
  rw [lat_taken hread hphase hlat, takeLat, if_neg hecho, if_pos hprobe]
  simp only [roundTrip, latStamp, clock_of_readsBlock hread]

end Lat

end Blocks

/-! ### The pass -/

section Pass

variable {k : Fin 14} {s : State}

/-- The phase goes on once its exit holds on every lane that trains (R245). -/
theorem trainingPhaseAdvance_done {lanes : List Nat} {ph : Nat} (hgroup : trainGroup s k = some (lanes, ph))
    (hdone : phaseDone s k lanes ph = true) : exec (.trainingPhaseAdvance k) s = .next (nextPhase k ph s) := by
  simp only [exec, execTrainingPhaseAdvance, hgroup]
  exact congrArg Host.Outcome.next (if_pos hdone)

section Phases

variable {lanes : List Nat}

theorem phase_align_exit (hgroup : trainGroup s k = some (lanes, 0)) (hall : ∀ l ∈ lanes, alignDone (laneAt s l) = true) :
    exec (.trainingPhaseAdvance k) s = .next (enterPhase k 1 s) :=
  trainingPhaseAdvance_done hgroup (List.all_eq_true.mpr hall)

theorem phase_eq_exit (hgroup : trainGroup s k = some (lanes, 1))
    (hall : ∀ l ∈ lanes, (laneAt s l).partnerDone = true ∧ (laneAt s l).ownDone = true) :
    exec (.trainingPhaseAdvance k) s = .next (enterPhase k 2 (setLink s k fun n => { n with configs := 0 })) :=
  trainingPhaseAdvance_done hgroup (List.all_eq_true.mpr fun l hl => Bool.and_eq_true_iff.mpr (hall l hl))

theorem phase_config_exit (hgroup : trainGroup s k = some (lanes, 2)) (hconfigs : 4 ≤ (linkAt s k).configs)
    (hall : ∀ l ∈ lanes, 2 ≤ (laneAt s l).rxPhase) : exec (.trainingPhaseAdvance k) s = .next (leaveConfig k s) :=
  trainingPhaseAdvance_done hgroup (Bool.and_eq_true_iff.mpr
    ⟨decide_eq_true hconfigs, List.all_eq_true.mpr fun l hl => decide_eq_true (hall l hl)⟩)

theorem phase_lat_exit (hgroup : trainGroup s k = some (lanes, 3)) (hechoes : 16 ≤ (linkAt s k).echoes) :
    exec (.trainingPhaseAdvance k) s =
      .next (enterPhase k 4 (setLink s k fun n => { n with latency := measuredLatency (linkAt s k) })) :=
  trainingPhaseAdvance_done hgroup (decide_eq_true hechoes)

theorem phase_ready_exit (hgroup : trainGroup s k = some (lanes, 4)) (hall : ∀ l ∈ lanes, (laneAt s l).rxPhase = 4)
    (hpass : (linkAt s k).pass = true) : exec (.trainingPhaseAdvance k) s = .next (goActive k s) :=
  (trainingPhaseAdvance_done hgroup (List.all_eq_true.mpr fun l hl => beq_iff_eq.mpr (hall l hl))).trans
    (congrArg Host.Outcome.next (if_pos hpass))

end Phases

theorem trainingTimeout_pass (hpass : (linkAt s k).pass = true) (hlate : (linkAt s k).passAt + 100000000 ≤ s.time.clock) :
    exec (.trainingTimeout k) s = .next (failPass k false s) :=
  congrArg Host.Outcome.next ((if_pos hpass).trans (if_pos hlate))

/-- A returning lane's own pass times out as a link's does (log 125). -/
theorem trainingTimeout_lane {x ph since : Nat} (hpass : (linkAt s k).pass = false)
    (hlane : (linkAt s k).lanePass = some (x, ph, since, false)) (hlate : since + 100000000 ≤ s.time.clock) :
    exec (.trainingTimeout k) s = .next (failLanePass k s) := by
  simp only [exec, execTrainingTimeout, hpass, hlane, if_pos hlate, Bool.false_eq_true, if_false]

theorem trainingRetry_pass (hpass : (linkAt s k).pass = false)
    (hfailed : (linkAt s k).state = .offline ∨ (linkAt s k).state = .refused)
    (hlate : (linkAt s k).passAt + 500000000 ≤ s.time.clock) : exec (.trainingRetry k) s = .next (startPass k none s) :=
  congrArg Host.Outcome.next ((if_pos ⟨by rw [hpass]; rfl, hfailed⟩).trans (if_pos hlate))

theorem trainingRetry_lane {x ph since : Nat} (hactive : (linkAt s k).state = .active)
    (hlane : (linkAt s k).lanePass = some (x, ph, since, true)) (hlate : since + 500000000 ≤ s.time.clock) :
    exec (.trainingRetry k) s = .next (startLanePass k x s) := by
  simp only [exec, execTrainingRetry, hactive, hlane, if_pos hlate, reduceCtorEq, or_self, and_false, if_false]

end Pass

/-- Settles O16: each clause is the lemma of its event. -/
theorem linkTrainingComplete : Obligations.LinkTrainingComplete :=
  ⟨fun _ _ _ hon => ⟨laneAlignment_unlocked hon, laneAlignment_locks hon⟩,
    fun _ _ _ => ⟨header_hunt_valid, fun _ => header_try_valid, fun _ => header_try_locks, header_unlocked_invalid,
      fun _ => header_locked_invalid, fun _ => header_locked_lost⟩,
    fun _ _ _ hnext => ⟨ts1_taken hnext, fun h0 h1 htype hopen => by
      rw [ts1_inverted hnext h0 h1 htype hopen]
      exact ⟨fun hok hsecond => by rw [takeInverted_turns hok hsecond],
        fun hok hfirst => by rw [takeInverted_first hok hfirst], fun hbad => by rw [takeInverted_fails hbad]⟩⟩,
    fun _ _ _ _ => ts2_new_request, fun _ _ _ _ => config_counted,
    fun _ _ _ _ _ hread hphase hlat => ⟨lat_echoed hread hphase hlat, lat_measured hread hphase hlat⟩,
    fun _ _ _ _ hgroup => ⟨fun h => phase_align_exit (h ▸ hgroup), fun h => phase_eq_exit (h ▸ hgroup),
      fun h => phase_config_exit (h ▸ hgroup), fun h => phase_lat_exit (h ▸ hgroup),
      fun h => phase_ready_exit (h ▸ hgroup)⟩,
    fun _ _ => ⟨trainingTimeout_pass, fun _ _ _ => trainingTimeout_lane, trainingRetry_pass,
      fun _ _ _ => trainingRetry_lane⟩⟩

end Sys2Proof.LinkProofs
end

section
/-! SUPPORT. The link layer of an ACTIVE link (O17): packets, acknowledgement and replay, and what a link sends on time; one
lemma per event. -/

namespace Sys2Proof.LinkProofs

open Sys2Proof Sys2Proof.Machine Sys2Proof.PositionProofs

/-! ### Packets -/

section Packets

variable {l : Fin 24} {s : State} {p : Bytes} (hactive : (linkAt s (servedLink s l)).state = .active)

include hactive

/-- A good packet leaves the stream; its units are granted whether or not its type is one that the far end may send (R254,
R262). -/
theorem packetReceive_good (hgood : firstPacket (laneAt s l).rxBytes = some (true, p)) :
    let k := servedLink s l
    let len := u16 p 2
    let s1 := setLane s l fun x => { x with rxBytes := skipPadding 512 (x.rxBytes.drop p.length) }
    let s2 := setLink s1 k fun n => { n with granted := (n.granted + ceilDiv (8 + len) 64) % 65536 }
    exec (.packetReceive l) s = .next (setLink s2 k fun n =>
      if byteAt p 1 = 0 ∧ typeOk k (byteAt p 0) = true then
        { n with inbox := (n.inbox ++ [(byteAt p 0, slice p 4 len)]).drop (n.inbox.length - 255) }
      else { n with badPackets := n.badPackets + 1 }) := by
  intro k len s1 s2
  have htaken : exec (.packetReceive l) s = .next (takeGood k p s1) := by
    simp only [exec, execPacketReceive, hactive, hgood, ne_eq, not_true_eq_false, if_false]
    rfl
  refine htaken.trans (congrArg Host.Outcome.next (Eq.trans ?_ (setLink_setLink ..).symm))
  rfl

theorem packetReceive_damaged (hbad : firstPacket (laneAt s l).rxBytes = some (false, p)) :
    exec (.packetReceive l) s = .next (setLane s l fun x => { x.damaged 0 with
      crcFail := count32 x.crcFail, crcAt := (s.time.clock :: x.crcAt).take 2048 }) := by
  simp only [exec, execPacketReceive, hactive, hbad, ne_eq, not_true_eq_false, if_false]

end Packets

/-! ### Acknowledgement and replay -/

section Acks

variable {l : Fin 24} {s t : State} {b : Bytes}

section Taken

variable (hread : ReadsBlock s l 0x55 b t) (hactive : (linkAt t (servedLink t l)).state = .active)

include hread hactive

/-- A NAK that names a block neither kept nor next brings the link down (R259). -/
theorem ack_unknown :
    let x := laneAt t l
    let seq := BitVec.ofNat 16 (u16 b 1)
    bit (byteAt b 3) 0 = true → (x.kept.any (fun e => e.1 == seq) || seq == x.txSeq) = false →
    exec (.ack l) s = .next (settleRx l (linkEvent (servedLink t l) 2 (startPass (servedLink t l) none t))) := by
  intro x seq hnak hunknown
  refine congrArg Host.Outcome.next ((onBlock_reads _ hread).trans (congrArg (settleRx l) ?_))
  exact (if_neg (not_not_intro hactive)).trans (if_pos ⟨hnak, by rw [hunknown]; rfl⟩)

theorem ack_known :
    let k := servedLink t l
    let x := laneAt t l
    let seq := BitVec.ofNat 16 (u16 b 1)
    let flags := byteAt b 3
    bit flags 0 = false ∨ (x.kept.any (fun e => e.1 == seq) || seq == x.txSeq) = true →
    let s1 := noteFarLock k flags (setLane t l (freeKept t.time.clock seq (bit flags 1)))
    let s2 := setLink s1 k fun n => { n with
      credit := u16 b 6, fireLimit := if k < 8 then u16 b 4 else n.fireLimit }
    exec (.ack l) s = .next (settleRx l (flushGeneral k 1024 (if bit flags 0 then replay l seq s2 else s2))) := by
  intro k x seq flags hknown s1 s2
  have hfound : ¬(bit flags 0 = true ∧ (!(x.kept.any (fun e => e.1 == seq) || seq == x.txSeq)) = true) := by
    rintro ⟨hnak, hunknown⟩
    rcases hknown with hack | hknown
    · rw [hack] at hnak; cases hnak
    · rw [hknown] at hunknown; cases hunknown
  refine congrArg Host.Outcome.next ((onBlock_reads _ hread).trans (congrArg (settleRx l) ?_))
  exact (if_neg (not_not_intro hactive)).trans (if_neg hfound)

end Taken

theorem ackSend_due (hactive : (linkAt s (servedLink s l)).state = .active)
    (hdue : 16 ≤ (laneAt s l).sinceAck ∨ (laneAt s l).ackAt + 1000 ≤ s.time.clock ∨ (laneAt s l).nakDue = true ∨
      (laneAt s l).lockDue = true) :
    let k := servedLink s l
    exec (.ackSend l) s = .next (((logicalLanes k).map (laneFor s k)).foldl (fun s l => sendAck k l s) s) := by
  intro k
  refine congrArg Host.Outcome.next (if_neg (not_or.mpr ⟨not_not_intro hactive, ?_⟩))
  rw [decide_eq_true hdue]
  exact Bool.false_ne_true

theorem replayTimeout_replays {e : BitVec 16 × Bytes} {r : List (BitVec 16 × Bytes)} (hkept : (laneAt s l).kept = e :: r)
    (hlong : (laneAt s l).advanceAt + 2000 ≤ s.time.clock) : exec (.replayTimeout l) s = .next (replay l e.1 s) := by
  simp only [exec, execReplayTimeout, hkept, if_pos hlong]

theorem resume_expected (hread : ReadsBlock s l 0x5A b t) (hnumber : u16 b 1 = (laneAt t l).rxEnd / 16) :
    exec (.resume l) s = .next (settleRx l (setLane t l fun x => { x with discarding := false })) :=
  congrArg Host.Outcome.next ((onBlock_reads _ hread).trans (congrArg (settleRx l) (if_pos hnumber)))

theorem sync_received (hread : ReadsBlock s l 0x33 b t) :
    exec (.sync l) s = .next (settleRx l
      (setLane t l fun x => { x with rxScr := BitVec.ofNat 31 (u32 b 4), seedOk := true })) :=
  congrArg Host.Outcome.next ((if_pos (next_of_readsBlock hread)).trans (onBlock_reads _ hread))

theorem sync_sent (hnone : (laneAt s l).next? = none) (hasked : (laneAt s l).syncAsked = true)
    (hdue : due (laneAt s l).syncAt 10000 s.time.clock = true) :
    exec (.sync l) s = .next (setLane
      (putControl (servedLink s l) l (le 1 0x33 ++ zeros 3 ++ leB 4 (laneAt s l).txScr) s) l
      fun x => { x with syncAt := some s.time.clock }) := by
  simp only [exec, execSync, hnone, Option.any_none, Bool.false_eq_true, if_false]
  exact congrArg Host.Outcome.next (if_pos ⟨hasked, hdue⟩)

end Acks

/-! ### What a link sends on time -/

section Sent

variable {s : State}

theorem timeBlock_due {f : Fin 2} (hactive : (linkAt s (8 + f)).state = .active)
    (hdue : (linkAt s (8 + f)).timeAt + 1000000 ≤ s.time.clock) :
    let t := s.time.field * 256 / 10 + (linkAt s (8 + f)).latency * 16
    exec (.timeBlock f) s = .next (putControl (8 + f) (laneFor s (8 + f) 0)
      (le 1 0x78 ++ le 4 (t / 256) ++ le 1 (t % 256) ++ zeros 10)
      (setLink s (8 + f) fun n => { n with timeAt := s.time.clock })) :=
  congrArg Host.Outcome.next (if_pos ⟨hactive, hdue⟩)

/-- The first part of a change waits while four are outstanding; a change begun goes on (R181, R256). -/
theorem serve_sends {b : Fin 8} {c : ServeChange} {rest : List ServeChange} (hserve : (barAt s b).serve = c :: rest) :
    let open_ := (barAt s b).serveSent.filter fun (l : Nat) => barPos s b < (l : Int)
    (linkAt s b).state = .active → c.offset ≠ 0 ∨ open_.length < 4 →
    let n := min 984 (c.total - c.offset)
    let data := if c.item = 0 then (List.range n).map fun k => BitVec.ofNat 8 (Config.freeValue (s.fresh + k)).toNat
      else (List.range n).map fun k => serveByte s b c.item c.at_ (c.offset + k)
    let s1 := sendGeneral b 0x02 (le 1 c.item ++ le 1 c.change ++ le 6 c.line ++ le 4 c.offset ++ le 4 c.total ++ data ++
      zeros ((4 - n % 4) % 4)) { s with fresh := s.fresh + if c.item = 0 then n else 0 }
    exec (.serve b) s = .next (setBar s1 b fun bar => { bar with
      serve := if c.total ≤ c.offset + n then rest else { c with offset := c.offset + n } :: rest
      serveSent := if c.total ≤ c.offset + n then open_ ++ [c.line] else open_ }) := by
  intro open_ hactive hroom n data s1
  have hgo : ¬((linkAt s b).state ≠ .active ∨ (c.offset = 0 ∧ 4 ≤ open_.length)) := by
    rintro (hdown | ⟨hfirst, hfull⟩)
    · exact hdown hactive
    · exact hroom.elim (fun h => h hfirst) fun h => Nat.not_lt.mpr hfull h
  simp only [exec, execServe, hserve]
  exact congrArg Host.Outcome.next (if_neg hgo)

end Sent

/-- Settles O17: each clause is the lemma of its event; an ACK's bytes are as `ownAck` lays them out. -/
theorem linkLayerComplete : Obligations.LinkLayerComplete :=
  ⟨fun _ _ _ hactive => ⟨packetReceive_good hactive, packetReceive_damaged hactive⟩,
    fun _ _ _ _ hread hactive => ⟨ack_unknown hread hactive, ack_known hread hactive⟩,
    fun _ _ => ackSend_due, fun _ _ _ => rfl, fun _ _ _ _ => replayTimeout_replays, fun _ _ _ _ => resume_expected,
    fun _ _ _ _ => sync_received, fun _ _ => sync_sent, fun _ _ => timeBlock_due, fun _ _ _ _ => serve_sends⟩

end Sys2Proof.LinkProofs
end

section
/-! SUPPORT. Lane health, spares, link loss and return (O18): what each event does under the conditions of its rule. -/

namespace Sys2Proof.LinkProofs

open Sys2Proof Sys2Proof.Machine Sys2Proof.Laws Sys2Proof.PositionProofs

/-! ### Eyes and conditions of a lane -/

section Lanes

variable {l : Fin 24} {s t : State} {b : Bytes}

theorem eye_received (hread : ReadsBlock s l 0x71 b t) :
    let k := servedLink s l
    (logicalLanes k).contains (byteAt b 1) = true →
    exec (.eye l) s = .next (settleRx l (setLane t (laneFor s k (byteAt b 1)) fun x =>
      { x with partnerEye := slice b 1 8, partnerEyeKnown := true })) := by
  intro k hlane
  rw [← laneFor_of_links (links_of_readsBlock hread)]
  exact congrArg Host.Outcome.next ((if_pos (next_of_readsBlock hread)).trans
    ((onBlock_reads _ hread).trans (congrArg (settleRx l) (if_pos hlane))))

theorem eye_sent (hnone : (laneAt s l).next? = none) (hactive : (linkAt s (servedLink s l)).state = .active)
    (hdue : (laneAt s l).eyeAt + 100000000 ≤ s.time.clock) : exec (.eye l) s = .next (sendEye l s) := by
  simp only [exec, execEye, hnone, Option.any_none, Bool.false_eq_true, if_false]
  exact congrArg Host.Outcome.next (if_pos ⟨hactive, hdue⟩)

/-- A lane in a new condition, reported (R268). -/
def conditionTold (l : Nat) (c : Nat × Nat) (s : State) : State :=
  fieldEvent 0x0803 0 (le 1 l ++ le 1 c.1 ++ le 1 c.2) (setLane s l fun x => { x with health := c.1, healthCause := c.2 })

theorem conditionTold_links (l : Nat) (c : Nat × Nat) (s : State) : (conditionTold l c s).sett.links = s.sett.links := by
  simp only [conditionTold, fieldEvent_frame, setLane]

section Judged

variable (hactive : (linkAt s (linkOf l)).state = .active) (hnew : (laneCondition s (laneAt s l)).1 ≠ (laneAt s l).health)

include hactive hnew

theorem laneHealth_judged :
    let c := laneCondition s (laneAt s l)
    exec (.laneHealth l) s = .next (judgeLane l c.1 (conditionTold l c s)) :=
  congrArg Host.Outcome.next (if_neg (not_or.mpr ⟨not_not_intro hactive, hnew⟩))

/-- A lane of a link of one lane, or one out of its place, is only reported. -/
theorem laneHealth_told (hone : (linkLanes (servedLink s l)).length ≠ 2) :
    exec (.laneHealth l) s = .next (conditionTold l (laneCondition s (laneAt s l)) s) := by
  rw [laneHealth_judged hactive hnew]
  refine congrArg Host.Outcome.next (if_pos (.inl ?_))
  rw [servedLink_of_links (conditionTold_links ..)]
  exact hone

variable (htwo : (linkLanes (servedLink s l)).length = 2) (hplace : laneFor s (servedLink s l) (logicalOf s l) = l)

include htwo hplace

/-- The lane stands in its place still when its condition has been reported. -/
theorem laneHealth_in_place :
    let k := servedLink s l
    let x := logicalOf s l
    let n := linkAt s k
    let c := laneCondition s (laneAt s l)
    let s1 := conditionTold l c s
    exec (.laneHealth l) s = .next (
      if c.1 = 2 then
        if n.down.contains x then s1
        else setLink s1 k fun n => { n with
          down := n.down ++ [x], remaps := n.remaps.filter fun r => !(r.2.2 == x && r.2.1 == 0) }
      else if n.remaps.any fun r => r.2.2 == x then s1
      else setLink s1 k fun n => { n with down := n.down.filter (· != x), alone := n.alone.filter (· != x) }) := by
  intro k x n c s1
  have hlinks : s1.sett.links = s.sett.links := conditionTold_links ..
  have hin : ¬((linkLanes k).length ≠ 2 ∨ laneFor s k x ≠ l) := not_or.mpr ⟨not_not_intro htwo, not_not_intro hplace⟩
  rw [laneHealth_judged hactive hnew]
  simp only [judgeLane]
  rw [servedLink_of_links hlinks, logicalOf_of_links hlinks, laneFor_of_links hlinks, linkAt_of_links hlinks, if_neg hin]

end Judged

end Lanes

/-! ### Spares -/

section Spares

variable {s : State}

theorem laneRemapped_remaps {b : Fin 8} {lane : Fin 2} (hactive : (linkAt s b).state = .active)
    (hdown : (linkAt s b).down.contains lane.val = true) (halone : (linkAt s b).alone.contains lane.val = false)
    (hremap : ((linkAt s b).remaps.any fun r => r.2.2 == lane.val) = false)
    (hpass : ((linkAt s b).lanePass.any fun p => p.1 == lane.val) = false) :
    exec (.laneRemapped b lane) s = .next (remapLane b lane s) :=
  congrArg Host.Outcome.next
    (if_pos ⟨hactive, hdown, by rw [halone]; rfl, by rw [hremap]; rfl, by rw [hpass]; rfl⟩)

theorem spareCoreTimeout_released {k : Fin 2} {i b lane since : Nat}
    (hcore : s.sett.cores.find? (fun c => c.1 == k.val) = some (i, b, lane, since))
    (hunlocked : (laneAt s (ownLane s b lane)).isLocked = false) (hlate : since + 1000000 ≤ s.time.clock) :
    let s1 := { s with sett := { s.sett with cores := s.sett.cores.filter fun c => c.1 != i } }
    exec (.spareCoreTimeout k) s = .next (remapEvent b lane 3 0xFF (setLink s1 b fun n => { n with
      remaps := n.remaps.filter fun r => r.2.2 != lane
      down := if n.down.contains lane then n.down else n.down ++ [lane], alone := n.alone ++ [lane] })) := by
  have hgo : ¬((laneAt s (ownLane s b lane)).isLocked = true ∨ s.time.clock < since + 1000000) :=
    not_or.mpr ⟨by rw [hunlocked]; exact Bool.false_ne_true, Nat.not_lt.mpr hlate⟩
  simp only [exec, execSpareCoreTimeout, hcore]
  exact congrArg Host.Outcome.next (if_neg hgo)

end Spares

/-! ### Loss and return of a bar link -/

section Lost

variable {b : Fin 8} {s : State} (hactive : (linkAt s b).state = .active)

include hactive

theorem linkLost_trains (hlost : ∀ l < 2, (laneAt s (laneFor s b l)).isLocked = false ∧
      ((laneAt s (laneFor s b l)).lostAt.any fun t => t + 1000 ≤ s.time.clock) = true) :
    exec (.linkLost b) s = .next (startPass b none (linkEvent b 2
      (setLink (leaveActive b s) b fun n => { n with state := .offline, offlineTold := true }))) := by
  have hall : (((List.range 2).map fun l => laneAt s (laneFor s b l)).all fun x =>
      !x.isLocked && x.lostAt.any fun t => t + 1000 ≤ s.time.clock) = true := by
    rw [List.all_map]
    refine List.all_eq_true.mpr fun l hl => ?_
    obtain ⟨hunlocked, hlong⟩ := hlost l (List.mem_range.mp hl)
    simp only [Function.comp_apply, hunlocked, hlong, Bool.not_false, Bool.and_self]
  exact congrArg Host.Outcome.next (if_pos ⟨hactive, hall⟩)

/-- The driver has its serve data again; a bar in a run fires from a later line (R271). -/
theorem linkReturn_serves (hdriver : (barAt s b).driver = 2) :
    let s1 := sendServe b (setBar s b fun x => { x with driver := 1 })
    let r := lineAhead s b (barFa s b)
    exec (.linkReturn b) s = .next (
      if barLive s b then
        setBar s1 b fun x => { x with resumeLine := some r, handed := [], nextPack := x.nextPack.map fun n => max n r }
      else setBar s1 b fun x => { x with resumeLine := none }) := by
  intro s1 r
  have hgo : ¬((linkAt s b).state ≠ .active ∨ (barAt s b).driver ≠ 2) :=
    not_or.mpr ⟨not_not_intro hactive, not_not_intro hdriver⟩
  refine congrArg Host.Outcome.next ((if_neg hgo).trans ?_)
  cases hlive : barLive s b <;> rfl

end Lost

/-- Settles O18: each clause is the lemma of its event; a lane in its place is judged by its new condition. -/
theorem laneHealthComplete : Obligations.LaneHealthComplete :=
  ⟨fun _ _ _ _ => eye_received, fun _ _ => eye_sent,
    fun _ _ hactive hnew => ⟨fun hfailed htwo hplace hcarries => by
        rw [laneHealth_in_place hactive hnew htwo hplace, if_pos hfailed, hcarries]; rfl,
      fun hwell htwo hplace hown => by
        rw [laneHealth_in_place hactive hnew htwo hplace, if_neg hwell, hown]; rfl,
      laneHealth_told hactive hnew⟩,
    fun _ _ _ => laneRemapped_remaps, fun _ _ _ _ _ _ => spareCoreTimeout_released, fun _ _ => linkLost_trains,
    fun _ _ => linkReturn_serves⟩

end Sys2Proof.LinkProofs
end

section
/-! SUPPORT. The camera operations (O19): the checks of each body pass, one lemma per message. -/

namespace Sys2Proof.VisionProofs

open Sys2Proof Sys2Proof.Machine Sys2Proof.Laws Sys2Proof.CompletionProofs Sys2Proof.ObjectProofs

/-- Budgets that are all met, in the words of the statements (R91). -/
theorem unbroken_of_all {l : List Budget} (h : (l.all fun b => !b.broken) = true) : ∀ b ∈ l, b.broken = false := by
  simpa using h

section Messages

variable {m : Msg} {s : State} {c : CamSet}

theorem camCreate_completes {s1 : State} {ext : List Nat} {i : Nat} {t : ObjTable CamSet}
    (ha : admitted opCamCreate m s = true) :
    let b := m.payload
    let n := camExtents (u32 b 4) (byteAt b 1) (byteAt b 2) (u16 b 8) (u32 b 20)
    takeExtents n s = some (ext, s1) →
    s1.objs.camsets.create { face := byteAt b 0, binLog2 := byteAt b 1, depth := byteAt b 2, statsEvt := bit (byteAt b 3) 0
                             hostHold := bit (byteAt b 3) 1, width := u32 b 4, frameLines := u16 b 8, camPitch := u16 b 10
                             maxRate := u32 b 12, camOffset := u32 b 16, historyLines := u32 b 20, extents := ext } =
      some (i, t) →
    Completes (.camCreate m) opCamCreate m s
      { state := { s1 with objs := { s1.objs with camsets := t } }, handle := some (t.handle tyCamset i)
        payload := le 8 (n * extentBytes) } := by
  intro b n hext hcreate
  refine completes_of_body rfl ha ((orErr_bind hext _).trans ?_)
  exact orErr_bind hcreate _

theorem camDestroy_completes (ha : admitted opCamDestroy m s = true) (hc : camsetOf s m.handle = some c)
    (hidle : c.active = false) :
    let s1 := giveExtents c.extents (dropCaptures (hIdx m.handle) stNoHandle s)
    Completes (.camDestroy m) opCamDestroy m s
      { state := { s1 with objs := { s1.objs with camsets := s1.objs.camsets.release (hIdx m.handle) } } } := by
  refine completes_of_body rfl ha ((orErr_bind hc _).trans ?_)
  exact require_bind (by rw [hidle]; rfl) _

theorem camCommit_completes (ha : admitted opCamCommit m s = true) (hc : camsetOf s m.handle = some c) :
    let set := (c.expLast + 1) % 256
    let base := (c.pending.map fun p => p.exposure).getD c.exposure
    let tables := overlayAll ((c.pending.map fun p => p.tables).getD (List.replicate 6 [])) c.staged
    let p : CamCommit := ⟨set, s.time.clock, c.exposureStaged.getD base, tables⟩
    let s1 := camCmd c.face 1 set p.exposure (setCamset s m.handle fun c => { c with
      expLast := set, staged := List.replicate 6 [], exposureStaged := none, pending := some p })
    Completes (.camCommit m) opCamCommit m s
      { state := if c.active then s1 else applyCommit (hIdx m.handle) 0 p s1, payload := le 1 set } :=
  completes_of_body rfl ha (orErr_bind hc _)

theorem camActivate_off (ha : admitted opCamActivate m s = true) (hc : camsetOf s m.handle = some c)
    (hoff : byteAt m.payload 0 = 0) :
    Completes (.camActivate m) opCamActivate m s
      { state := setCam s (hIdx m.handle) fun c => { c with activate := if c.active then some false else none } } := by
  refine completes_of_body rfl ha ((orErr_bind hc _).trans ?_)
  exact if_pos hoff

/-- The CAMSET takes a free face at once; else it waits for the next frame start in place of any other that waits (R304). -/
theorem camActivate_on (ha : admitted opCamActivate m s = true) (hc : camsetOf s m.handle = some c)
    (hon : byteAt m.payload 0 = 1) (hbudget : ((camBudgets s c false).all fun b => !b.broken) = true) :
    let i := hIdx m.handle
    let clear : CamSet → CamSet := fun x =>
      if x.face = c.face ∧ x.activate = some true then { x with activate := none } else x
    let s1 := { s with objs := { s.objs with camsets := s.objs.camsets.mapLive clear } }
    Completes (.camActivate m) opCamActivate m s
      { state := if (activeCam s c.face).isNone then enterFace c.face i s1
          else setCam s1 i fun c => { c with activate := some true } } := by
  intro i clear s1
  refine completes_of_body rfl ha ((orErr_bind hc _).trans ?_)
  refine (if_neg (by rw [hon]; decide)).trans ((admitAll_bind (unbroken_of_all hbudget) _).trans ?_)
  exact (apply_ite okState _ _ _).symm

theorem camStatsRead_completes {k : StatsBlock} (ha : admitted opCamStatsRead m s = true)
    (hc : camsetOf s m.handle = some c) (hblock : blockOf c (u32 m.payload 0) = .ok k)
    (hoffset : u32 m.payload 4 < k.bytes.length) :
    Completes (.camStatsRead m) opCamStatsRead m s
      { state := if byteAt m.payload 8 = 1 then setCamset s m.handle fun c =>
            { c with ring := c.ring.map fun x => if x = k then { x with released := true } else x }
          else s
        payload := (k.bytes.drop (u32 m.payload 4)).take 4064 } := by
  refine completes_of_body rfl ha ((orErr_bind hc _).trans ((bind_of_ok hblock _).trans ?_))
  exact require_bind (decide_eq_true hoffset) _

theorem camCapture_completes {b : Nat} (ha : admitted opCamCapture m s = true) (hc : camsetOf s m.handle = some c)
    (hactive : c.active = true) (hwell : visionFaulty s = false) (hbuffer : captureBuffer c = some b)
    (hbudget : (((camBudgets s c true).drop 1).all fun b => !b.broken) = true) :
    Completes (.camCapture m) opCamCapture m s
      { state := setCamset s m.handle fun c => { c with capturing := c.capturing ++ [⟨b, none, m, none⟩] }
        status := stAccepted } := by
  refine completes_of_body rfl ha ((orErr_bind hc _).trans ?_)
  refine (require_bind (by rw [hactive, hwell]; rfl) _).trans ((orErr_bind hbuffer _).trans ?_)
  exact admitAll_bind (unbroken_of_all hbudget) _

theorem camFrameRead_completes {k : Captured} (ha : admitted opCamFrameRead m s = true)
    (hc : camsetOf s m.handle = some c)
    (hshot : c.captures.find? (fun x => x.buffer == byteAt m.payload 0) = some k)
    (hoffset : u32 m.payload 4 < k.bytes.length) :
    Completes (.camFrameRead m) opCamFrameRead m s
      { state := setCamset s m.handle fun c => { c with captures := c.captures.map fun x =>
                    if x.buffer = k.buffer then { x with held := byteAt m.payload 1 = 0 } else x }
        payload := (k.bytes.drop (u32 m.payload 4)).take 4064 } := by
  refine completes_of_body rfl ha ((orErr_bind hc _).trans ((orErr_bind hshot _).trans ?_))
  exact require_bind (decide_eq_true hoffset) _

/-- The 48 bytes hold whatever the hub reported, for its status is fitted to 16 (R282). -/
theorem camQuery_completes (ha : admitted opCamQuery m s = true) (hc : camsetOf s m.handle = some c) :
    ∃ b : Bytes, b.length = 48 ∧ Completes (.camQuery m) opCamQuery m s { state := s, payload := b } := by
  refine ⟨_, ?_, completes_of_body rfl ha (orErr_bind hc _)⟩
  simp

end Messages

/-- Settles O19: each clause is the lemma of its message; the three writes check nothing of their own. -/
theorem cameraComplete : Obligations.CameraComplete :=
  ⟨fun _ _ _ _ _ _ => camCreate_completes, fun _ _ _ => camDestroy_completes,
    fun _ _ ha => completes_of_body rfl ha rfl, fun _ _ ha => completes_of_body rfl ha rfl,
    fun _ _ ha => completes_of_body rfl ha rfl, fun _ _ _ => camCommit_completes,
    fun _ _ _ ha hc => ⟨camActivate_off ha hc, camActivate_on ha hc⟩, fun _ _ _ _ => camStatsRead_completes,
    fun _ _ _ _ => camCapture_completes, fun _ _ _ _ => camFrameRead_completes, fun _ _ _ => camQuery_completes⟩

end Sys2Proof.VisionProofs
end

section
/-! SUPPORT. The steps of the vision pipeline (O20): what each does under the conditions of its rule, one lemma per event. -/

namespace Sys2Proof.VisionProofs

open Sys2Proof Sys2Proof.Machine Sys2Proof.Laws

/-! ### A face with an active CAMSET -/

section Faces

variable {f : Fin 2} {s : State} {slot : Nat} {cam : CamSet}

section Crossings

variable (hactive : activeCam s f = some (slot, cam))

include hactive

theorem frameStart_starts (hdue : frameDue s f cam = true) : exec (.frameStart f) s = .next (startDue f slot cam s) := by
  simp only [exec, execFrameStart, hactive, if_pos hdue]

/-- Outside a frame a crossing that comes too soon is counted by its CAMSET alone (R280). -/
theorem cameraTrigger_skips (hcrossed : crossed s f cam = true) (hsoon : tooSoon s f cam = true)
    (hframe : (faceAt s f).frameOn = none) :
    exec (.cameraTrigger f) s = .next (setFace (setCam s slot fun c => { c with skipped := (c.skipped + 1) % 2 ^ 32 }) f
      fun x => { x with trigPos := some (phi64 s).toNat, skips := ((phi64 s).toNat :: x.skips).take 131072 }) := by
  simp only [exec, execCameraTrigger, hactive, hcrossed, Bool.not_true, Bool.false_eq_true, if_false, if_pos hsoon, hframe]

/-- No frame start comes before the trigger, so it is of the CAMSET that was active (R280). -/
theorem cameraTrigger_sends (hcrossed : crossed s f cam = true) (hsoon : tooSoon s f cam = false)
    (hdue : frameDue s f cam = false) : exec (.cameraTrigger f) s = .next (sendTrigger f slot cam s) := by
  simp only [exec, execCameraTrigger, hactive, hcrossed, hsoon, hdue, Bool.not_true, Bool.false_eq_true, if_false,
    and_self, if_true]

theorem faceLineComplete_takes {line : Nat} {acc : FrameAcc} {ls : List SensorLine} (hwell : visionFaulty s = false)
    (hready : readyLine s f slot cam = some (line, acc, ls)) :
    exec (.faceLineComplete f) s = .next (takeLine f slot line cam acc ls s) := by
  simp only [exec, execFaceLineComplete, hactive, hwell, Bool.false_eq_true, if_false, hready]

theorem frameEnd_ends {a : FrameAcc}
    (hframe : (faceAt s f).frames.find? (fun a => a.camset == slot && !a.ended) = some a)
    (hsettled : (a.frame + 1) * cam.frameLines + 2 ≤ (faceAt s f).settledTo) :
    exec (.frameEnd f) s = .next (endFrame f slot a.frame s) := by
  simp only [exec, execFrameEnd, hactive, hframe, if_pos hsettled]

end Crossings

/-! ### Packets of a camera hub -/

theorem cameraLinePacket_taken {lane : Fin 2} {t : BitVec 8} {b : Bytes} (hlow : 0x30 ≤ t.toNat) (hhigh : t.toNat ≤ 0x32)
    (hactive : activeCam (takePacket (8 + f) t.toNat s) f = some (slot, cam)) :
    exec (.cameraLinePacket f lane t b) s =
      .next (takeLinePacket f slot lane t.toNat b (takePacket (8 + f) t.toNat s)) := by
  have hline : ¬(t.toNat < 0x30 ∨ 0x32 < t.toNat) := not_or.mpr ⟨Nat.not_lt.mpr hlow, Nat.not_lt.mpr hhigh⟩
  simp only [exec, execCameraLinePacket, if_neg hline, hactive]

theorem hubStatus_kept {b : Bytes} (hactive : activeCam (takePacket (8 + f) 0x33 s) f = some (slot, cam)) :
    exec (.hubStatus f b) s =
      .next (setCam (takePacket (8 + f) 0x33 s) slot fun c => { c with hubStatus := fit 16 b }) := by
  simp only [exec, execHubStatus, hactive]

/-! ### Frames written -/

theorem frameStats_written {acc : FrameAcc}
    (hframe : (faceAt s f).frames.find? (fun a => a.ended && (s.objs.camsets.at? a.camset).all entryFree) = some acc)
    (hcam : s.objs.camsets.at? acc.camset = some cam) (hwell : visionFaulty s = false) :
    let block : StatsBlock :=
      { frame := acc.frame, bytes := statsBytes s cam acc, flags := acc.flags, consumed := true, released := false }
    let s1 := setCam (setFace s f fun x => { x with frames := x.frames.erase acc }) acc.camset fun c => { c with
      ring := (if c.ring.length < c.depth then c.ring else c.ring.drop 1) ++ [block], lastBlock := some acc.frame }
    let s2 := { s1 with objs := { s1.objs with calsets := s1.objs.calsets.mapLive (feedCal s cam acc) } }
    exec (.frameStats f) s = .next (if cam.statsEvt then
        fieldEventAt 0x0901 (camHandle s acc.camset) (some (imagedLine cam acc.posFirst).toNat)
          (le 4 acc.frame ++ le 2 acc.flags ++ le 1 acc.expSet) s2
      else s2) := by
  simp only [exec, execFrameStats, hframe, hcam, hwell, Bool.false_eq_true, if_false]

/-- The picture takes the place of the one in its buffer, and its message is done (R300). -/
theorem captureDone_finishes {c : Capturing}
    (hcam : s.objs.camsets.live.find? (fun e => e.2.face == f.val && e.2.capturing.any fun c => c.bytes.isSome) =
      some (slot, cam))
    (hshot : cam.capturing.find? (fun c => c.bytes.isSome) = some c) :
    let shot : Captured := { buffer := c.buffer, frame := c.frame.getD 0, bytes := c.bytes.getD [], held := false }
    exec (.captureDone f) s = .next (finishFlight 0x0909 c.msg stOk (setCam s slot fun x => { x with
      capturing := x.capturing.erase c
      captures := (x.captures.filter fun y => y.buffer != c.buffer) ++ [shot] })) := by
  simp only [exec, execCaptureDone, hcam, hshot]

end Faces

/-- Settles O20: each clause is the lemma of its event; an engine fault is taken under no condition. -/
theorem visionComplete : Obligations.VisionComplete :=
  ⟨fun _ _ _ _ hactive => ⟨frameStart_starts hactive, cameraTrigger_skips hactive, cameraTrigger_sends hactive,
      fun _ _ _ _ => cameraLinePacket_taken, fun _ _ _ => faceLineComplete_takes hactive, fun _ _ => hubStatus_kept,
      fun _ => frameEnd_ends hactive⟩,
    fun _ _ _ _ => frameStats_written, fun _ _ _ _ _ => captureDone_finishes, fun _ _ _ => rfl⟩

end Sys2Proof.VisionProofs
end

section
/-! SUPPORT. The CALSET operations (O21): the checks of each body pass, one lemma per message. -/

namespace Sys2Proof.LoopProofs

open Sys2Proof Sys2Proof.Machine Sys2Proof.Laws Sys2Proof.CompletionProofs Sys2Proof.ObjectProofs

section Calsets

variable {m : Msg} {s : State} {q : CalSet} {c : Channel}

theorem calCreate_completes {s1 : State} {ext : List Nat} {i : Nat} {t : ObjTable CalSet}
    (ha : admitted opCalCreate m s = true) :
    let b := m.payload
    takeExtents 1 s = some (ext, s1) →
    s1.objs.calsets.create { face := byteAt b 0, channelC := byteAt b 1, registration := bit (byteAt b 2) 0
                             patches := bit (byteAt b 2) 1, mirrored := bit (byteAt b 2) 2, x0 := s32 b 4
                             colPitch := u32 b 8, extents := ext, visionHold := visionFaulty s
                             thermalPause := s.thermal.step != 0 } = some (i, t) →
    Completes (.calCreate m) opCalCreate m s
      { state := { s1 with objs := { s1.objs with calsets := t } }, handle := some (t.handle tyCalset i) } := by
  intro b hext hcreate
  refine completes_of_body rfl ha ((orErr_bind hext _).trans ?_)
  exact orErr_bind hcreate _

theorem calDestroy_completes (hq : calsetOf s m.handle = some q) (ha : admitted opCalDestroy m s = true)
    (hdetached : q.mode = .detached) :
    Completes (.calDestroy m) opCalDestroy m s
      { state :=
          let s1 := giveExtents q.extents s
          { s1 with objs := { s1.objs with calsets := s1.objs.calsets.release (hIdx m.handle) } } } := by
  refine completes_of_body rfl ha ((orErr_bind hq _).trans ?_)
  exact require_bind (beq_iff_eq.mpr hdetached) _

theorem calAttach_completes (hq : calsetOf s m.handle = some q) (ha : admitted opCalAttach m s = true)
    (hc : channelOf s (w32 m.payload 0) = some c) (hdetached : q.mode = .detached) (hfree : c.calset = 0) :
    let s1 := setChannel s (w32 m.payload 0) fun c => { c with calset := m.handle }
    Completes (.calAttach m) opCalAttach m s
      { state := loopState (hIdx m.handle) 0 (setCalset s1 m.handle fun q => newWindow { q with
          mode := .observe, channel := w32 m.payload 0, camShape := none, windowsDone := 0, unseen := []
          patching := [], bins := [], fromLine := 0 }) } := by
  refine completes_of_body rfl ha ((orErr_bind hq _).trans ((orErr_bind hc _).trans ?_))
  exact require_bind (by rw [hdetached, hfree]; rfl) _

theorem calDetach_completes (hq : calsetOf s m.handle = some q) (ha : admitted opCalDetach m s = true)
    (hobserve : q.mode = .observe) (hidle : q.recalc = none) :
    Completes (.calDetach m) opCalDetach m s
      { state := loopState (hIdx m.handle) 0 (setCalset (setChannel s q.channel fun c => { c with calset := 0 }) m.handle
          fun q => { q with mode := .detached, channel := 0 }) } := by
  refine completes_of_body rfl ha ((orErr_bind hq _).trans ?_)
  exact require_bind (by rw [hobserve, hidle]; rfl) _

theorem calRead_completes (hq : calsetOf s m.handle = some q) (ha : admitted opCalRead m s = true) :
    Completes (.calRead m) opCalRead m s
      { state := s, payload := slice (calTable s q (byteAt m.payload 0)) (u32 m.payload 4) (u32 m.payload 8) } :=
  completes_of_body rfl ha (orErr_bind hq _)

/-- A CALSET in HOLDING takes writes of tables 0 to 2 only (R336). -/
theorem writable_of_mode {t : Nat} (h : t < 3 ∨ q.mode ≠ .holding) : (t < 3 || q.mode != .holding) = true := by
  simpa using h

theorem calWrite_completes (hq : calsetOf s m.handle = some q) (ha : admitted opCalWrite m s = true)
    (hmode : byteAt m.payload 0 < 3 ∨ q.mode ≠ .holding) (honly : bit (byteAt m.payload 1) 0 = false) :
    let q1 := writeTable s q (byteAt m.payload 0) (u32 m.payload 4) (m.payload.drop 8)
    Completes (.calWrite m) opCalWrite m s
      { state := setCalset s m.handle fun _ => if 3 ≤ byteAt m.payload 0 then countCal s q1 else q1 } := by
  intro q1
  refine completes_of_body rfl ha ((orErr_bind hq _).trans ((require_bind (writable_of_mode hmode) _).trans ?_))
  rw [honly]
  rfl

/-- A write with bit 0 set also starts a recalculation from the tables as written (R326, R336). -/
theorem calWrite_recalculates (hq : calsetOf s m.handle = some q) (ha : admitted opCalWrite m s = true)
    (hmode : byteAt m.payload 0 < 3 ∨ q.mode ≠ .holding) (hagain : bit (byteAt m.payload 1) 0 = true)
    (hcorrect : q.mode = .correct) (hready : recalcReady q = .ok ()) :
    let q1 := writeTable s q (byteAt m.payload 0) (u32 m.payload 4) (m.payload.drop 8)
    let r := startRecalc (hIdx m.handle) false 0x0A07 m
      (setCalset s m.handle fun _ => if 3 ≤ byteAt m.payload 0 then countCal s q1 else q1)
    Completes (.calWrite m) opCalWrite m s
      { state := r.1, status := stAccepted, final := if r.2 then some stOk else none } := by
  intro q1 r
  refine completes_of_body rfl ha ((orErr_bind hq _).trans ((require_bind (writable_of_mode hmode) _).trans ?_))
  rw [hagain]
  exact (require_bind (beq_iff_eq.mpr hcorrect) _).trans (bind_of_ok hready _)

/-- Every field of the answer has its own width, so the 48 bytes hold in every state. -/
theorem calQuery_completes (hq : calsetOf s m.handle = some q) (ha : admitted opCalQuery m s = true) :
    ∃ b : Bytes, b.length = 48 ∧ Completes (.calQuery m) opCalQuery m s { state := s, payload := b } := by
  refine ⟨_, ?_, completes_of_body rfl ha (orErr_bind hq _)⟩
  simp only [List.length_append, le_length, leB_length, leS_length, zeros_length]

theorem calChanQuery_completes (ha : admitted opCalChanQuery m s = true) (hc : channelOf s m.handle = some c) :
    Completes (.calChanQuery m) opCalChanQuery m s
      { state := s, payload := le 4 c.calCount ++ le 4 (c.calTime % 1000000000) ++ le 6 (c.calTime / 1000000000) ++
          zeros 2 ++ leB 4 c.calset ++ zeros 4 } :=
  completes_of_body rfl ha (orErr_bind hc _)

end Calsets

/-- Settles O21: each clause is the lemma of its message; cal.param_write checks nothing of its own. -/
theorem calsetComplete : Obligations.CalsetComplete :=
  ⟨fun _ _ _ _ _ _ => calCreate_completes,
    fun _ _ _ hq => ⟨calDestroy_completes hq, fun _ => calAttach_completes hq, calDetach_completes hq,
      fun ha => completes_of_body rfl ha rfl, calRead_completes hq, calWrite_completes hq, calWrite_recalculates hq,
      calQuery_completes hq⟩,
    fun _ _ _ => calChanQuery_completes⟩

end Sys2Proof.LoopProofs
end

section
/-! SUPPORT. The loop operations, cal.recalc and the gate operations (O22): the checks of each body pass, one lemma per
message. -/

namespace Sys2Proof.LoopProofs

open Sys2Proof Sys2Proof.Machine Sys2Proof.Laws Sys2Proof.CompletionProofs Sys2Proof.ObjectProofs

/-! ### The loop -/

section Loop

variable {m : Msg} {s : State} {q : CalSet} {c : Channel}

theorem loopHold_completes (hq : calsetOf s m.handle = some q) (ha : admitted opLoopHold m s = true)
    (hc : channelOf s q.channel = some c) (hmode : q.mode = .observe ∨ q.mode = .correct) (hidle : q.recalc = none)
    (hink : 0 < ownInk s q) (hspan : spanTaken s (hIdx m.handle) q = false) :
    let s1 := setBar s c.bar fun b => { b with regCorr := 0 }
    Completes (.loopHold m) opLoopHold m s
      { state := loopState (hIdx m.handle) 0 (setCalset s1 m.handle fun q => newWindow { q with
          mode := .holding, base := activeGains s c q.base, g := [], ref := [], newRefs := none, changed := []
          largestStep := 0, patching := [], unseen := [] }) } := by
  refine completes_of_body rfl ha ((orErr_bind hq _).trans ((orErr_bind hc _).trans ?_))
  refine (require_bind (by simpa using hmode) _).trans ?_
  exact require_bind (by simp [hidle, hink, hspan]) _

theorem loopRelease_observes (hq : calsetOf s m.handle = some q) (ha : admitted opLoopRelease m s = true)
    (howns : calOwns q = true) (hkeep : bit (byteAt m.payload 0) 0 = false) (hidle : q.recalc = none) :
    let bar := ((channelOf s q.channel).map fun c => c.bar).getD 8
    let s1 := setBar s bar fun b => { b with regCorr := 0 }
    Completes (.loopRelease m) opLoopRelease m s
      { state := loopState (hIdx m.handle) 0 (setCalset s1 m.handle fun q =>
          { q with mode := .observe, changed := [], patching := [] }) } := by
  refine completes_of_body rfl ha ((orErr_bind hq _).trans ((require_bind howns _).trans ?_))
  rw [hkeep]
  exact require_bind (by rw [hidle]; rfl) _

theorem loopRelease_reverts (hq : calsetOf s m.handle = some q) (ha : admitted opLoopRelease m s = true)
    (howns : calOwns q = true) (hrevert : bit (byteAt m.payload 0) 0 = true) (hready : recalcReady q = .ok ()) :
    let r := startRecalc (hIdx m.handle) true 0x0A09 m s
    Completes (.loopRelease m) opLoopRelease m s
      { state := r.1, status := stAccepted, final := if r.2 then some stOk else none } := by
  refine completes_of_body rfl ha ((orErr_bind hq _).trans ((require_bind howns _).trans ?_))
  rw [hrevert]
  exact bind_of_ok hready _

theorem loopResume_completes (hq : calsetOf s m.handle = some q) (ha : admitted opLoopResume m s = true)
    (hobserve : q.mode = .observe) (hrefs : (q.ref.any fun e => e.2 != 0) = true) (hready : recalcReady q = .ok ())
    (hink : 0 < ownInk s q) (hspan : spanTaken s (hIdx m.handle) q = false) :
    let r := startRecalc (hIdx m.handle) false 0x0A0A m (loopState (hIdx m.handle) 0
      (setCalset s m.handle fun q => newWindow { q with mode := .correct, unseen := [] }))
    Completes (.loopResume m) opLoopResume m s
      { state := r.1, status := stAccepted, final := if r.2 then some stOk else none } := by
  refine completes_of_body rfl ha ((orErr_bind hq _).trans ?_)
  refine (require_bind (by rw [hobserve, hrefs]; rfl) _).trans ((bind_of_ok hready _).trans ?_)
  exact require_bind (by simp [hink, hspan]) _

theorem calRecalc_completes (hq : calsetOf s m.handle = some q) (ha : admitted opCalRecalc m s = true)
    (hcorrect : q.mode = .correct) (hready : recalcReady q = .ok ()) (hink : 0 < ownInk s q) :
    let r := startRecalc (hIdx m.handle) false 0x0A0B m s
    Completes (.calRecalc m) opCalRecalc m s
      { state := r.1, status := stAccepted, final := if r.2 then some stOk else none } := by
  refine completes_of_body rfl ha ((orErr_bind hq _).trans ((require_bind (beq_iff_eq.mpr hcorrect) _).trans ?_))
  exact (bind_of_ok hready _).trans (require_bind (decide_eq_true hink) _)

end Loop

/-! ### The gates -/

section Gates

variable {m : Msg} {s : State}

/-- Windows of a run that is not active stand at once; those of an active run from its first repeat that every bar still
has ahead (R329). -/
theorem calGateWindow_completes {r : Run} (ha : admitted opCalGateWindow m s = true) (hr : runOf s m.handle = some r)
    (hlasts : r.state ≠ .ended) :
    let l := gateWindows m.payload
    (r.state.active = false → Completes (.calGateWindow m) opCalGateWindow m s
      { state := setRun s m.handle fun r => { r with windows := l, newWindows := none } }) ∧
    (r.state.active = true →
      let n := maxOf ((runBars s r).map fun b => firstAhead s r b 0)
      let now := (repeatOf r (runPos s r.pitch)).1
      let cur := match r.newWindows with
        | some (from_, w) => if from_ ≤ now then w else r.windows
        | none => r.windows
      Completes (.calGateWindow m) opCalGateWindow m s
        { state := setRun s m.handle fun r => { r with windows := cur, newWindows := some (n, l) } }) := by
  refine ⟨fun hidle => ?_, fun hactive => ?_⟩
  all_goals refine completes_of_body rfl ha ((orErr_bind hr _).trans ((require_bind (bne_iff_ne.mpr hlasts) _).trans ?_))
  · exact if_pos (by rw [hidle]; rfl)
  · exact if_neg (by rw [hactive]; decide)

/-- Only nozzles of the range that carry a mark named are cleared; where there is none nothing is committed (R332). -/
theorem calGateClear_completes (ha : admitted opCalGateClear m s = true) :
    let b := m.payload
    let bar := byteAt b 0
    let mask := BitVec.ofNat 32 (byteAt b 1 * 2 ^ 28)
    let hit := ((barAt s bar).nozzles.newest.filter fun e =>
      u32 b 4 ≤ e.1 && e.1 < u32 b 4 + u32 b 8 && e.2 &&& mask != 0).map (·.1)
    (hit = [] → Completes (.calGateClear m) opCalGateClear m s { state := s }) ∧
    (hit ≠ [] → Completes (.calGateClear m) opCalGateClear m s
      { state := gateCommit bar (setGate (stageNozzles bar 2 (hit.map fun i => (i, ⟨mask, 0⟩)) s) bar fun g => { g with
          mapDue := g.mapDue ++ [(2, hit.length)], first := hit ++ g.first.filter fun i => !hit.contains i
          fails := g.fails.filter fun e => !hit.contains e.1 }) }) := by
  intro b bar mask hit
  refine ⟨fun hnone => completes_of_body rfl ha ?_, fun hsome => completes_of_body rfl ha ?_⟩
  · exact if_pos (List.isEmpty_iff.mpr hnone)
  · exact if_neg (mt List.isEmpty_iff.mp hsome)

theorem calGateQuery_completes (ha : admitted opCalGateQuery m s = true) :
    ∃ b : Bytes, b.length = 32 ∧ Completes (.calGateQuery m) opCalGateQuery m s { state := s, payload := b } := by
  refine ⟨_, ?_, completes_of_body rfl ha rfl⟩
  simp only [List.length_append, le_length, zeros_length]

end Gates

/-- Settles O22: each clause is the lemma of its message; cal.gate_config checks nothing of its own. -/
theorem loopMessageComplete : Obligations.LoopMessageComplete :=
  ⟨fun _ _ _ hq => ⟨fun _ => loopHold_completes hq, loopRelease_observes hq, loopRelease_reverts hq,
      loopResume_completes hq, calRecalc_completes hq⟩,
    fun _ _ ha => completes_of_body rfl ha rfl, fun _ _ _ => calGateWindow_completes, fun _ _ => calGateClear_completes,
    fun _ _ => calGateQuery_completes⟩

end Sys2Proof.LoopProofs
end

section
/-! SUPPORT. The steps of the colour loop and of the drop gates (O23): what each does under the conditions of its rule, one
lemma per event. -/

namespace Sys2Proof.LoopProofs

open Sys2Proof Sys2Proof.Machine

/-! ### Windows, commits and recalculations -/

section Loop

variable {s : State} {q : CalSet} {c : Channel}

/-- A CALSET in HOLDING that has captured its references goes on in CORRECT and says so (R320). -/
theorem loopWindowEnd_takes {k : Fin 64} {r : Run} (hq : s.objs.calsets.at? k = some q)
    (hserves : calChannel s q = some (c, r)) (hmode : q.mode ≠ .detached) (hfull : q.params.winFrames ≤ q.frames) :
    let first := (binSpan c).1
    let bins := (List.range (binSpan c).2).map fun i => (i, estimate q (q.ink.getD c.bar 0) (first + i))
    let q1 := markPatches first (updateBins (captureRef s { q with bins := bins, windowsDone := q.windowsDone + 1 }))
    let s1 := setCal (registrationEnd k q1 c r (tellBins k first q1 r (setCal s k fun _ => q1))) k newWindow
    exec (.loopWindowEnd k) s =
      .next (if q.mode = .holding ∧ q1.mode = .correct then loopState k 1 s1 else s1) := by
  intro first bins q1 s1
  have hgo : ¬(q.mode = .detached ∨ q.frames < q.params.winFrames) := not_or.mpr ⟨hmode, Nat.not_lt.mpr hfull⟩
  simp only [exec, execLoopWindowEnd, hq, hserves, if_neg hgo]
  rfl

theorem loopCommit_commits {k : Fin 64} {r : Run} (hq : s.objs.calsets.at? k = some q)
    (hserves : calChannel s q = some (c, r)) (hcorrect : q.mode = .correct) (hchanged : q.changed ≠ [])
    (hruns : calPaused q = false) :
    let w := ownerCommit c.bar 0 1 (stageGains q c (some q.changed) s)
    exec (.loopCommit k) s =
      .next (if (barAt w.1 c.bar).heldOwners.contains 1 then w.1 else reportLoop k w.2 w.1) := by
  have hgo : ¬(q.mode ≠ .correct ∨ q.changed.isEmpty ∨ calPaused q) := by
    rintro (hmode | hnone | hpaused)
    · exact hmode hcorrect
    · exact hchanged (List.isEmpty_iff.mp hnone)
    · rw [hruns] at hpaused; cases hpaused
  simp only [exec, execLoopCommit, hq, hserves, if_neg hgo]

/-- A bar that is not active switches at once, so a held commit needs no line that could still be planned (R319). -/
theorem heldCommit_gate {b : Fin 8} (hheld : (barAt s b).heldOwners.contains 2 = true) (hidle : barActive s b = false) :
    let w := ownerCommit b 0 2 s
    exec (.heldCommit b true) s =
      .next (if (barAt w.1 b).heldOwners.contains 2 then w.1 else reportGate b w.2 w.1) := by
  have hgo : ¬(!(barAt s b).heldOwners.contains 2 ∨ (barActive s b ∧ (planLine s b 0 [3] none).isNone)) := by
    rw [hheld, hidle]; simp
  exact congrArg Host.Outcome.next (if_neg hgo)

theorem recalculationDone_ends {k : Fin 64} {rev : Bool} {msg : Option (Nat × Msg)} (hq : s.objs.calsets.at? k = some q)
    (hc : channelOf s q.channel = some c) (hdue : q.recalc = some (rev, msg, 1, false)) :
    exec (.recalculationDone k) s = .next (endRecalc k stOk (recompute q c rev s)) := by
  simp only [exec, execRecalculationDone, hq, hdue, hc, Bool.false_eq_true, if_false]

/-- A recalculation that still waits for the spare has no bench on loan, so no bench changes its role (R327). -/
theorem recalcSpareFail_ends {slot : Nat} (hspare : spareCal s = some (slot, q)) (hc : channelOf s q.channel = some c)
    (hnone : (s.bench.bench.any fun e => e.role == .loaned c.bar || e.role == .loading c.bar) = false)
    (hwaits : (q.recalc.map fun r => r.2.2.1) = some 0) :
    exec .recalcSpareFail s = .next (endRecalc slot stInternal s) := by
  simp only [exec, execRecalcSpareFail, hspare, hc, hnone, hwaits, Option.getD_some, Bool.false_eq_true, if_false, if_true]

end Loop

/-! ### The gates -/

/-- The line of the test drop did not fire, so the drop is void whatever its samples say (R330). -/
theorem dropTestResult_void {b : Fin 8} {s : State} {idx line at_ slot : Nat} {t : BarTable} {e : SlotRec} {w : RowRec}
    {x : Nat} (hdrop : (barAt s b).gate.drop = some (idx, line, false)) (hat : (barAt s b).gate.dropAt = some at_)
    (ht : (barAt s b).table = some t) (hnozzle : nozzleAt t idx = some (slot, e, w, x)) :
    exec (.dropTestResult b) s = .next (setGate s b fun g =>
      { g with drop := none, dropAt := none, voids := (g.voids + 1) % 2 ^ 32 }) := by
  simp only [exec, execDropTestResult, hdrop, hat, ht, hnozzle, Bool.not_false, if_true]
  rfl

/-- Settles O23: each clause is the lemma of its event; gate samples and gate faults are taken under no condition. -/
theorem loopStepComplete : Obligations.LoopStepComplete :=
  ⟨fun _ _ _ _ _ => loopWindowEnd_takes, fun _ _ _ _ _ => loopCommit_commits, fun _ _ => heldCommit_gate,
    fun _ _ _ _ _ _ => recalculationDone_ends, fun _ _ _ _ => recalcSpareFail_ends, fun _ _ _ => rfl,
    fun _ _ _ _ _ _ _ _ _ _ => dropTestResult_void, fun _ _ => rfl⟩

end Sys2Proof.LoopProofs
end

section
/-! SUPPORT. The records of a variable-data stream (O25): the checks of each body pass, one lemma per message. -/

namespace Sys2Proof.VariableDataProofs

open Sys2Proof Sys2Proof.Machine Sys2Proof.Laws Sys2Proof.CompletionProofs Sys2Proof.ObjectProofs

section Records

variable {m : Msg} {s : State} {st : VdStream}

/-- That the records pass R347 is check 10 of R46, which an admitted message has passed; the body asks for room only. -/
theorem vdPush_completes (ha : admitted opVdPush m s = true) (hst : streamOf s m.handle = some st)
    (hattached : st.channel ≠ 0) :
    let offs := (walkRecords m.payload (u16 m.payload 0) 4).1
    offs.length ≤ ringFree st →
    let items := offs.map (parseRecord m.payload)
    Completes (.vdPush m) opVdPush m s
      { state := setStream s m.handle fun st => { st with
          items := st.items ++ items
          lastSeq := (items.getLast?.map (·.seq)).orElse fun _ => st.lastSeq
          lastLine := (items.getLast?.map (·.line)).getD st.lastLine }
        payload := le 4 (ringFree st - offs.length) } := by
  intro offs hroom items
  refine completes_of_body rfl ha ((orErr_bind hst _).trans ((require_bind (bne_iff_ne.mpr hattached) _).trans ?_))
  exact require_bind (decide_eq_true hroom) _

/-- The ring holds the record asked for where its index lies ahead of the oldest one, or where the oldest is asked for. -/
theorem vdResults_completes (ha : admitted opVdResults m s = true) (hst : streamOf s m.handle = some st) :
    let oldest := st.resultNext - st.resultRing.length
    let ahead := (u32 m.payload 0 + 2 ^ 32 - oldest % 2 ^ 32) % 2 ^ 32
    let first := if u32 m.payload 0 = 0xFFFFFFFF then oldest else oldest + ahead
    u32 m.payload 0 = 0xFFFFFFFF ∨ ahead < 2 ^ 31 →
    Completes (.vdResults m) opVdResults m s
      { state := s, payload := le 4 first ++
          ((st.resultRing.drop (first - oldest)).take (u16 m.payload 4)).flatMap VdResult.bytes } := by
  intro oldest ahead first hheld
  have hcheck : (u32 m.payload 0 == 0xFFFFFFFF || decide (ahead < 2 ^ 31)) = true := by simpa using hheld
  exact completes_of_body rfl ha ((orErr_bind hst _).trans (require_bind hcheck _))

/-- Every field of the answer has its own width, so the 64 bytes hold in every state. -/
theorem vdQuery_completes (ha : admitted opVdQuery m s = true) (hst : streamOf s m.handle = some st) :
    ∃ b : Bytes, b.length = 64 ∧ Completes (.vdQuery m) opVdQuery m s { state := s, payload := b } := by
  refine ⟨_, ?_, completes_of_body rfl ha (orErr_bind hst _)⟩
  simp only [List.length_append, le_length, leB_length, zeros_length]

end Records

/-- Settles O25: each clause is the lemma of its message; vd.cancel checks nothing of its own and vd.recovery only that
the list is there. -/
theorem recordComplete : Obligations.RecordComplete :=
  ⟨fun _ _ _ ha hst hattached _ => vdPush_completes ha hst hattached, fun _ _ ha => completes_of_body rfl ha rfl,
    fun _ _ _ => vdResults_completes, fun _ _ _ => vdQuery_completes,
    fun _ _ _ ha he => completes_of_body rfl ha (orErr_bind he _)⟩

end Sys2Proof.VariableDataProofs
end

section
/-! SUPPORT. The steps of the variable-data engines (O26): what each does under the conditions of its rule, one lemma per
event. -/

namespace Sys2Proof.VariableDataProofs

open Sys2Proof Sys2Proof.Machine

section Items

variable {slot : Fin 16} {s : State} {st : VdStream} {i : Item}

/-! ### Rendering -/

theorem itemRendered_renders (hst : s.objs.streams.at? slot = some st) (hi : renderable s st = some i)
    (hfits : encodable s.vd.fonts i = true) :
    let s1 := setItem slot i.seq (fun i => { i with state := .rendered, bitmap := renderWindow s.vd.fonts i }) s
    exec (.itemRendered slot) s =
      .next { s1 with vd := { s1.vd with cairn := s1.vd.cairn ++ [(st.streamId, i.seq, i.line, 1)] } } := by
  simp only [exec, execItemRendered, hst, hi, hfits, if_true]

theorem itemContentVoid_voids (hst : s.objs.streams.at? slot = some st) (hi : renderable s st = some i)
    (hfits : encodable s.vd.fonts i = false) :
    exec (.itemContentVoid slot) s = .next (finishItem slot i.seq .void 6 {} s) := by
  simp only [exec, execItemContentVoid, hst, hi, hfits, Bool.false_eq_true, if_false]

/-! ### A fired item: its last line, its verdict, its timeout -/

/-- ITEM_VERDICT passes over no fired item that is to be verified and whose last line has passed (R352). -/
theorem verdict_not_skipped {t : Nat} (hfired : i.state = .fired) (hlast : i.lastAt = some t) (hverify : i.verify = true) :
    ¬(!decide (i.state = .fired ∧ i.verify = true ∧ i.lastAt.isSome = true)) = true := by
  simp [hfired, hverify, hlast]

section Fired

variable {seq : BitVec 64} {t : Nat} (hst : s.objs.streams.at? slot = some st)
  (hi : st.items.find? (fun i => i.seq == seq.toNat) = some i) (hfired : i.state = .fired)

include hst hi hfired

/-- A lost line decides first; only an item that is to be verified, on a stream that verifies, waits on (R352, log 120). -/
theorem itemLastLine_settles (hfirst : i.lastAt = none) (hpassed : lastLinePassed s st i = true) :
    exec (.itemLastLine slot seq) s = .next (
      if i.lostLine then finishItem slot i.seq .failed 2 {} s
      else if i.verify && i.verifyCfg.on then setItem slot i.seq (fun i => { i with lastAt := some s.time.clock }) s
      else finishItem slot i.seq .indeterminate 0 {} s) := by
  simp only [exec, execItemLastLine, hst, hi]
  rw [if_pos ⟨hfired, hfirst, hpassed⟩]
  cases i.verify && i.verifyCfg.on <;> rfl

/-- The footprint has passed the camera whole and the correlator keeps up, so the best shift decides (R355). -/
theorem itemVerdict_judges {cam : CamSet} (hlast : i.lastAt = some t) (hverify : i.verify = true)
    (hcam : faceCamset s i.verifyCfg.face = some cam) (hhealthy : s.vision.fault.any id = false) :
    let f := s.vision.faces.getD i.verifyCfg.face {}
    let q := barQ s (((channelOf s st.channel).map fun c => c.bar).getD 0)
    footprintDone i cam f q = true → correlatorQueue s ≤ 256 → footprintMissing i cam f q = false →
    let r := bestShift i f (itemPixels i cam f q)
    let v : Verdict := { score := r.1.toNat, contrast := r.2.1.getD 0, dx := r.2.2.1, dy := r.2.2.2 }
    exec (.itemVerdict slot seq) s = .next (
      if r.1 < i.verifyCfg.passScore then finishItem slot i.seq .failed 1 v s
      else if r.2.1.any fun c : Int => c < (i.verifyCfg.minContrast : Int) then finishItem slot i.seq .failed 3 v s
      else finishItem slot i.seq .verified 0 v s) := by
  intro f q hdone hqueue hcomplete r v
  simp only [exec, execItemVerdict, hst, hi, if_neg (verdict_not_skipped hfired hlast hverify), hcam, hhealthy,
    Bool.false_eq_true, if_false]
  rw [if_neg (by rw [hdone]; decide), if_neg (Nat.not_lt.mpr hqueue), if_neg (by rw [hcomplete]; decide)]

/-- No CAMSET images the face, or a vision engine is faulty: there is nothing to judge by (R356 cause 2). -/
theorem itemVerdict_cannotJudge (hlast : i.lastAt = some t) (hverify : i.verify = true)
    (hblind : faceCamset s i.verifyCfg.face = none ∨ s.vision.fault.any id = true) :
    exec (.itemVerdict slot seq) s = .next (finishItem slot i.seq .indeterminate 2 {} s) := by
  simp only [exec, execItemVerdict, hst, hi, if_neg (verdict_not_skipped hfired hlast hverify)]
  obtain hnone | hfaulty := hblind
  · rw [hnone]
  · cases faceCamset s i.verifyCfg.face with
    | none => rfl
    | some cam => simp only [hfaulty, if_true]

theorem verifyTimeout_expires (hlast : i.lastAt = some t) (hlate : t + i.verifyCfg.timeoutMs * 1000000 ≤ s.time.clock) :
    exec (.verifyTimeout slot seq) s = .next (finishItem slot i.seq .indeterminate 4 {} s) := by
  simp only [exec, execVerifyTimeout, hst, hi, hfired, hlast, if_pos hlate]

end Fired

/-! ### Rejects -/

/-- Fewer than 1,024 rejects are armed again, so the output that was held is released (R360, log 122). -/
theorem rejectOverflow_releases {out : Nat} (hst : s.objs.streams.at? slot = some st) (hheld : st.held = [out])
    (hroom : st.rejects.length < 1024) :
    let s1 := { s with objs := { s.objs with streams := s.objs.streams.put slot { st with held := [] } } }
    exec (.rejectOverflow slot) s = .next (fieldEvent 0x0B04 (s1.objs.streams.handle tyStream slot) [0] s1) := by
  simp only [exec, execRejectOverflow, hst, if_pos hroom, hheld, List.foldl_cons, List.foldl_nil]

end Items

/-- Settles O26: each clause is the lemma of its event; rejects begin and end, and a faulty engine hands over, under no
condition. -/
theorem itemComplete : Obligations.ItemComplete :=
  ⟨fun _ _ _ _ hst hi => ⟨itemRendered_renders hst hi, itemContentVoid_voids hst hi⟩,
    fun _ _ _ _ _ hst hi hfired =>
      ⟨itemLastLine_settles hst hi hfired, fun _ _ hlast hverify => itemVerdict_judges hst hi hfired hlast hverify,
        fun _ => itemVerdict_cannotJudge hst hi hfired, fun _ => verifyTimeout_expires hst hi hfired⟩,
    fun _ _ => ⟨rfl, rfl⟩, fun _ _ _ _ => rejectOverflow_releases, fun _ _ _ => rfl⟩

end Sys2Proof.VariableDataProofs
end

section
/-! SUPPORT. The status words of the window (20): what changes them, and what a change of them leaves. -/

namespace Sys2Proof.WindowProofs

open Sys2Proof Sys2Proof.Machine

/-- A record that the field die hands to Saddle or keeps changes no status word (20). -/
theorem statusWords_fieldEvent (code : Nat) (src : BitVec 32) (args : Bytes) (s : State) :
    statusWords (fieldEvent code src args s) = statusWords s := by
  unfold fieldEvent fieldEventAt sendFieldRecord
  repeat' split
  all_goals rfl

theorem noteStatus_of_words {before after : State} (h : statusWords before = statusWords after) :
    noteStatus before after = after := if_pos h

/-- A changed status word shows in the window alone. -/
theorem noteStatus_frame_win (before after : State) : ∃ w : Window, noteStatus before after = { after with win := w } := by
  unfold noteStatus interrupt sendVector
  dsimp only
  repeat' split
  all_goals exact ⟨_, rfl⟩

/-- What a command ends in has a property that does not speak of the window. -/
theorem exists_next_noteStatus {P : State → Prop} {before after : State} (h : ∀ w : Window, P { after with win := w }) :
    ∃ t : State, (.next (noteStatus before after) : Out) = .next t ∧ P t := by
  obtain ⟨w, hw⟩ := noteStatus_frame_win before after
  exact ⟨_, rfl, hw ▸ h w⟩

end Sys2Proof.WindowProofs
end

section
/-! SUPPORT. One step of the block (O1, O2): the front command, or one tick of the idle block. -/

namespace Sys2Proof.StepProofs

open Sys2Proof Sys2Proof.Machine Sys2Proof.ObjectProofs

/-- Settles O1: on a queue with a front command `step` is `exec` of it. -/
theorem stepTakesFront : Obligations.StepTakesFront := fun _ _ _ => rfl

/-! ### What a tick of the idle block keeps -/

/-- What the transmitters and the Ethernet ports leave alone in a tick. -/
def kept (s : State) : List Instr × Nat × List Host.Cell × Objects := (s.pending, s.time.clock, s.mem.cells, s.objs)

variable (s : State)

theorem kept_of_fields {t : State} (hpending : t.pending = s.pending) (htime : t.time = s.time) (hmem : t.mem = s.mem)
    (hobjs : t.objs = s.objs) : kept t = kept s := by
  simp only [kept, hpending, htime, hmem, hobjs]

/-! ### The transmitters -/

theorem fillBlock_kept (l : Nat) : kept (fillBlock l s) = kept s := by
  unfold fillBlock chooseRequest
  dsimp only [takeFree]
  repeat' split
  all_goals rfl

theorem fillLane_kept (l fuel : Nat) : kept (fillLane l fuel s) = kept s := by
  induction fuel generalizing s with
  | zero => rfl
  | succ fuel ih =>
    unfold fillLane
    split
    · rfl
    · rw [ih, fillBlock_kept]

theorem tickLane_kept (l : Nat) : kept (tickLane l s) = kept s := by
  unfold tickLane
  dsimp only
  split
  · rfl
  · rw [fillLane_kept]; rfl

theorem tickLanes_kept : kept (tickLanes s) = kept s := foldl_keeps (fun s l => tickLane_kept s l) _ s

theorem noteMemIdle_kept : kept (noteMemIdle s) = kept s := by
  unfold noteMemIdle
  split <;> rfl

/-! ### The Ethernet ports -/

theorem servoTo_kept (st : ServoState) (cause : Nat) : kept (servoTo st cause s) = kept s := by
  unfold servoTo
  split <;> rfl

theorem loseMaster_kept : kept (loseMaster s) = kept s := by
  unfold loseMaster
  cases yMean s <;> cases s.time.servo
  case none.freeRun | some.freeRun | none.holdover | some.holdover => rfl
  all_goals exact servoTo_kept _ _ _

theorem ptpFailover_kept (p : Nat) : kept (ptpFailover p s) = kept s := by
  unfold ptpFailover
  split
  · exact loseMaster_kept s
  · rfl

theorem linkDown_kept (p : Nat) : kept (linkDown p s) = kept s := by
  unfold linkDown
  split
  · exact ptpFailover_kept _ p
  · rfl

theorem closeSession_kept (inst cause : Nat) : kept (closeSession inst cause s) = kept s :=
  kept_of_fields s (by simp) (by simp) (by simp) (by simp)

theorem applyEth_kept (p : Nat) : kept (applyEth p s) = kept s := by
  unfold applyEth
  split
  · rfl
  · dsimp only
    have hmode (c : Prop) [Decidable c] : kept (if c then s else linkDown p s) = kept s := by
      split
      · rfl
      · exact linkDown_kept s p
    split
    · rw [foldl_keeps (fun s q => closeSession_kept s _ 2)]
      exact hmode _
    · exact hmode _

theorem idleTick_kept : kept (idleTick s) = kept (passTime s) := by
  rw [idleTick, applyEth_kept, applyEth_kept, noteMemIdle_kept, tickLanes_kept]

/-- Settles O2: only `passTime` moves the clock, and nothing of a tick touches the queue, the cells or the objects. -/
theorem stepIdles : Obligations.StepIdles := by
  intro s hempty
  have hkept := idleTick_kept s
  simp only [kept, Prod.mk.injEq] at hkept
  obtain ⟨hpending, hclock, hcells, hobjs⟩ := hkept
  exact ⟨by rw [step, hempty], hpending.trans hempty, hclock, hcells, hobjs⟩

end Sys2Proof.StepProofs
end

section
/-! SUPPORT. The order in which an arbiter ranks its requests (R393, O56): the ranking is a strict weak order, and the first
of a list is one that no other ranks before. -/

namespace Sys2Proof.ArbitrationProofs

open Sys2Proof Sys2Proof.Machine

variable {a : Arbiter} {t : BitVec 32}

/-- How far a request's id lies above the id granted last, wrapping (R393). -/
def turnOf (a : Arbiter) (w : Waiting) : Nat := (w.req.requester.val + 31 - a.lastId) % 32

theorem ranksBefore_eq_false_iff {x y : Waiting} : ranksBefore a t x y = false ↔
    arbKey a t y ≤ arbKey a t x ∧ (arbKey a t y = arbKey a t x →
      tieClass a x.req.requester.val ≤ tieClass a y.req.requester.val ∧
      (tieClass a x.req.requester.val = tieClass a y.req.requester.val → turnOf a y ≤ turnOf a x)) := by
  simp only [ranksBefore, turnOf, Bool.or_eq_false_iff, Bool.and_eq_false_iff, decide_eq_false_iff_not, beq_eq_false_iff_ne]
  omega

/-- Of two requests one does not rank before the other. -/
theorem ranksBefore_asymm {x y : Waiting} (h : ranksBefore a t x y = true) : ranksBefore a t y x = false := by
  by_contra hyx
  rw [← Bool.not_eq_false, ranksBefore_eq_false_iff] at h
  rw [ranksBefore_eq_false_iff] at hyx
  omega

/-- Not to rank before is transitive. -/
theorem not_ranksBefore_trans {x y z : Waiting} (hxy : ranksBefore a t x y = false) (hyz : ranksBefore a t y z = false) :
    ranksBefore a t x z = false := by
  rw [ranksBefore_eq_false_iff] at *
  omega

theorem firstRank_isSome {l : List Waiting} (hl : l ≠ []) : (firstRank a t l).isSome = true := by
  obtain ⟨w, r, rfl⟩ := List.exists_cons_of_ne_nil hl
  unfold firstRank
  repeat' split
  all_goals rfl

theorem firstRank_first {l : List Waiting} {w : Waiting} (h : firstRank a t l = some w) :
    w ∈ l ∧ ∀ v ∈ l, ranksBefore a t v w = false := by
  induction l generalizing w with
  | nil => cases h
  | cons u r ih =>
    have hself : ranksBefore a t u u = false := ranksBefore_eq_false_iff.mpr (by omega)
    unfold firstRank at h
    cases hr : firstRank a t r with
    | none =>
      have hnil : r = [] := by
        by_contra hne
        simpa [hr] using firstRank_isSome (a := a) (t := t) hne
      rw [hr] at h
      obtain rfl := Option.some.inj h
      simp [hnil, hself]
    | some v =>
      obtain ⟨hmem, hfirst⟩ := ih hr
      simp only [hr] at h
      split at h
      case isTrue hvu =>
        obtain rfl := Option.some.inj h
        exact ⟨List.mem_cons_of_mem u hmem, List.forall_mem_cons.mpr ⟨ranksBefore_asymm hvu, hfirst⟩⟩
      case isFalse hvu =>
        obtain rfl := Option.some.inj h
        exact ⟨List.mem_cons_self, List.forall_mem_cons.mpr
          ⟨hself, fun x hx => not_ranksBefore_trans (hfirst x hx) (Bool.eq_false_iff.mpr hvu)⟩⟩

/-- Settles O56: the request taken is one that no other of the list ranks before. -/
theorem arbiterRanks : Obligations.ArbiterRanks := by
  refine fun a t l => ⟨firstRank_isSome, fun w hw => ?_⟩
  obtain ⟨hmem, hfirst⟩ := firstRank_first hw
  refine ⟨hmem, rfl, fun v hv => ?_⟩
  obtain ⟨hkey, htie⟩ := ranksBefore_eq_false_iff.mp (hfirst v hv)
  exact ⟨hkey, fun heq => (htie heq).1, fun heq hclass => (htie heq).2 hclass⟩

end Sys2Proof.ArbitrationProofs
end

section
/-! SUPPORT. The interlock matrix (R452 to R458): what a permit needs (O54), what a trip brings (O55), and its operations and
inputs, one lemma per command (O35). -/

namespace Sys2Proof.InterlockProofs

open Sys2Proof Sys2Proof.Machine Sys2Proof.Laws Sys2Proof.CompletionProofs Sys2Proof.ObjectProofs

/-! ### The permit of a bar -/

section Permit

variable {s : State} {b : Nat}

/-- What a high permit needs (R454), the row taken as bits. -/
theorem ilkPermit_iff : ilkPermit s b = true ↔ s.ilk.locked = true ∧ s.ilk.rows.getD b 0 ≠ 0 ∧
    ∀ i < 16, (s.ilk.rows.getD b 0).getLsbD i = true →
      (ilkAt s i).type ≠ 0 ∧ (ilkAt s i).healthy = true ∧ (ilkAt s i).latched = false := by
  simp only [ilkPermit, ilkAt, Bool.and_eq_true, bne_iff_ne, List.all_eq_true, List.mem_range, Bool.or_eq_true,
    Bool.not_eq_true', and_assoc, ← imp_iff_not_or, ← Bool.not_eq_true]

theorem ilkPermit_of_unhealthy {i : Nat} (hi : i < 16) (hnamed : (s.ilk.rows.getD b 0).getLsbD i = true)
    (hsick : (ilkAt s i).healthy = false) : ilkPermit s b = false := by
  refine Bool.eq_false_iff.mpr fun hp => ?_
  obtain ⟨-, -, hall⟩ := ilkPermit_iff.mp hp
  obtain ⟨-, hhealthy, -⟩ := hall i hi hnamed
  exact Bool.false_ne_true (hsick.symm.trans hhealthy)

theorem ilkPermit_of_empty_row (hrow : ∀ i < 16, (s.ilk.rows.getD b 0).getLsbD i = false) : ilkPermit s b = false := by
  refine Bool.eq_false_iff.mpr fun hp => ?_
  obtain ⟨-, hne, -⟩ := ilkPermit_iff.mp hp
  exact hne (BitVec.eq_of_getLsbD_eq fun i hi => (hrow i hi).trans BitVec.getLsbD_zero.symm)

/-- FIRE_EN is low without the permit (R183). -/
theorem fireEn_of_not_permit (hp : ilkPermit s b = false) : fireEn s b = false := by simp [fireEn, hp]

/-- Settles O54: a row that is not 0 has a bit, and every bit of it names an input that must be healthy. -/
theorem permitNeedsHealth : Obligations.PermitNeedsHealth := by
  refine fun s b => ⟨fun hp => ?_, ilkPermit_of_empty_row, fireEn_of_not_permit⟩
  obtain ⟨hlocked, hne, hall⟩ := ilkPermit_iff.mp hp
  refine ⟨hlocked, ?_, fun i hi hnamed => (hall i hi hnamed).2⟩
  by_contra hnone
  push Not at hnone
  refine Bool.false_ne_true ((ilkPermit_of_empty_row fun i hi => ?_).symm.trans hp)
  exact Bool.eq_false_iff.mpr (hnone i hi)

end Permit

/-! ### Inputs -/

section Inputs

variable {i : Fin 16} {ohms held : Nat} {s : State}

/-- The state after an accepted trip of a healthy input, before the changes of FIRE_EN are told (R453, R458). -/
def tripped (i : Nat) (short : Bool) (s : State) : State :=
  let s1 := setIlk s i fun q =>
    { q with healthy := false, goodSince := none, short := short, latched := q.latched || q.latch }
  let s2 := { s1 with ilk := { s1.ilk with trips := (s1.ilk.trips + 1) % 2 ^ 32, cairnTrips := s1.ilk.cairnTrips + 1 } }
  auditRuns (fun _ => true) (fun a => { a with trips := a.trips + 1 }) s2

section Trip

variable (htype : (ilkAt s i).type ≠ 0) (hloop : loopHealthy (ilkAt s i).type ohms = false)
  (hheld : 100 * (ilkAt s i).filter ≤ held)

include htype hloop hheld

theorem interlock_not_ignored : ¬((ilkAt s i).type = 0 ∨ loopHealthy (ilkAt s i).type ohms = true ∨
    held < 100 * (ilkAt s i).filter) := by
  rw [hloop]
  simp [htype, Nat.not_lt.mpr hheld]

theorem interlock_unhealthy (hsick : (ilkAt s i).healthy = false) :
    exec (.interlock i ohms held) s = .next (setIlk s i fun q => { q with goodSince := none }) :=
  congrArg Host.Outcome.next ((if_neg (interlock_not_ignored htype hloop hheld)).trans (if_pos (by rw [hsick]; rfl)))

theorem interlock_trips (hhealthy : (ilkAt s i).healthy = true) :
    let short : Bool := (ilkAt s i).type == 1 && ohms < 700
    exec (.interlock i ohms held) s = .next (noteFireEn 1 s
      (ilkEvent i (if short then 2 else 1) false (s.time.field - held) s (tripped i short s))) :=
  congrArg Host.Outcome.next ((if_neg (interlock_not_ignored htype hloop hheld)).trans (if_neg (by rw [hhealthy]; decide)))

end Trip

section Healthy

variable (htype : (ilkAt s i).type ≠ 0) (hsick : (ilkAt s i).healthy = false)
  (hloop : loopSettled (ilkAt s i).type ohms = true)

include htype hsick hloop

theorem interlockHealthy_begins (hfirst : (ilkAt s i).goodSince = none) :
    exec (.interlockHealthy i ohms) s = .next (setIlk s i fun q => { q with goodSince := some s.time.clock }) := by
  simp [exec, execInterlockHealthy, htype, hsick, hloop, hfirst]

theorem interlockHealthy_returns {t : Nat} (hsince : (ilkAt s i).goodSince = some t) (hlong : t + 10000000 ≤ s.time.clock) :
    let s1 := setIlk s i fun q => { q with healthy := true }
    let s2 := { s1 with ilk := { s1.ilk with cairnHealths := s1.ilk.cairnHealths + 1 } }
    exec (.interlockHealthy i ohms) s = .next (noteFireEn 1 s (ilkEvent i 0 false s.time.field s s2)) := by
  simp [exec, execInterlockHealthy, htype, hsick, hloop, hsince, Nat.not_lt.mpr hlong]

end Healthy

end Inputs

/-! ### A trip lowers FIRE_EN -/

section Trips

variable {s : State}

theorem ilkAt_setIlk {i : Nat} (hi : i < s.ilk.inputs.length) (f : IlkInput → IlkInput) :
    ilkAt (setIlk s i f) i = f (ilkAt s i) := by
  simp [ilkAt, setIlk, modAt, List.getD_eq_getElem?_getD, hi]

/-- A change of FIRE_EN is told and changes nothing but what is on its way to the host. -/
theorem noteFireEn_frame (cause : Nat) (before s : State) : (noteFireEn cause before s).ilk = s.ilk ∧
    (noteFireEn cause before s).mem = s.mem ∧ (noteFireEn cause before s).objs = s.objs := by
  unfold noteFireEn
  dsimp only
  split <;> simp

theorem ilkEvent_frame (i state : Nat) (rearmed : Bool) (t : Nat) (before s : State) :
    (ilkEvent i state rearmed t before s).ilk = s.ilk ∧ (ilkEvent i state rearmed t before s).mem = s.mem ∧
      (ilkEvent i state rearmed t before s).objs = s.objs := by
  unfold ilkEvent
  split <;> simp

theorem ilkAt_congr {t : State} (h : t.ilk = s.ilk) (i : Nat) : ilkAt t i = ilkAt s i := by rw [ilkAt, h]; rfl

theorem ilkAt_tripped {i : Nat} (hi : i < s.ilk.inputs.length) (short : Bool) : ilkAt (tripped i short s) i =
    { ilkAt s i with healthy := false, goodSince := none, short := short
                     latched := (ilkAt s i).latched || (ilkAt s i).latch } :=
  (ilkAt_congr rfl i).trans (ilkAt_setIlk hi _)

/-- An input that is not healthy keeps FIRE_EN low at every bar whose row names it (R183, R454). -/
theorem fireEn_of_unhealthy {t : State} {i : Nat} (hi : i < 16) (hrows : t.ilk.rows = s.ilk.rows)
    (hsick : (ilkAt t i).healthy = false) (b : Nat) (hnamed : (s.ilk.rows.getD b 0).getLsbD i = true) : fireEn t b = false :=
  fireEn_of_not_permit (ilkPermit_of_unhealthy hi (hrows ▸ hnamed) hsick)

/-- Settles O55: an input already tripped stays so; a healthy one is set unhealthy, and what is told afterwards changes
neither. -/
theorem tripLowersFireEn : Obligations.TripLowersFireEn := by
  intro i ohms held s hlen htype hloop hheld
  have hi : i.val < s.ilk.inputs.length := by omega
  cases hhealthy : (ilkAt s i).healthy with
  | false =>
    have hsick : (ilkAt (setIlk s i fun q => { q with goodSince := none }) i).healthy = false := by
      rw [ilkAt_setIlk hi]; exact hhealthy
    exact ⟨_, interlock_unhealthy htype hloop hheld hhealthy, hsick, nofun, fireEn_of_unhealthy i.isLt rfl hsick, rfl, rfl⟩
  | true =>
    refine ⟨_, interlock_trips htype hloop hheld hhealthy, ?_⟩
    generalize htrip : tripped i _ s = t3
    have hinput : ilkAt t3 i = _ := htrip ▸ ilkAt_tripped hi _
    have hrows : t3.ilk.rows = s.ilk.rows := htrip ▸ rfl
    have hmem : t3.mem = s.mem := htrip ▸ rfl
    have hobjs : t3.objs = { s.objs with runs := t3.objs.runs } := htrip ▸ rfl
    generalize htold : noteFireEn 1 s (ilkEvent i _ false _ s t3) = t
    have hilk : t.ilk = t3.ilk := by rw [← htold, (noteFireEn_frame ..).1, (ilkEvent_frame ..).1]
    have hmem' : t.mem = t3.mem := by rw [← htold, (noteFireEn_frame ..).2.1, (ilkEvent_frame ..).2.1]
    have hobjs' : t.objs = t3.objs := by rw [← htold, (noteFireEn_frame ..).2.2, (ilkEvent_frame ..).2.2]
    have hat : ilkAt t i = ilkAt t3 i := ilkAt_congr hilk i
    have hsick : (ilkAt t i).healthy = false := by rw [hat, hinput]
    refine ⟨hsick, fun _ hlatch => by rw [hat, hinput, hlatch, Bool.or_true],
      fireEn_of_unhealthy i.isLt (hilk ▸ hrows) hsick, hmem'.trans hmem, ?_⟩
    rw [hobjs']
    exact hobjs

end Trips

/-! ### Messages -/

section Messages

variable {m : Msg} {s : State}

theorem sysInterlockConfig_completes (ha : admitted opSysInterlockConfig m s = true) (hopen : s.ilk.locked = false) :
    Completes (.sysInterlockConfig m) opSysInterlockConfig m s { state := { s with ilk := { s.ilk with
      inputs := s.ilk.inputs.zipIdx.map (configureInput m.payload)
      rows := (List.range 8).map fun r => BitVec.ofNat 16 (u16 m.payload (64 + 2 * r))
      config := m.payload } } } :=
  completes_of_body rfl ha (require_bind (by rw [hopen]; rfl) _)

theorem sysInterlockLock_again (ha : admitted opSysInterlockLock m s = true) (hlocked : s.ilk.locked = true) :
    Completes (.sysInterlockLock m) opSysInterlockLock m s
      { state := s, payload := leB 48 (Config.sha384 s.ilk.config) } :=
  completes_of_body rfl ha (if_pos hlocked)

theorem sysInterlockLock_first (ha : admitted opSysInterlockLock m s = true) (hopen : s.ilk.locked = false) :
    let h := Config.sha384 s.ilk.config
    let m2 := Config.sha384 (leB 48 (s.cairn.m.getD 2 0) ++ leB 48 h)
    Completes (.sysInterlockLock m) opSysInterlockLock m s
      { state := noteFireEn 1 s { s with
          ilk := { s.ilk with locked := true, lockHash := h }
          cairn := { s.cairn with m := setAt s.cairn.m 2 m2 } }
        payload := leB 48 h } :=
  completes_of_body rfl ha (if_neg (by rw [hopen]; decide))

theorem sysInterlockQuery_completes (ha : admitted opSysInterlockQuery m s = true) :
    ∃ b : Bytes, b.length = 24 + 2 * s.ilk.rows.length ∧
      Completes (.sysInterlockQuery m) opSysInterlockQuery m s { state := s, payload := b } := by
  refine ⟨_, ?_, completes_of_body rfl ha rfl⟩
  simp only [List.length_append, List.length_flatMap, le_length, leB_length, zeros_length, List.map_const', List.sum_replicate,
    smul_eq_mul]
  omega

end Messages

/-- Settles O35: each clause is the lemma of its command; sys.interlock_rearm checks nothing of its own. -/
theorem interlockComplete : Obligations.InterlockComplete :=
  ⟨fun _ _ => sysInterlockConfig_completes,
    fun _ _ ha => ⟨sysInterlockLock_again ha, sysInterlockLock_first ha⟩,
    fun _ _ ha => completes_of_body rfl ha rfl, fun _ _ => sysInterlockQuery_completes,
    fun _ _ _ _ htype hloop hheld => ⟨interlock_unhealthy htype hloop hheld, interlock_trips htype hloop hheld⟩,
    fun _ _ _ htype hsick hloop => ⟨interlockHealthy_begins htype hsick hloop, fun _ => interlockHealthy_returns htype hsick hloop⟩⟩

end Sys2Proof.InterlockProofs
end

section
/-! SUPPORT. The image memory's operations and steps (O27): what each does under the conditions of its rule, one lemma per
command. -/

namespace Sys2Proof.DramProofs

open Sys2Proof Sys2Proof.Machine Sys2Proof.Laws Sys2Proof.CompletionProofs Sys2Proof.WindowProofs

variable {s : State}

/-! ### Messages -/

theorem diagMemQuery_completes {m : Msg} (ha : admitted opDiagMemQuery m s = true) :
    ∃ b : Bytes, b.length = 144 ∧ Completes (.diagMemQuery m) opDiagMemQuery m s { state := s, payload := b } := by
  refine ⟨_, ?_, completes_of_body rfl ha rfl⟩
  simp only [List.length_append, List.length_flatMap, le_length, leS_length, zeros_length, List.map_const', List.length_range,
    List.sum_replicate, smul_eq_mul]

/-! ### Scrub, power-down, self-refresh -/

theorem scrubPass_closes (hinstalled : segmentCount s ≠ 0) (hall : segmentCount s ≤ s.mem.scrubNext) :
    let s1 := fieldEvent 0x0E15 0 (le 4 (min ((s.time.clock - s.mem.scrubAt) / 1000000000) 0xFFFFFFFF) ++
      le 4 (min s.mem.scrubCePass 0xFFFFFFFF)) s
    exec .scrubPass s = .next { s1 with mem := { s1.mem with
      scrubPasses := (s1.mem.scrubPasses + 1) % 2 ^ 32, scrubNext := 0, scrubAt := s1.time.clock, scrubCePass := 0 } } :=
  congrArg Host.Outcome.next (if_neg (not_or.mpr ⟨hinstalled, Nat.not_lt.mpr hall⟩))

theorem powerDownEntry_enters {r : Fin 8} (htrained : s.mem.trained = true) (hpd : s.mem.pdClocks ≠ 0)
    (hthere : rankThere s.mem.inForce r = true) (hawake : s.mem.selfRefresh = false)
    (hidle : 1000 * s.mem.pdClocks ≤ (s.time.clock - s.mem.lastCmd.getD r 0) * dramMhz s.mem.inForce.rate) :
    exec (.powerDownEntry r) s = .next { s with mem := { s.mem with powerDown := setAt s.mem.powerDown r true } } :=
  congrArg Host.Outcome.next (if_pos ⟨htrained, hpd, hthere, by rw [hawake]; rfl, hidle⟩)

theorem selfRefreshEntry_enters (htrained : s.mem.trained = true) (hsr : s.mem.srIdleUs ≠ 0) (hidle : memIdle s = true)
    (hawake : s.mem.selfRefresh = false) (hlong : s.mem.idleSince + 1000 * s.mem.srIdleUs ≤ s.time.clock) :
    exec .selfRefreshEntry s = .next { s with mem := { s.mem with selfRefresh := true, srExit := none } } :=
  congrArg Host.Outcome.next (if_pos ⟨htrained, hsr, hidle, by rw [hawake]; rfl, hlong⟩)

theorem selfRefreshExit_leaves {c : Nat} (hasleep : s.mem.selfRefresh = true) (hexit : s.mem.srExit = some c) :
    exec .selfRefreshExit s = .next { s with mem := { s.mem with
      selfRefresh := false, srExit := none, idleSince := s.time.clock, lastCmd := List.replicate 8 s.time.clock } } := by
  simp only [exec, execSelfRefreshExit, hasleep, hexit]

/-! ### ZQ calibration and temperature -/

theorem zqCalibration_due (htrained : s.mem.trained = true) (hawake : s.mem.selfRefresh = false)
    (hlong : s.mem.zqAt + 128000000 ≤ s.time.clock) :
    exec .zqCalibration s = .next { s with mem := { s.mem with zqAt := s.time.clock } } :=
  congrArg Host.Outcome.next (if_pos ⟨htrained, by rw [hawake]; rfl, hlong⟩)

theorem dramTempRead_due {temps : List Int} (hdue : due s.mem.tempAt 32000000 s.time.clock = true) :
    let at0 := if s.mem.trained ∧ s.mem.trainTemp = none then some (temps.take 8) else s.mem.trainTemp
    exec (.dramTempRead temps) s = .next ((List.range 8).foldl (fun s r => rankTemp temps r s)
      { s with mem := { s.mem with tempAt := some s.time.clock, trainTemp := at0 } }) :=
  congrArg Host.Outcome.next (if_pos hdue)

/-! ### Training -/

theorem training_not_passed {p q : Bool} {margin : Nat} (hbad : p = false ∨ q = false ∨ margin < 12) :
    ¬(p = true ∧ q = true ∧ 12 ≤ margin) := by
  rintro ⟨hp, hq, hmargin⟩
  rcases hbad with h | h | h
  · exact Bool.false_ne_true (h.symm.trans hp)
  · exact Bool.false_ne_true (h.symm.trans hq)
  · omega

section Training

variable {p q : Bool} {margin : Nat} {rank : Fin 8} {words : List (BitVec 32)} (hup : s.power.fieldReset = false)
  (hfirst : s.mem.trained = false) (hgood : s.mem.failed = false) (hfs : s.saddle.approved = true)

include hup hfirst hgood hfs

theorem memTrained_not_ignored : ¬(s.power.fieldReset = true ∨ s.mem.trained = true ∨ s.mem.failed = true ∨
    (!s.saddle.approved) = true) := by
  simp [hup, hfirst, hgood, hfs]

theorem memTrained_makes_store (hp : p = true) (hq : q = true) (hmargin : 12 ≤ margin) :
    ∃ t : State, exec (.memTrained p q margin rank words) s = .next t ∧ t.mem.trained = true ∧
      t.store.installed = installedBytes s.mem.inForce ∧ t.store.free = List.range t.store.total ∧
      t.mem.cells = s.mem.cells ∧ t.objs = s.objs := by
  have htrains : p = true ∧ q = true ∧ 12 ≤ margin := ⟨hp, hq, hmargin⟩
  simp only [exec, execMemTrained, if_neg (memTrained_not_ignored hup hfirst hgood hfs), if_pos htrains, done]
  exact exists_next_noteStatus fun w => by simp

section Failed

variable (hbad : p = false ∨ q = false ∨ margin < 12)

include hbad

theorem memTrained_falls_back (hfast : s.mem.inForce.rate ≠ 0) : exec (.memTrained p q margin rank words) s =
    .next { s with mem := { s.mem with fallback := true, inForce := { s.mem.inForce with rate := 0 } } } :=
  (if_neg (memTrained_not_ignored hup hfirst hgood hfs)).trans ((if_neg (training_not_passed hbad)).trans (if_pos hfast))

/-- No status word tells of the failure: bit 2 of DEVICE_STATUS was clear and stays so. -/
theorem memTrained_fails (hslow : s.mem.inForce.rate = 0) : exec (.memTrained p q margin rank words) s =
    .next (fieldEvent 0x0E13 0 (le 1 0 ++ le 1 2 ++ le 2 margin ++ le 1 rank)
      { s with mem := { s.mem with failed := true }, thermal := { s.thermal with housekeeping := false } }) := by
  set t : State := { s with mem := { s.mem with failed := true }, thermal := { s.thermal with housekeeping := false } } with ht
  have hwords : statusWords s = statusWords t := by rw [ht]; rfl
  refine (if_neg (memTrained_not_ignored hup hfirst hgood hfs)).trans
    ((if_neg (training_not_passed hbad)).trans ((if_neg (not_not.mpr hslow)).trans (congrArg Host.Outcome.next ?_)))
  exact noteStatus_of_words (hwords.trans (statusWords_fieldEvent ..).symm)

end Failed

end Training

/-- Settles O27: each clause is the lemma of its command; diag.mem_config and diag.mem_training check nothing of their own. -/
theorem dramComplete : Obligations.DramComplete :=
  ⟨fun _ _ ha => completes_of_body rfl ha rfl, fun _ _ => diagMemQuery_completes, fun _ _ ha => completes_of_body rfl ha rfl,
    fun _ => scrubPass_closes, fun _ _ => powerDownEntry_enters, fun _ => selfRefreshEntry_enters,
    fun _ _ => selfRefreshExit_leaves, fun _ => zqCalibration_due, fun _ _ => dramTempRead_due,
    fun _ _ _ _ _ _ hup hfirst hgood hfs =>
      ⟨memTrained_makes_store hup hfirst hgood hfs, memTrained_falls_back hup hfirst hgood hfs,
        memTrained_fails hup hfirst hgood hfs⟩⟩

end Sys2Proof.DramProofs
end

section
/-! SUPPORT. The arbitration operations and the arbiters' own steps (O28): what each does under the conditions of its rule, one
lemma per command. -/

namespace Sys2Proof.ArbitrationProofs

open Sys2Proof Sys2Proof.Machine Sys2Proof.Laws Sys2Proof.CompletionProofs Sys2Proof.ObjectProofs

variable {s : State}

/-! ### Messages -/

section Messages

variable {m : Msg}

theorem diagArbPrio_port (ha : admitted opDiagArbPrio m s = true) (hport : byteAt m.payload 0 = 0) :
    let words := (List.range (byteAt m.payload 3)).map fun i => w32 m.payload (8 + 4 * i)
    Completes (.diagArbPrio m) opDiagArbPrio m s { state := setArb s false (byteAt m.payload 1) fun a =>
      { a with shadow := smSetRun a.shadow (byteAt m.payload 2) words } } :=
  completes_of_body rfl ha (if_pos hport)

theorem diagArbPrio_cluster (ha : admitted opDiagArbPrio m s = true) (hcluster : byteAt m.payload 0 ≠ 0) :
    let words := (List.range (byteAt m.payload 3)).map fun i => w32 m.payload (8 + 4 * i)
    Completes (.diagArbPrio m) opDiagArbPrio m s
      { state := setArb s true (byteAt m.payload 1) fun a =>
          revise true (nowTick s) 41 (fun _ => true) { a with active := smSetRun a.active (byteAt m.payload 2) words } } :=
  completes_of_body rfl ha (if_neg hcluster)

/-- The shadows of a cluster are answered as zeros, so the length is the same for both. -/
theorem diagArbQuery_completes (ha : admitted opDiagArbQuery m s = true) :
    ∃ b : Bytes, b.length = 264 ∧ Completes (.diagArbQuery m) opDiagArbQuery m s { state := s, payload := b } := by
  refine ⟨_, ?_, completes_of_body rfl ha rfl⟩
  simp only [List.length_append, List.length_flatMap, apply_ite List.length, le_length, leB_length, zeros_length,
    List.map_const', List.length_range, List.sum_replicate, smul_eq_mul, ite_self]

end Messages

/-! ### Requests -/

section Requests

variable {cluster : Bool} {i : Fin 4} {req : ArbReq} (flips : EccFlips) (hok : requestOk cluster i req s = true)

include hok

theorem arbRequest_breaks_lock (hrule : lockRule s req (subchannel s.mem.inForce req.address.toNat) = false) :
    exec (.arbRequest cluster i req flips) s = .next (protocolFault req s) := by
  simp only [exec, execArbRequest, hok, hrule, Bool.not_true, Bool.not_false, Bool.false_eq_true, if_false, if_true]

section Keeps

variable (hrule : lockRule s req (subchannel s.mem.inForce req.address.toNat) = true)

include hrule

theorem arbRequest_port (hport : cluster = false) :
    let idle := arbIdle (portAt s i) (nowTick s) && !s.mem.selfRefresh && lockLets (portAt s i) req
    let s1 := enterPort i req idle s
    exec (.arbRequest cluster i req flips) s = .next (if idle then portDecision i flips s1 else s1) := by
  subst hport
  simp only [exec, execArbRequest, hok, hrule, Bool.not_true, Bool.false_eq_true, if_false]

theorem arbRequest_cluster (hcluster : cluster = true) :
    let p := subchannel s.mem.inForce req.address.toNat
    let now := nowTick s
    let idle := arbIdle (clusterAt s i) now && slotsUsed (portAt s p) req.requester.val < 4
    let s1 := setArb s true i fun a =>
      let w := { newWaiting s req with forecast := if idle then now else forecastOf true a now 41 0 (newWaiting s req) }
      revise true now 41 (fun v => v != w && ranksBefore a now w v) { a with queue := a.queue ++ [w] }
    exec (.arbRequest cluster i req flips) s = .next (if idle then clusterDecision i s1 else s1) := by
  subst hcluster
  simp only [exec, execArbRequest, hok, hrule, Bool.not_true, Bool.false_eq_true, if_false, if_true]

end Keeps

end Requests

/-! ### Decisions -/

section Decisions

variable {i : Fin 4} (flips : EccFlips)

section Awake

variable (hawake : s.mem.selfRefresh = false) (hfree : refreshing (portAt s i) (nowTick s) = false)

include hawake hfree

theorem port_decides : ¬(portAsleep s = true ∨ refreshing (portAt s i) (nowTick s) = true) := by
  rw [portAsleep, hawake, hfree]; decide

theorem arbDecision_emergency {w : Waiting} : let s1 := expireLock i (commitShadows i s)
    emergencyDue (portAt s1 i) (nowTick s) (fun _ => true) = some w →
    exec (.arbDecision false i flips) s = .next (takeEmergency i w flips s1) := by
  intro s1 hdue
  simp only [exec, execArbDecision, portDecision, if_neg (port_decides hawake hfree), Bool.false_eq_true, if_false]
  rw [hdue]

section Contest

variable {w : Waiting} {s1 : State} (hs1 : s1 = expireLock i (commitShadows i s))
  (hnone : emergencyDue (portAt s1 i) (nowTick s) (fun _ => true) = none)

include hs1 hnone

/-- No emergency request is due, so the first of those that the lock lets through is granted (R393, R395). -/
theorem arbDecision_grants (hfirst : firstRank (portAt s1 i) (nowTick s) (portEligible (portAt s1 i) (nowTick s)) = some w)
    (hrefresh : w.req.requester ≠ 21) (hdebug : ¬(w.req.requester = 20 ∧ (portAt s1 i).lock.isSome = true)) :
    exec (.arbDecision false i flips) s = .next (grantSegment i w flips s1) := by
  have hplain : ¬(w.req.requester.val = 21 ∨ (w.req.requester.val = 20 ∧ (portAt s1 i).lock.isSome = true)) := by
    rintro (h21 | ⟨h20, hlock⟩)
    · exact hrefresh (Fin.ext h21)
    · exact hdebug ⟨Fin.ext h20, hlock⟩
  subst hs1
  simp only [exec, execArbDecision, portDecision, if_neg (port_decides hawake hfree), Bool.false_eq_true, if_false, hnone,
    hfirst, if_neg hplain]

theorem arbDecision_idles (hempty : firstRank (portAt s1 i) (nowTick s) (portEligible (portAt s1 i) (nowTick s)) = none) :
    exec (.arbDecision false i flips) s = .next (setArb s1 false i fun a => { a with current := none }) := by
  subst hs1
  simp only [exec, execArbDecision, portDecision, if_neg (port_decides hawake hfree), Bool.false_eq_true, if_false, hnone,
    hempty]

end Contest

end Awake

theorem sleepWake_grants {w : Waiting} (hawake : s.mem.selfRefresh = false) :
    let s1 := commitShadows i s
    let a := portAt s1 i
    a.lock = none → refreshing a (nowTick s) = false →
    firstRank a (nowTick s) (a.queue.filter fun w =>
      w.req.sleep && prioClass a w.req.requester.val == 0 && ticksTo w.forecast (nowTick s) ≤ 0) = some w →
    exec (.sleepWake i flips) s = .next (grantSegment i w flips s1) := by
  intro s1 a hlock hfree hfirst
  have hgo : ¬(portAsleep s = true ∨ a.lock.isSome = true ∨ refreshing a (nowTick s) = true) := by
    rw [portAsleep, hawake, hlock, hfree]; decide
  simp only [exec, execSleepWake]
  rw [hfirst]
  exact congrArg Host.Outcome.next (if_neg hgo)

theorem lockExpiry_expires {k : LockState} (hlock : (portAt s i).lock = some k)
    (hlimit : 16 ≤ k.segments ∨ 200 ≤ lockTicks k (nowTick s)) :
    exec (.lockExpiry i) s = .next (arbLockEvent i k.owner 1 k.lastSeg (setArb s false i fun a => dropLock { a with
      lapsed := if a.queue.any fun w => w.req.requester.val == k.owner && w.req.lock == .last then a.lapsed
        else k.owner :: a.lapsed
      queue := a.queue.map fun w =>
        if w.req.requester.val == k.owner && w.req.lock != .none then
          { w with req := { w.req with lock := .none }, expired := true }
        else w })) := by
  simp only [exec, execLockExpiry, expireLock, hlock, if_pos hlimit]

theorem emergencyTake_takes {refresh : Bool} {w : Waiting} (hawake : s.mem.selfRefresh = false)
    (hfree : refreshing (portAt s i) (nowTick s) = false)
    (hdue : emergencyDue (portAt (commitShadows i s) i) (nowTick s) (fun r => r == (if refresh then 21 else 20)) = some w) :
    exec (.emergencyTake i refresh flips) s = .next (takeEmergency i w flips (commitShadows i s)) := by
  simp only [exec, execEmergencyTake, hdue, if_neg (port_decides hawake hfree)]

theorem refreshDue_joins {rank : Fin 2} (htrained : s.mem.trained = true) (hawake : s.mem.selfRefresh = false) :
    let r := 2 * i.val + rank.val
    rankThere s.mem.inForce r = true → s.mem.refreshNext.getD r 0 ≤ s.time.clock →
    let w := newWaiting s ⟨21, .arrival, 64, false, BitVec.ofNat 38 rank.val, .none, false⟩
    let s1 := setArb s false i fun a => { a with queue := a.queue ++ [w] }
    let s2 := { s1 with mem := { s1.mem with
      refreshNext := setAt s1.mem.refreshNext r (s.time.clock + trefi (s.mem.band.getD r 0)) } }
    exec (.refreshDue i rank) s =
      .next (if arbIdle (portAt s i) (nowTick s) then takeEmergency i w noFlips s2 else s2) := by
  intro r hthere hdue w s1 s2
  refine congrArg Host.Outcome.next (if_neg ?_)
  rintro (h | h | h | h)
  · rw [htrained] at h; cases h
  · exact Bool.false_ne_true (hawake.symm.trans h)
  · rw [hthere] at h; cases h
  · exact absurd hdue (Nat.not_le.mpr h)

end Decisions

/-! ### A broken lock -/

section Broken

/-- The lock of a port released because the reset requester `id` holds it (R407). -/
def breakLock (id : Nat) (s : State) (p : Nat) : State :=
  match (portAt s p).lock with
  | none => s
  | some k => arbLockEvent p id 2 k.lastSeg (setArb s false p fun a => dropLock { a with
      broken := true, lockOwner := id, lockSeg := BitVec.ofNat 32 k.lastSeg, tellBroken := true })

/-- The locks dropped leave the engines' faults, the memory and the objects. -/
theorem foldl_breakLock_keeps (id : Nat) (l : List Nat) (s : State) :
    let t := l.foldl (breakLock id) s
    (t.fabric.faulty, t.mem, t.objs) = (s.fabric.faulty, s.mem, s.objs) := by
  refine foldl_keeps (g := fun s : State => (s.fabric.faulty, s.mem, s.objs)) (fun s p => ?_) l s
  unfold breakLock
  split
  · rfl
  · simp [arbLockEvent, setArb]

/-- A queue from which a requester's requests are withdrawn (R407). -/
theorem not_mem_withdrawn {id : Nat} {q : List Waiting} :
    ∀ w ∈ q.filter (fun w => w.req.requester.val != id), w.req.requester.val ≠ id :=
  fun _ hw => bne_iff_ne.mp (List.mem_filter.mp hw).2

theorem lockBroken_releases (r : Fin 32) (s : State) : ∃ t : State, exec (.lockBroken r) s = .next t ∧
    (∀ a ∈ t.fabric.ports, ∀ w ∈ a.queue, w.req.requester.val ≠ r.val) ∧
    (∀ a ∈ t.fabric.clusters, ∀ w ∈ a.queue, w.req.requester.val ≠ r.val) ∧
    t.fabric.faulty = s.fabric.faulty.filter (· != r.val) ∧ t.mem = s.mem ∧ t.objs = s.objs := by
  have hkeeps := foldl_breakLock_keeps r ((List.range 4).filter fun p => (portAt s p).lock.any fun k => k.owner == r.val) s
  simp only [Prod.mk.injEq] at hkeeps
  obtain ⟨hfaulty, hmem, hobjs⟩ := hkeeps
  refine ⟨_, rfl, ?_, ?_, congrArg _ hfaulty, hmem, hobjs⟩
  · refine List.forall_mem_map.mpr fun a _ => not_mem_withdrawn
  · refine List.forall_mem_map.mpr fun a _ => not_mem_withdrawn

end Broken

/-- Settles O28: each clause is the lemma of its command; diag.arb_commit checks nothing of its own, and a cluster decides
under no condition. -/
theorem arbitrationComplete : Obligations.ArbitrationComplete := by
  refine ⟨fun _ _ ha => ⟨diagArbPrio_port ha, diagArbPrio_cluster ha⟩, fun _ _ ha => completes_of_body rfl ha rfl,
    fun _ _ => diagArbQuery_completes, fun _ _ _ flips _ hok => ?_, fun _ flips _ hawake hfree => ?_,
    fun _ flips _ _ => sleepWake_grants flips, fun _ _ _ => lockExpiry_expires,
    fun _ _ flips _ _ => emergencyTake_takes flips, fun _ _ _ => refreshDue_joins, lockBroken_releases⟩
  · exact ⟨arbRequest_breaks_lock flips hok, arbRequest_port flips hok, arbRequest_cluster flips hok⟩
  · refine ⟨fun _ => arbDecision_emergency flips hawake hfree, fun _ => ?_, ?_, rfl⟩
    · exact arbDecision_grants flips hawake hfree rfl
    · exact arbDecision_idles flips hawake hfree rfl

end Sys2Proof.ArbitrationProofs
end

section
/-! SUPPORT. The PTP, servo and time operations (O31): the checks of each body pass, one lemma per message. -/

namespace Sys2Proof.TimeProofs

open Sys2Proof Sys2Proof.Machine Sys2Proof.Laws Sys2Proof.CompletionProofs Sys2Proof.ObjectProofs

section Messages

variable {m : Msg} {s : State}

/-- A time that is stepped by its distance to another becomes the other. -/
theorem shiftTime_sub (t u : Nat) : shiftTime t ((u : Int) - t) = u := by
  rw [shiftTime, add_sub_cancel, Int.toNat_natCast]

/-- That the port is on is a flag in the statement and a comparison in the body. -/
theorem timePtpConfig_completes (ha : admitted opTimePtpConfig m s = true) :
    let b := m.payload
    let on : Bool := byteAt b 0 ≤ 1
    let port := if byteAt b 0 ≤ 1 then some (byteAt b 0) else none
    let same : Bool := s.ptp.port = port && s.ptp.transport == byteAt b 2 && s.ptp.domain == byteAt b 3
    let s1 := if same then s else loseMaster s
    let p := { s1.ptp with
      port := port, p2p := bit (byteAt b 1) 0, oneStep := bit (byteAt b 1) 1, slaveOnly := bit (byteAt b 1) 2
      failover := bit (byteAt b 1) 3
      transport := byteAt b 2, domain := byteAt b 3, logSync := s8 b 4, logAnnounce := byteAt b 5, logMinDelay := s8 b 6
      announceTimeout := byteAt b 7, priority1 := byteAt b 8, priority2 := byteAt b 9, clockClass := byteAt b 10
      syncTimeout := u16 b 12, asymmetry := s32 b 16 }
    let p1 := if same then p else { p with
      gm := none, gmRank := [], syncAt := none, announceAt := some s.time.clock, portState := if on then 4 else 1 }
    Completes (.timePtpConfig m) opTimePtpConfig m s
      { state := if on then { s1 with ptp := p1 } else servoTo .freeRun 0 { s1 with ptp := p1 } } := by
  refine completes_of_body rfl ha ?_
  simp only [opTimePtpConfig, decide_eq_true_eq]
  rfl

theorem timeSet_steps (ha : admitted opTimeSet m s = true) (hfree : s.time.servo ≠ .acquiring)
    (hunlocked : s.time.servo ≠ .locked) (hpermitted : stepPermitted s = true) :
    let s1 := stepTime ((timeAt m.payload 0 : Int) - s.time.te) s
    Completes (.timeSet m) opTimeSet m s { state := { s1 with time := { s1.time with frac := 0 } } } ∧
      s1.time.te = timeAt m.payload 0 := by
  have hcheck : (s.time.servo != .acquiring && s.time.servo != .locked && stepPermitted s) = true := by
    simp [hfree, hunlocked, hpermitted]
  exact ⟨completes_of_body rfl ha (require_bind hcheck _), shiftTime_sub ..⟩

theorem timeQuery_completes (ha : admitted opTimeQuery m s = true) :
    ∃ b : Bytes, b.length = 64 ∧ Completes (.timeQuery m) opTimeQuery m s { state := s, payload := b } := by
  refine ⟨_, ?_, completes_of_body rfl ha rfl⟩
  simp only [List.length_append, le_length, leB_length, leS_length, zeros_length]

end Messages

/-- Settles O31: each clause is the lemma of its message; time.servo_config checks nothing of its own. -/
theorem timeMessageComplete : Obligations.TimeMessageComplete :=
  ⟨fun _ _ => timePtpConfig_completes, fun _ _ ha => completes_of_body rfl ha rfl, fun _ _ => timeSet_steps,
    fun _ _ => timeQuery_completes⟩

end Sys2Proof.TimeProofs
end

section
/-! SUPPORT. The steps of PTP, of the servo and of the time transfer (O32): what each does under the conditions of its rule,
one lemma per event. -/

namespace Sys2Proof.TimeProofs

open Sys2Proof Sys2Proof.Machine Sys2Proof.CompletionProofs Sys2Proof.WindowProofs

variable {s : State}

/-! ### PTP -/

section Sync

variable {gm : BitVec 64} {o : Int} (hport : s.ptp.port ≠ none) (hgm : s.ptp.gm = some gm)

include hport hgm

theorem syncMessage_judged : ¬(s.ptp.port = none ∨ s.ptp.gm ≠ some gm) := by simp [hport, hgm]

theorem syncMessage_accepted (hservo : s.time.servo = .acquiring ∨ s.time.servo = .locked) :
    let s1 := { s with ptp := { s.ptp with syncAt := some s.time.clock }, time := { s.time with lastOffset := o } }
    exec (.syncMessage gm o) s = .next (masterSample o s1) := by
  simp only [exec, execSyncMessage, if_neg (syncMessage_judged hport hgm)]
  rcases hservo with hservo | hservo <;> rw [hservo]

theorem syncMessage_candidate (hservo : s.time.servo = .freeRun ∨ s.time.servo = .holdover) :
    let s1 := { s with ptp := { s.ptp with syncAt := some s.time.clock }, time := { s.time with lastOffset := o } }
    exec (.syncMessage gm o) s = .next (candidateSample gm o s1) := by
  simp only [exec, execSyncMessage, if_neg (syncMessage_judged hport hgm)]
  rcases hservo with hservo | hservo <;> rw [hservo]

end Sync

section Messages

variable (hport : s.ptp.port ≠ none)

include hport

theorem announce_judged (gm : BitVec 64) (p1 cls p2 : Nat) (utc : Int) :
    exec (.ptpMessage (.announce gm p1 cls p2 utc)) s = .next (takeAnnounce gm [p1, cls, p2, gm.toNat] utc s) :=
  congrArg Host.Outcome.next (if_neg hport)

theorem delayResp_kept (ns : Nat) :
    exec (.ptpMessage (.delayResp ns)) s = .next { s with ptp := { s.ptp with pathDelay := ns } } :=
  congrArg Host.Outcome.next (if_neg hport)

theorem delayReq_answered (hmaster : s.ptp.portState = 6) (hend : s.ptp.p2p = false) :
    exec (.ptpMessage .delayReq) s = .next (ptpSend .delayResp false false 0 s.time.te s) :=
  congrArg Host.Outcome.next ((if_neg hport).trans (if_pos ⟨hmaster, by rw [hend]; rfl⟩))

theorem pdelayReq_answered (c : Int) (t2 t3 : Nat) (hpeer : s.ptp.p2p = true) :
    exec (.ptpMessage (.pdelayReq c t2 t3)) s = .next (ptpPdelayResp c t2 t3 s) :=
  congrArg Host.Outcome.next ((if_neg hport).trans (if_pos hpeer))

theorem syncTimeout_loses {gm : BitVec 64} {t : Nat} (hgm : s.ptp.gm = some gm) (hsync : s.ptp.syncAt = some t)
    (hlate : t + s.ptp.syncTimeout * pow2s s.ptp.logSync ≤ s.time.clock) : exec .syncTimeout s = .next (loseMaster s) := by
  obtain ⟨p, hp⟩ := Option.ne_none_iff_exists'.mp hport
  simp only [exec, execSyncTimeout, hp, hgm, hsync, if_pos hlate]

theorem announceTimeout_loses {t : Nat} (hannounce : s.ptp.announceAt = some t)
    (hlate : t + s.ptp.announceTimeout * pow2s s.ptp.logAnnounce ≤ s.time.clock) :
    let s1 := if s.ptp.gm = none then s else loseMaster s
    exec .announceTimeout s = .next { s1 with ptp := { s1.ptp with
      gm := none, gmRank := [], announceAt := none, syncAt := none
      portState := if s.ptp.slaveOnly then 4 else 6 } } := by
  obtain ⟨p, hp⟩ := Option.ne_none_iff_exists'.mp hport
  simp only [exec, execAnnounceTimeout, hp, hannounce, if_pos hlate]

/-- A slave is no master, so of what may be due it sends a Delay_Req alone (R416). -/
theorem ptpTransmitInterval_delayReq (hslave : s.ptp.portState = 8) (hend : s.ptp.p2p = false)
    (hdue : s.ptp.sentAt.getD 2 0 + pow2s s.ptp.logMinDelay ≤ s.time.clock) :
    let s1 := ptpSend .delayReq false false 0 0 s
    exec .ptpTransmitInterval s =
      .next { s1 with ptp := { s1.ptp with sentAt := setAt s1.ptp.sentAt 2 s.time.clock } } := by
  have hsync (c : Prop) : ¬(s.ptp.portState = 6 ∧ c) := by rw [hslave]; simp
  simp only [exec, execPtpTransmitInterval, if_neg hport, if_neg (hsync _)]
  exact congrArg Host.Outcome.next ((if_pos ⟨hdue, .inr (.inl hslave)⟩).trans (by rw [hend]; rfl))

end Messages

/-! ### The time transfer -/

theorem timeWordSend_sends (hup : s.power.hostReset = false) (hdue : s.time.wordSentAt + 1000 ≤ s.time.clock) :
    exec .timeWordSend s =
      .next { s with time := { s.time with word := some (s.time.te, s.time.epoch), wordSentAt := s.time.clock } } :=
  congrArg Host.Outcome.next (if_neg (not_or.mpr ⟨Bool.eq_false_iff.mp hup, Nat.not_lt.mpr hdue⟩))

section Word

variable {ns epoch : Nat} (hword : s.time.word = some (ns, epoch))

include hword

/-- A word of the present epoch sets the time, near it or as a jump; a word of another epoch sets nothing (R427). -/
theorem timeWordReceive_sets (hup : s.power.fieldReset = false) :
    let s0 := { s with time := { s.time with word := none } }
    let at_ := wordTime ns s
    let s1 := if epoch ≠ s.time.epoch then s0
      else if epoch = s.time.fieldEpoch ∧ distInt (at_ : Nat) s.time.field ≤ 208 then
        { s0 with time := { s0.time with field := at_ } }
      else jumpField at_ s0
    exec (.timeWordReceive true) s = .next { s1 with time := { s1.time with
      fieldEpoch := epoch, wordAt := s.time.clock, fieldY := if s.time.locked then s.time.y else s.time.fieldY } } := by
  simp only [exec, execTimeWordReceive, hword, hup, Bool.not_true, Bool.false_eq_true, or_self, if_false]

theorem timeWordReceive_bad_crc :
    exec (.timeWordReceive false) s = .next { s with time := { s.time with word := none } } := by
  simp only [exec, execTimeWordReceive, hword, Bool.not_false, true_or, if_true]

end Word

/-- Both ways of a branch end in a state with a property. -/
theorem exists_next_ite {c : Prop} [Decidable c] {x y : Out} {P : State → Prop} (hx : ∃ t, x = .next t ∧ P t)
    (hy : ∃ t, y = .next t ∧ P t) : ∃ t, (if c then x else y) = .next t ∧ P t := by
  split
  · exact hx
  · exact hy

/-- The 64 echoes are kept whether the transfer locks now, is locked or stays open (R428). -/
theorem heartbeatEcho_kept (round turn : Nat) (s : State) : ∃ t : State, exec (.heartbeatEcho round turn) s = .next t ∧
    t.time.echoes = (echoLatency round turn :: s.time.echoes).take 64 ∧ t.time.echoAt = s.time.clock ∧ t.time.lost = false ∧
    (s.time.locked = true → t.time.locked = true) ∧ t.objs = s.objs ∧ t.mem = s.mem := by
  refine exists_next_ite ?_ ⟨_, rfl, rfl, rfl, rfl, id, rfl, rfl⟩
  exact exists_next_noteStatus fun w => ⟨rfl, rfl, rfl, fun _ => rfl, rfl, rfl⟩

theorem saddleTimeLoss_lost (hfirst : s.time.lost = false)
    (hsilent : s.time.wordAt + 10000000 ≤ s.time.clock ∨ s.time.echoAt + 10000000 ≤ s.time.clock) :
    let s1 := { s with time := { s.time with lost := true, locked := false, echoRun := 0 } }
    exec .saddleTimeLoss s = .next (noteStatus s (
      if s.time.locked then hostEvent 0x0C04 0 (le 1 0 ++ zeros 3 ++ le 4 (saddleLatency s)) s1 else s1)) := by
  refine if_neg ?_
  rintro (h | ⟨hword, hecho⟩)
  · rw [hfirst] at h; cases h
  · omega

/-- Settles O32: each clause is the lemma of its event. -/
theorem timeStepComplete : Obligations.TimeStepComplete := by
  refine ⟨fun _ _ _ hport hgm => ⟨syncMessage_accepted hport hgm, syncMessage_candidate hport hgm⟩,
    fun gm p1 cls p2 utc _ hport => announce_judged hport gm p1 cls p2 utc,
    fun ns _ hport => ⟨delayResp_kept hport ns, delayReq_answered hport, fun c t2 t3 => pdelayReq_answered hport c t2 t3⟩,
    fun _ _ _ hport => syncTimeout_loses hport, fun _ _ hport => announceTimeout_loses hport, fun _ => ptpTransmitInterval_delayReq,
    fun _ => timeWordSend_sends, fun _ _ _ hup hword => ⟨timeWordReceive_sets hword hup, timeWordReceive_bad_crc hword⟩,
    heartbeatEcho_kept, fun _ => saddleTimeLoss_lost⟩

end Sys2Proof.TimeProofs
end

section
/-! SUPPORT. Temperature (O36): its operations and steps under the conditions of their rules, one lemma per command. -/

namespace Sys2Proof.ThermalProofs

open Sys2Proof Sys2Proof.Machine Sys2Proof.Laws Sys2Proof.CompletionProofs Sys2Proof.ObjectProofs

variable {s : State}

/-! ### Messages -/

section Messages

variable {m : Msg}

/-- A sensor may be ignored while its zone has another that works (R467). -/
theorem sysTempConfig_completes (ha : admitted opSysTempConfig m s = true) :
    let b := m.payload
    let i := byteAt b 0
    let ignore := bit (byteAt b 2) 0
    (ignore = true → onDie i = true → (sensorAt s (partnerOf i)).failed = false) →
    exec (.sysTempConfig m) s = .next (noteStatus s (answer 0x0140 m (newPlace s) stOk none [] none
      (evaluateStep (setSensor s i fun q => { q with
        kind := byteAt b 1, ignore := ignore, hyst := byteAt b 3
        limits := (List.range 4).map fun k => limitOf (s16 b (4 + 2 * k))
        ideality := u16 b 12, beta := u16 b 14, r25 := u32 b 16
        failed := q.failed && (onDie i || q.kind == byteAt b 1) })))) := by
  intro b i ignore hmay
  have hcheck : (!(ignore && onDie i && (sensorAt s (partnerOf i)).failed)) = true := by
    rw [Bool.not_eq_true', Bool.and_eq_false_iff, Bool.and_eq_false_iff]
    by_cases hi : ignore = true
    · by_cases hd : onDie i = true
      · exact .inr (hmay hi hd)
      · exact .inl (.inr (Bool.eq_false_iff.mpr hd))
    · exact .inl (.inl (Bool.eq_false_iff.mpr hi))
  have hbody := message_ok ha (require_bind hcheck _)
  simp only [exec, execSysTempConfig, done, hbody]
  rfl

theorem sysTempQuery_completes (ha : admitted opSysTempQuery m s = true) :
    ∃ b : Bytes, b.length = 128 ∧ Completes (.sysTempQuery m) opSysTempQuery m s { state := s, payload := b } := by
  refine ⟨_, ?_, completes_of_body rfl ha rfl⟩
  simp only [List.length_append, List.length_flatMap, le_length, leS_length, zeros_length, List.map_const', List.length_range,
    List.sum_replicate, smul_eq_mul]

theorem sysThermalResume_completes (ha : admitted opSysThermalResume m s = true) :
    let b := byteAt m.payload 0
    let hot := ((List.range 32).filter (bit (u32 m.payload 4))).filter fun i => (headAt s b i).causes.contains 6
    (∀ i ∈ hot, cooled (barAt s b) (headAt s b i) = true) →
    Completes (.sysThermalResume m) opSysThermalResume m s
      { state := hot.foldl (fun s i => withCauses b i (fun l => l.filter (· != 6)) s) s } := by
  intro b hot hcooled
  exact completes_of_body rfl ha (require_bind (List.all_eq_true.mpr hcooled) _)

end Messages

/-! ### Steps -/

section Round

variable {l : List (Fin 26 × SensorSample)}

/-- In thermal-off only the time for which every zone is cool is kept (R474). -/
theorem sensorRound_off (hoff : s.thermal.off = true) :
    let s1 := (roundReadings l s).foldl (fun s e => takeReading e.1 e.2.1 e.2.2 s) s
    let since := if zonesCool s1 then some (s.thermal.coolSince.getD s.time.clock) else none
    exec (.sensorRound l) s = .next { s1 with thermal := { s1.thermal with coolSince := since } } :=
  if_pos hoff

theorem sensorRound_evaluates (hon : s.thermal.off = false) :
    let read := roundReadings l s
    let both := fun (z : Nat) => read.any (fun e => e.1 == 16 + 2 * z) && read.any fun e => e.1 == 17 + 2 * z
    let s1 := read.foldl (fun s e => takeReading e.1 e.2.1 e.2.2 s) s
    let s2 := (List.range 5).foldl (fun s z => if both z then compareZone z s else s) s1
    exec (.sensorRound l) s = .next (noteStatus s (evaluateStep (readSupplies s2))) :=
  if_neg (Bool.eq_false_iff.mp hon)

end Round

theorem comparatorTrip_switches_off {i : Fin 26} (hdie : onDie i = true) (hworks : (sensorAt s i).failed = false)
    (hon : s.thermal.off = false) :
    let s1 := { s with thermal := { s.thermal with
      off := true, offCount := (s.thermal.offCount + 1) % 2 ^ 32, offZone := sensorZone i, offSensor := i.val
      offTime := s.time.te, coolSince := none } }
    let s2 := resetBoth (noteFireEn 2 s (auditRuns (fun _ => true) (fun a => { a with thermalOffs := a.thermalOffs + 1 }) s1))
    exec (.comparatorTrip i) s = .next (noteStatus s { s2 with power := { s2.power with
      domainsOn := 0x41, domainsReset := 0xFFFFFFF, symbolDue := none } }) := by
  have htrips : ¬((!onDie i.val) = true ∨ (sensorAt s i.val).failed = true ∨ s.thermal.off = true) := by
    rw [hdie, hworks, hon]; decide
  simp only [exec, execComparatorTrip, if_neg htrips, done]

theorem thermalOffRestart_restarts {t : Nat} (hoff : s.thermal.off = true) (hcool : s.thermal.coolSince = some t)
    (hlong : t + 1000000000 ≤ s.time.clock) :
    let s1 := resetBoth (recordReset 15 0 s)
    exec .thermalOffRestart s = .next (noteStatus s { s1 with
      win := { s1.win with cause := 15, reach := 0 }
      thermal := { s1.thermal with off := false, coolSince := none, report := true }
      power := { s1.power with domainsOn := 0xFFFFFFF, symbolDue := some 15 } }) := by
  simp only [exec, execThermalOffRestart, hcool]
  exact if_pos ⟨hoff, hlong⟩

/-- Settles O36: each clause is the lemma of its command; sys.thermal_head checks nothing of its own. -/
theorem temperatureComplete : Obligations.TemperatureComplete :=
  ⟨fun _ _ => sysTempConfig_completes, fun _ _ => sysTempQuery_completes, fun _ _ ha => completes_of_body rfl ha rfl,
    fun _ _ => sysThermalResume_completes, fun _ _ => ⟨sensorRound_off, sensorRound_evaluates⟩,
    fun _ _ => comparatorTrip_switches_off, fun _ _ => thermalOffRestart_restarts⟩

end Sys2Proof.ThermalProofs
end

section
/-! SUPPORT. Resets, the release of a die and the power operations (O37): what each does under the conditions of its rule, one
lemma per command. -/

namespace Sys2Proof.ResetProofs

open Sys2Proof Sys2Proof.Machine Sys2Proof.Laws Sys2Proof.CompletionProofs Sys2Proof.ObjectProofs

variable {s : State}

/-! ### Messages -/

section Messages

variable {m : Msg}

/-- Only a reset of the standby asks for a standby that is READY (R502). -/
theorem sysReset_completes (ha : admitted opSysReset m s = true)
    (hready : byteAt m.payload 0 = 3 → s.cps.standby = .ready) :
    let asked := match s.power.softReset with
      | none => (byteAt m.payload 0, s.time.clock + 1000000)
      | some (old, t) => (unionReach old (byteAt m.payload 0), t)
    Completes (.sysReset m) opSysReset m s { state := { s with
        power := { s.power with softReset := some asked }
        cairn := { s.cairn with resetCalls := (byteAt m.payload 0, some m.inst) :: s.cairn.resetCalls } } } := by
  have hcheck : (!(byteAt m.payload 0 == 3 && s.cps.standby != .ready)) = true := by
    by_cases h3 : byteAt m.payload 0 = 3
    · simp [hready h3]
    · simp [h3]
  exact completes_of_body rfl ha (require_bind hcheck _)

theorem softwareReset_takes_effect {scope t : Nat} (hasked : s.power.softReset = some (scope, t)) (hdue : t ≤ s.time.clock) :
    exec .softwareReset s =
      .next (noteStatus s (resetScope 9 scope { s with power := { s.power with softReset := none } })) := by
  simp only [exec, execSoftwareReset, hasked, if_pos hdue, done]

theorem sysBootQuery_completes (ha : admitted opSysBootQuery m s = true) :
    ∃ b : Bytes, b.length = 96 ∧ Completes (.sysBootQuery m) opSysBootQuery m s { state := s, payload := b } := by
  refine ⟨_, ?_, completes_of_body rfl ha rfl⟩
  simp only [List.length_append, le_length, leB_length, fit_length, zeros_length]

theorem sysPowerQuery_completes (ha : admitted opSysPowerQuery m s = true) :
    ∃ b : Bytes, b.length = 40 ∧ Completes (.sysPowerQuery m) opSysPowerQuery m s { state := s, payload := b } := by
  refine ⟨_, ?_, completes_of_body rfl ha rfl⟩
  simp only [List.length_append, List.length_flatMap, le_length, zeros_length, List.map_const', List.length_range,
    List.sum_replicate, smul_eq_mul]

theorem sysOptionWrite_completes (ha : admitted opSysOptionWrite m s = true) (hwindow : storeWindow s = true) :
    let k := s.power.optCopy
    let used := if k = 3 then ({} : Power).options else (s.power.copies.getD k ⟨[], 0⟩).bytes.take 56
    let seq := s.power.optSeq + 1
    let body := patchBytes used (byteAt m.payload 0) (m.payload.drop 4) ++ leB 4 seq
    let target := if k = 0 then 1 else 0
    let copy := body ++ leB 4 (crc32c body)
    Completes (.sysOptionWrite m) opSysOptionWrite m s
      { state := hostEvent 0x0112 0 (le 1 target ++ zeros 3 ++ leB 4 seq) { s with power := { s.power with
          copies := modAt s.power.copies target fun c => ⟨copy, c.writes + 1⟩
          writePending := true, opt3Pending := energyOf (byteAt body 3) != s.power.energyClass } } } :=
  completes_of_body rfl ha (require_bind hwindow _)

end Messages

/-! ### Supplies -/

section Supplies

theorem supplyGood_resets {field : Bool} (hgone : s.power.noSupply.getD (flag field) false = true) :
    let good := (suppliesOf field).foldl (fun l i => setAt l i (nominal s i)) s.power.supply
    let s1 := { s with power := { s.power with
      supply := good, noSupply := setAt s.power.noSupply (flag field) false } }
    let s2 := (suppliesOf field).foldl (fun s i => readSupply i s) s1
    let s3 := fieldSource 2 s2
    exec (.supplyGood field) s = .next (noteStatus s (
      if field then { s3 with power := { s3.power with copyArrived := false, fieldPowerOn := true } }
      else powerOnHost s2)) := by
  simp only [exec, execSupplyGood, hgone, Bool.not_true, Bool.false_eq_true, if_false, done]
  cases field <;> rfl

theorem brownOut_resets {i : Fin 12} {mv : Nat} (hlow : mv < brownOutBelow.getD i 0) :
    let s1 := readSupply i { s with power := { s.power with supply := setAt s.power.supply i mv } }
    let d := flag (decide (5 ≤ i.val))
    let s2 := { s1 with power := { s1.power with noSupply := setAt s1.power.noSupply d true } }
    s.power.noSupply.getD d false = false →
    exec (.brownOut i mv) s = .next (noteStatus s (
      if 5 ≤ i.val then fieldSource 4 s2 else resetHost false (recordReset 3 1 s2))) := by
  intro s1 d s2 hfirst
  simp only [exec, execBrownOut, if_neg (Nat.not_le.mpr hlow), hfirst, d, Bool.false_eq_true, if_false, decide_eq_true_eq, done]
  split <;> rfl

end Supplies

/-! ### RST_N and FRST_N -/

section Pins

theorem rstN_low {n : Nat} (hlong : 4 ≤ n) (hhigh : s.power.rstLow = false) :
    let s1 := resetBoth (recordReset 5 0 { s with power := { s.power with rstLow := true } })
    exec (.rstN true n) s = .next (noteStatus s { s1 with power := { s1.power with symbolDue := none } }) := by
  simp only [exec, execRstN, Nat.not_lt.mpr hlong, hhigh, and_false, Bool.not_true, Bool.false_eq_true, or_self, if_false, done]

theorem rstN_glitch {n : Nat} (hshort : n < 4) : exec (.rstN true n) s = .next s :=
  if_pos ⟨rfl, hshort⟩

theorem frstN_low {n : Nat} (hlong : 4 ≤ n) (hhigh : s.power.frstLow = false) : exec (.frstN true n) s =
    .next (noteStatus s (fieldSource 6 { s with power := { s.power with frstLow := true } })) := by
  simp only [exec, execFrstN, Nat.not_lt.mpr hlong, hhigh, and_false, Bool.not_true, Bool.false_eq_true, or_self, if_false, done]

theorem rstN_high (n : Nat) : exec (.rstN false n) s = .next { s with power := { s.power with rstLow := false } } := by
  simp only [exec, execRstN, Bool.false_eq_true, false_and, if_false, Bool.not_false, true_or, if_true]

theorem frstN_high (n : Nat) : exec (.frstN false n) s = .next { s with power := { s.power with frstLow := false } } := by
  simp only [exec, execFrstN, Bool.false_eq_true, false_and, if_false, Bool.not_false, true_or, if_true]

end Pins

/-! ### Clocks -/

section Clocks

/-- The PCI Express clocks and those at the Saddle's field edge reset nothing (R484). -/
theorem clockFailure_resets_nothing {d : Fin 14} (hd : d = 2 ∨ d = 13) : exec (.clockFailure d) s = .next s := by
  rcases hd with rfl | rfl <;> rfl

theorem clockFailure_link {d : Fin 14} (hd : d = 3 ∨ d = 4) (hup : s.power.hostReset = false) :
    exec (.clockFailure d) s = .next (linkDown (d.val - 3) s) := by
  have hrun (t : State) : (if s.power.hostReset = true then s else t) = t := if_neg (Bool.eq_false_iff.mp hup)
  rcases hd with rfl | rfl <;> exact congrArg Host.Outcome.next (hrun _)

theorem clockFailure_host {d : Fin 14} (hd : d = 1 ∨ d = 5 ∨ d = 6) (hup : s.power.hostReset = false) :
    let s1 := resetHost false (recordReset 11 0 s)
    exec (.clockFailure d) s = .next (noteStatus s { s1 with power := { s1.power with symbolDue := some 11 } }) := by
  have hrun (x y : Out) : (if s.power.hostReset = true then x else y) = y := if_neg (Bool.eq_false_iff.mp hup)
  rcases hd with rfl | rfl | rfl <;> exact hrun _ _

theorem clockFailure_field {d : Fin 14} (hlow : 8 ≤ d.val) (hhigh : d.val ≤ 12) (hup : s.power.fieldReset = false) :
    exec (.clockFailure d) s = .next (noteStatus s (fieldSource 12 s)) := by
  have h0 : ¬d.val = 0 := by omega
  have h7 : ¬d.val = 7 := by omega
  have h34 : ¬(d.val = 3 ∨ d.val = 4) := by omega
  have h156 : ¬(d.val = 1 ∨ d.val = 5 ∨ d.val = 6) := by omega
  simp only [exec, execClockFailure, if_neg h0, if_neg h7, if_neg h34, if_neg h156, if_pos (And.intro hlow hhigh), hup,
    Bool.false_eq_true, if_false, done]

theorem referenceReturn_field (hlost : s.power.refLost.getD 1 false = true) :
    exec (.referenceReturn true) s = .next (noteStatus s (resetField false { s with power := { s.power with
      refLost := setAt s.power.refLost 1 false, refSince := setAt s.power.refSince 1 (some s.time.clock) } })) := by
  simp only [exec, execReferenceReturn, flag, if_true, hlost, Bool.not_true, Bool.false_eq_true, if_false, done]

theorem referenceReturn_host (hlost : s.power.refLost.getD 0 false = true) :
    let s1 := resetHost false { s with power := { s.power with
      refLost := setAt s.power.refLost 0 false, refSince := setAt s.power.refSince 0 (some s.time.clock) } }
    exec (.referenceReturn false) s =
      .next (noteStatus s { s1 with power := { s1.power with symbolDue := some 11 } }) := by
  simp only [exec, execReferenceReturn, flag, hlost, Bool.not_true, Bool.false_eq_true, if_false, done]

theorem fsWatchdog_resets (lockup : Bool) (hup : s.power.fieldReset = false) (hrun : s.cps.halted.getD 2 false = false) :
    exec (.fsWatchdog lockup) s = .next (noteStatus s (fieldSource (if lockup then 14 else 8) s)) := by
  simp only [exec, execFsWatchdog, hup, hrun, Bool.false_eq_true, or_self, if_false, done]

end Clocks

/-! ### Release -/

section Release

theorem fieldResetSymbol_sent (hreset : s.power.hostReset = true) (hsupply : s.power.noSupply.getD 0 false = false)
    (href : s.power.refLost.getD 0 false = false) (hon : s.thermal.off = false) :
    exec .fieldResetSymbol s = .next (noteStatus s (sendSymbol s)) := by
  simp only [exec, execFieldResetSymbol, hreset, hsupply, href, hon, Bool.not_false, and_self, if_true, done]

variable (hup : s.power.hostReset = false) (hsent : s.power.symbolDue = none) (hfirst : s.power.copyArrived = false)
  (hsupply : s.power.noSupply.getD 1 false = false)

include hup hsent hfirst hsupply

theorem optionCopy_not_ignored : ¬(s.power.hostReset = true ∨ s.power.symbolDue.isSome = true ∨ s.power.copyArrived = true ∨
    s.power.noSupply.getD 1 false = true) := by
  rw [hup, hsent, hfirst, hsupply]; decide

theorem optionCopy_later (hlater : s.power.fieldPowerOn = false) : exec .optionCopy s =
    .next (noteStatus s (releaseField { s with power := { s.power with copyArrived := true } })) := by
  simp only [exec, execOptionCopy, if_neg (optionCopy_not_ignored hup hsent hfirst hsupply), hlater, Bool.false_eq_true,
    if_false, done]

/-- AO-F takes OPT3 with the first copy after its power-on (R497). -/
theorem optionCopy_first (hpowered : s.power.fieldPowerOn = true) :
    exec .optionCopy s = .next (noteStatus s (releaseField { s with power := { s.power with
      energyClass := energyOf (byteAt s.power.options 3), fieldPowerOn := false, opt3Pending := false
      copyArrived := true } })) := by
  simp only [exec, execOptionCopy, if_neg (optionCopy_not_ignored hup hsent hfirst hsupply), hpowered, if_true, done]

end Release

/-- Settles O37: each clause is the lemma of its command; sys.option_read checks nothing of its own, and a reference is lost
under no condition. -/
theorem resetComplete : Obligations.ResetComplete := by
  refine ⟨fun _ _ => sysReset_completes, fun _ _ _ => softwareReset_takes_effect,
    fun _ _ => ⟨sysBootQuery_completes, sysPowerQuery_completes, fun ha => completes_of_body rfl ha rfl,
      sysOptionWrite_completes⟩,
    fun _ _ => supplyGood_resets, fun _ _ _ hlow _ => brownOut_resets hlow,
    fun _ hhigh => ⟨fun _ hlong => rstN_low hlong hhigh, fun _ => rstN_glitch, fun _ => frstN_low⟩,
    fun s => ⟨fun n => ⟨rstN_high n, frstN_high n⟩, fun _ => rfl, rfl, rfl, clockFailure_resets_nothing (.inl rfl),
      clockFailure_resets_nothing (.inr rfl), fun hup => ⟨clockFailure_link (.inl rfl) hup, clockFailure_link (.inr rfl) hup,
        fun _ hd => clockFailure_host hd hup⟩, fun hup _ hlow hhigh => clockFailure_field hlow hhigh hup⟩,
    fun _ => referenceReturn_field, fun _ => referenceReturn_host, fun lockup _ => fsWatchdog_resets lockup,
    fun s => ⟨fun hfree => ?_, rfl, fieldResetSymbol_sent, optionCopy_later, optionCopy_first⟩⟩
  exact if_pos hfree

end Sys2Proof.ResetProofs
end

section
/-! SUPPORT. Boot (O38): measured boot, the field image, the boot timeout and the mailbox, one lemma per outcome. -/

namespace Sys2Proof.BootProofs

open Sys2Proof Sys2Proof.Machine

variable {s : State}

/-! ### Measured boot -/

section Measured

variable {check : ImageCheck} (hup : s.power.hostReset = false) (hheld : s.cps.released = false)

include hup hheld

theorem measuredBoot_not_ignored : ¬(s.power.hostReset = true ∨ s.cps.released = true) := by
  rw [hup, hheld]; decide

theorem measuredBoot_recovers (hnone : chooseBank s = none) : exec (.measuredBoot check) s = .next (noteStatus s
    { s with cairn := { s.cairn with recovery := true }, cps := { s.cps with released := true } }) := by
  simp only [exec, execMeasuredBoot, if_neg (measuredBoot_not_ignored hup hheld), hnone, done]

theorem measuredBoot_releases {k : Nat} (hbank : chooseBank s = some k)
    (hgood : imageGood check (bankAt s 0 k) (s.cairn.counters.getD 0 0) = true) :
    let b := bankAt s 0 k
    let s1 := { s with cairn := { s.cairn with bank := k }, cps := { s.cps with released := true } }
    exec (.measuredBoot check) s =
      .next (noteStatus s (extend 0 (Config.sha384 (b.bytes b.imageBytes)) (extend 0 b.headerHash s1))) := by
  simp only [exec, execMeasuredBoot, if_neg (measuredBoot_not_ignored hup hheld), hbank, hgood, if_true, done]

theorem measuredBoot_rejects {k : Nat} (hbank : chooseBank s = some k)
    (hbad : imageGood check (bankAt s 0 k) (s.cairn.counters.getD 0 0) = false) :
    exec (.measuredBoot check) s = .next (noteStatus s (rejectBank k 0 s)) := by
  simp only [exec, execMeasuredBoot, if_neg (measuredBoot_not_ignored hup hheld), hbank, hbad, Bool.false_eq_true, if_false,
    done]

end Measured

/-! ### The field image -/

section Approval

variable {check : ImageCheck} (hup : saddleUp s = true) (hfwd : s.saddle.forward.any id = true)
  (hret : s.saddle.ret.any id = true) (hcp : s.cps.released = true) (hcode : s.cairn.recovery = false)
  (hfirst : s.saddle.approved = false)

include hup hfwd hret hcp hcode hfirst

theorem fieldImageApproval_not_ignored : ¬((!saddleUp s) = true ∨ (!s.saddle.forward.any id) = true ∨
    (!s.saddle.ret.any id) = true ∨ (!s.cps.released) = true ∨ s.cairn.recovery = true ∨ s.saddle.approved = true) := by
  rw [hup, hfwd, hret, hcp, hcode, hfirst]; decide

theorem fieldImageApproval_approves
    (hgood : imageGood check (bankAt s 1 s.cairn.bank) (s.cairn.counters.getD 1 0) = true) :
    let b := bankAt s 1 s.cairn.bank
    let s1 := { commandVdd 900 s with
      saddle := { s.saddle with approved := true }
      mem := { s.mem with resetN := true }
      win := if s.mbx.ready then { s.win with fieldFw := BitVec.ofNat 32 b.fwVersion } else s.win }
    exec (.fieldImageApproval check) s =
      .next (noteStatus s (extend 1 (Config.sha384 (b.bytes b.imageBytes)) (extend 1 b.headerHash s1))) := by
  simp only [exec, execFieldImageApproval, if_neg (fieldImageApproval_not_ignored hup hfwd hret hcp hcode hfirst), hgood,
    if_true, done]

theorem fieldImageApproval_rejects
    (hbad : imageGood check (bankAt s 1 s.cairn.bank) (s.cairn.counters.getD 1 0) = false) :
    exec (.fieldImageApproval check) s = .next (noteStatus s (rejectBank s.cairn.bank 1 s)) := by
  simp only [exec, execFieldImageApproval, if_neg (fieldImageApproval_not_ignored hup hfwd hret hcp hcode hfirst), hbad,
    Bool.false_eq_true, if_false, done]

end Approval

/-! ### The timeout and the mailbox -/

section Timeout

variable (hup : s.power.hostReset = false) (hbooting : s.mbx.ready = false) (hcode : s.cairn.recovery = false)
  (hlate : s.power.hostReleaseAt + 1000000000 * byteAt s.power.options 5 ≤ s.time.clock)

include hup hbooting hcode hlate

theorem bootTimeout_not_ignored : ¬(s.power.hostReset = true ∨ s.mbx.ready = true ∨ s.cairn.recovery = true ∨
    s.time.clock < s.power.hostReleaseAt + 1000000000 * byteAt s.power.options 5) := by
  simp [hup, hbooting, hcode, Nat.not_lt.mpr hlate]

/-- The bank that runs is rejected, or the one that would have been booted (R522). -/
theorem bootTimeout_rejects {k : Nat} (hbank : (if s.cps.released then some s.cairn.bank else chooseBank s) = some k) :
    exec .bootTimeout s = .next (noteStatus s (rejectBank k 0 s)) := by
  simp only [exec, execBootTimeout, if_neg (bootTimeout_not_ignored hup hbooting hcode hlate), hbank, done]

end Timeout

theorem mailboxReady_reports (hup : s.power.hostReset = false) (hcp : s.cps.released = true) (hbooting : s.mbx.ready = false) :
    let s1 := { s with
      mbx := { s.mbx with ready := true }
      power := { s.power with mbxReadyMs := (s.time.clock - s.power.hostReleaseAt) / 1000000 }
      win := { s.win with
        hostFw := if s.cairn.recovery then 0 else BitVec.ofNat 32 (bankAt s 0 s.cairn.bank).fwVersion
        fieldFw := if s.saddle.approved then BitVec.ofNat 32 (bankAt s 1 s.cairn.bank).fwVersion else 0 } }
    exec .mailboxReady s =
      .next (noteStatus s (reportThermalOff (bootRecord (advanceCounter 1 (advanceCounter 0 s1))))) := by
  have hgo : ¬(s.power.hostReset = true ∨ (!s.cps.released) = true ∨ s.mbx.ready = true) := by
    rw [hup, hcp, hbooting]; decide
  simp only [exec, execMailboxReady, if_neg hgo, done]

/-- Settles O38: each clause is the lemma of its outcome; the timeout rejects the bank that runs or would run. -/
theorem bootComplete : Obligations.BootComplete :=
  ⟨fun _ _ hup hheld => ⟨measuredBoot_recovers hup hheld, fun _ => measuredBoot_releases hup hheld,
      fun _ => measuredBoot_rejects hup hheld⟩,
    fun _ _ hup hfwd hret hcp hcode hfirst => ⟨fieldImageApproval_approves hup hfwd hret hcp hcode hfirst,
      fieldImageApproval_rejects hup hfwd hret hcp hcode hfirst⟩,
    fun _ hup hbooting hcode hlate =>
      ⟨fun hcp => bootTimeout_rejects hup hbooting hcode hlate (if_pos hcp),
        fun _ hheld hbank => bootTimeout_rejects hup hbooting hcode hlate
          ((if_neg (Bool.eq_false_iff.mp hheld)).trans hbank)⟩,
    fun _ => mailboxReady_reports⟩

end Sys2Proof.BootProofs
end

section
/-! SUPPORT. Fail-over (O39): beats, declarations, the way of the standby to READY and the return, one lemma per command. -/

namespace Sys2Proof.FailoverProofs

open Sys2Proof Sys2Proof.Machine Sys2Proof.Laws Sys2Proof.CompletionProofs Sys2Proof.WindowProofs

variable {s : State}

/-! ### Messages -/

section Messages

variable {m : Msg}

theorem sysFailoverConfig_completes (ha : admitted opSysFailoverConfig m s = true) :
    exec (.sysFailoverConfig m) s = .next (noteStatus s (answer 0x0151 m (newPlace s) stOk none [] none
      { s with cps := { s.cps with autoReturn := bit (byteAt m.payload 0) 0 } })) := by
  have hanswer := message_ok ha rfl
  simp only [exec, execSysFailoverConfig, done, hanswer]
  rfl

theorem sysFailoverQuery_completes (ha : admitted opSysFailoverQuery m s = true) :
    ∃ b : Bytes, b.length = 32 ∧ Completes (.sysFailoverQuery m) opSysFailoverQuery m s { state := s, payload := b } := by
  refine ⟨_, ?_, completes_of_body rfl ha rfl⟩
  simp only [List.length_append, le_length, zeros_length]

end Messages

/-! ### Beats and declarations -/

section Running

variable {cp : Fin 2} (hrun : cpRuns s cp = true)

include hrun

theorem heartbeat_kept (wire : Bool) (seq : BitVec 4) (fault : Bool) :
    ∃ t : State, exec (.heartbeat cp wire seq fault) s = .next t ∧
      (wire = true → t.cps.beatWire = setAt s.cps.beatWire cp (some s.time.clock) ∧
        t.cps.faultWire = setAt s.cps.faultWire cp fault ∧ t.cps.seqWire = setAt s.cps.seqWire cp seq) ∧
      (wire = false → t.cps.beatMbx = setAt s.cps.beatMbx cp (some s.time.clock) ∧
        t.cps.faultMbx = setAt s.cps.faultMbx cp fault ∧ t.cps.seqMbx = setAt s.cps.seqMbx cp seq) ∧
      t.cps.active = s.cps.active ∧ t.cps.standby = s.cps.standby ∧ t.objs = s.objs := by
  have hnot : ¬(!cpRuns s cp.val) = true := by rw [hrun]; decide
  cases wire
  all_goals
    simp only [exec, execHeartbeat, if_neg hnot, Bool.false_eq_true, if_true, if_false, done]
    refine exists_next_noteStatus fun w => ?_
    split
    · simp [pathEvent]
    · simp

theorem cpDeclaration_silent (hmbx : 3 ≤ missing s (s.cps.beatMbx.getD cp none))
    (hwire : 3 ≤ missing s (s.cps.beatWire.getD cp none)) :
    exec (.cpDeclaration cp) s = .next (noteStatus s (declareCp cp 1 7 s)) := by
  simp only [exec, execCpDeclaration, hrun, Bool.not_true, Bool.false_eq_true, if_false, if_pos (And.intro hmbx hwire), done]

theorem cpWatchdog_declares (lockup : Bool) (hfree : s.cps.halted.getD cp false = false) :
    exec (.cpWatchdog cp lockup) s =
      .next (noteStatus s (declareCp cp (if lockup then 4 else 3) (if lockup then 13 else 7) s)) := by
  simp only [exec, execCpWatchdog, hrun, hfree, Bool.not_true, Bool.false_eq_true, or_self, if_false, done]

end Running

/-! ### The standby -/

theorem cpStandby_starts_test (hup : s.power.hostReset = false) (hcp : s.cps.released = true) (hcode : s.cairn.recovery = false)
    (hstandby : s.cps.standby = .reset) :
    exec .cpStandby s = .next (noteStatus s (standbyEvent (1 - s.cps.active) 0 .selftest s)) := by
  simp only [exec, execCpStandby, hup, hcp, hcode, hstandby, Bool.not_true, Bool.false_eq_true, ne_eq, not_true_eq_false,
    or_self, if_false, done]

section Selftest

variable (hstandby : s.cps.standby = .selftest)

include hstandby

theorem standbySelftestDone_passed :
    let s1 := { s with cps := { s.cps with tests := (s.cps.tests + 1) % 2 ^ 32 } }
    exec (.standbySelftestDone true) s = .next (noteStatus s (standbyEvent (1 - s.cps.active) 0 .syncing s1)) := by
  simp only [exec, execStandbySelftestDone, hstandby, if_true, done]

theorem standbySelftestDone_failed :
    exec (.standbySelftestDone false) s = .next (noteStatus s (standbyEvent (1 - s.cps.active) 2 .removed s)) := by
  simp only [exec, execStandbySelftestDone, hstandby, Bool.false_eq_true, if_false, done]
  exact hstandby ▸ rfl

end Selftest

theorem snapshotComplete_ready (hstandby : s.cps.standby = .syncing) :
    exec .snapshotComplete s = .next (noteStatus s (standbyEvent (1 - s.cps.active) 0 .ready s)) :=
  if_pos hstandby

theorem quietPointReturn_returns (hactive : s.cps.active = 1) (hstandby : s.cps.standby = .ready)
    (hauto : s.cps.autoReturn = true) (hquiet : cpBusy s = false) (hempty : ringHeld s 3 = 0) :
    exec .quietPointReturn s = .next (noteStatus s (switchTo 0 5 .ready s)) :=
  if_pos ⟨hactive, hstandby, hauto, by rw [hquiet]; rfl, hempty⟩

/-- Settles O39: each clause is the lemma of its command. -/
theorem failoverComplete : Obligations.FailoverComplete :=
  ⟨fun _ _ => sysFailoverConfig_completes, fun _ _ => sysFailoverQuery_completes,
    fun _ wire seq fault _ hrun => heartbeat_kept hrun wire seq fault, fun _ _ => cpDeclaration_silent,
    fun _ lockup _ hrun => cpWatchdog_declares hrun lockup, fun _ => cpStandby_starts_test,
    fun _ hstandby => ⟨standbySelftestDone_passed hstandby, standbySelftestDone_failed hstandby⟩,
    fun _ => snapshotComplete_ready, fun _ => quietPointReturn_returns⟩

end Sys2Proof.FailoverProofs
end

section
/-! SUPPORT. Audit sessions, keys and debug (O40): the checks of each body pass, and what each timer and each request of the
debugger does. -/

namespace Sys2Proof.CairnProofs

open Sys2Proof Sys2Proof.Machine Sys2Proof.Laws Sys2Proof.CompletionProofs Sys2Proof.ObjectProofs

variable {m : Msg} {s : State}

/-! ### Audit sessions and records -/

section Audit

theorem auditOpen_completes {i : Nat} {t : ObjTable AuditSession} (ha : admitted opAuditOpen m s = true)
    (hroom : s.objs.sessions.create
      { lanes := byteAt m.payload 0, sums := {}, firstLine := 0, lastLine := 0, repeats := 0 } = some (i, t)) :
    Completes (.auditOpen m) opAuditOpen m s
      { state := { s with objs := { s.objs with sessions := t } }, handle := some (t.handle tyAudit i) } :=
  completes_of_body rfl ha (orErr_bind hroom _)

theorem auditClose_completes {q : AuditSession} (ha : admitted opAuditClose m s = true) (hq : auditOf s m.handle = some q) :
    let flags := 2 * flag (q.sums.debug || s.cairn.dbg.isSome) + 4 * flag (q.sums.hostLost || s.saddle.hostLost)
    let s1 := writeRecord 2 m.handle flags 0 (runBody 0 0 0 q.firstLine q.lastLine q.repeats q.sums [] true s) s
    Completes (.auditClose m) opAuditClose m s
      { state := { s1 with objs := { s1.objs with sessions := s1.objs.sessions.release (hIdx m.handle) } }
        payload := le 8 (s.cairn.nextRec + s.cairn.due.length) } :=
  completes_of_body rfl ha (orErr_bind hq _)

theorem auditRead_certificate (ha : admitted opAuditRead m s = true) (hall : u64 m.payload 0 = 2 ^ 64 - 1) :
    Completes (.auditRead m) opAuditRead m s { state := s, payload := Config.certificate } :=
  completes_of_body rfl ha (by simp only [opAuditRead, if_pos hall, okBytes])

theorem auditRead_record {e : Nat × Bytes} (ha : admitted opAuditRead m s = true) (hone : u64 m.payload 0 ≠ 2 ^ 64 - 1)
    (hwritten : u64 m.payload 0 < s.cairn.nextRec) (hheld : (s.cairn.ring.find? fun e => e.1 == u64 m.payload 0) = some e) :
    Completes (.auditRead m) opAuditRead m s { state := s, payload := e.2 } := by
  refine completes_of_body rfl ha ?_
  simp only [opAuditRead, if_neg hone]
  exact (require_bind (decide_eq_true hwritten) _).trans (orErr_bind hheld _)

end Audit

/-! ### Keys -/

/-- While no key is enrolled the slot that is to have signed is empty too, so the first key needs no signature (log 106). -/
theorem auditKeyEnrol_completes (ha : admitted opAuditKeyEnrol m s = true) :
    let b := m.payload
    (s.cairn.keys.all (·.isNone) = true ∨ ∃ k : HostKey, s.cairn.keys.getD (byteAt b 101) none = some k ∧
      Config.ecdsaVerify k.key (Config.sha384 (b.take 105)) (slice b 105 96) = true) →
    Completes (.auditKeyEnrol m) opAuditKeyEnrol m s { state := { s with cairn := { s.cairn with
      keys := setAt s.cairn.keys (byteAt b 0) (some ⟨slice b 4 97, byteAt b 1⟩) } } } := by
  intro b hsigned
  refine completes_of_body rfl ha (require_bind ?_ _)
  obtain hnone | ⟨k, hk, hverify⟩ := hsigned
  · have hslot : s.cairn.keys.getD (byteAt b 101) none = none := by
      rw [List.getD_eq_getElem?_getD]
      cases hget : s.cairn.keys[byteAt b 101]? with
      | none => rfl
      | some k => exact Option.isNone_iff_eq_none.mp (List.all_eq_true.mp hnone k (List.mem_of_getElem? hget))
    rw [hslot]
    exact hnone
  · rw [hk]
    exact hverify

/-! ### Debug -/

section Debug

theorem auditDebugOpen_completes {c : BitVec 384} {t : Nat} (ha : admitted opAuditDebugOpen m s = true) :
    let b := m.payload
    let h := Config.sha384 (leB 48 c ++ slice b 0 1 ++ slice b 2 2)
    s.cairn.challenge = some (c, t) → s.time.clock < t + 60000000000 →
    Config.ecdsaVerify (leB 97 (Config.debugKey (byteAt b 4))) h (slice b 8 96) = true →
    let d : DebugSession := ⟨byteAt b 0, u16 b 2, s.time.clock + 1000000000 * u16 b 2⟩
    let s1 := extend 3 h (closeDebug s)
    Completes (.auditDebugOpen m) opAuditDebugOpen m s
      { state := debugEvent true d (markDebug { s1 with cairn := { s1.cairn with challenge := none, dbg := some d } }) } := by
  intro b h hchallenge hfresh hverify
  exact completes_of_body rfl ha ((orErr_bind hchallenge _).trans
    ((require_bind (decide_eq_true hfresh) _).trans (require_bind hverify _)))

theorem debugSessionExpiry_closes {d : DebugSession} (hopen : s.cairn.dbg = some d) (hended : d.until_ ≤ s.time.clock) :
    exec .debugSessionExpiry s = .next (closeDebug s) := by
  simp only [exec, execDebugSessionExpiry, hopen, if_pos hended]

theorem debugChallengeExpiry_forgets {c : BitVec 384} {t : Nat} (hchallenge : s.cairn.challenge = some (c, t))
    (hold : t + 60000000000 ≤ s.time.clock) :
    exec .debugChallengeExpiry s = .next { s with cairn := { s.cairn with challenge := none } } := by
  simp only [exec, execDebugChallengeExpiry, hchallenge, if_pos hold]

theorem debugRequest_attach (hlevel : debugLevel s = 2) : exec (.debugRequest .attach) s =
    .next { extend 3 (Config.random s.fresh) s with fresh := s.fresh + 1 } :=
  congrArg Host.Outcome.next (if_pos hlevel)

/-- The FS is reached in a DBG message, the CPs without (R10, R25). -/
theorem debugRequest_reaches {e : Fin 3} (hmay : debugMay e s = true) (hcarried : e = 2 → dbgCarried s = true) :
    (debugMay e.val s && (e.val != 2 || dbgCarried s)) = true := by
  rw [hmay, Bool.true_and, Bool.or_eq_true, bne_iff_ne]
  exact or_iff_not_imp_left.mpr fun h => hcarried (Fin.ext (not_not.mp h))

theorem debugRequest_halt {e : Fin 3} (hmay : debugMay e s = true) (hcarried : e = 2 → dbgCarried s = true) :
    exec (.debugRequest (.halt e)) s = .next { s with cps := { s.cps with halted := setAt s.cps.halted e true } } :=
  congrArg Host.Outcome.next (if_pos (debugRequest_reaches hmay hcarried))

theorem debugRequest_resume {e : Fin 3} (hmay : debugMay e s = true) (hcarried : e = 2 → dbgCarried s = true) :
    exec (.debugRequest (.resume e)) s = .next { s with cps := { s.cps with halted := setAt s.cps.halted e false } } :=
  congrArg Host.Outcome.next (if_pos (debugRequest_reaches hmay hcarried))

theorem debugRequest_portAccess (write : Bool) (segment : Nat) (hmay : debugMay 3 s = true) (hcarried : dbgCarried s = true)
    (hfs : fsRuns s = true) : exec (.debugRequest (.portAccess write segment)) s = .next (debugAccess write segment s) :=
  congrArg Host.Outcome.next (if_pos (by rw [hmay, hcarried, hfs]; rfl))

theorem debugRequest_reset (scope : Fin 4) (hmay : debugMay 4 s = true) :
    exec (.debugRequest (.resetScope scope)) s = .next (noteStatus s (resetScope 10 scope
      { s with cairn := { s.cairn with resetCalls := (scope.val, none) :: s.cairn.resetCalls } })) := by
  simp only [exec, execDebugRequest, hmay, if_true, done]

end Debug

/-- Settles O40: each clause is the lemma of its command; audit.ack, audit.quote, audit.debug_challenge and audit.debug_close
check nothing of their own. -/
theorem auditComplete : Obligations.AuditComplete :=
  ⟨fun _ _ _ _ => auditOpen_completes, fun _ _ _ => auditClose_completes,
    fun _ _ ha => ⟨auditRead_certificate ha, fun _ => auditRead_record ha⟩, fun _ _ ha => completes_of_body rfl ha rfl,
    fun _ _ ha => completes_of_body rfl ha rfl, fun _ _ => auditKeyEnrol_completes,
    fun _ _ ha => completes_of_body rfl ha rfl, fun _ _ _ _ => auditDebugOpen_completes,
    fun _ _ ha => completes_of_body rfl ha rfl, fun _ _ => debugSessionExpiry_closes, fun _ _ _ => debugChallengeExpiry_forgets,
    fun _ => ⟨debugRequest_attach, fun _ hmay hcarried => ⟨debugRequest_halt hmay hcarried, debugRequest_resume hmay hcarried⟩,
      debugRequest_portAccess, debugRequest_reset⟩⟩

end Sys2Proof.CairnProofs
end

section
/-! SUPPORT. The firmware update (O41): the checks of each body pass, one lemma per message. -/

namespace Sys2Proof.CairnProofs

open Sys2Proof Sys2Proof.Machine Sys2Proof.Laws Sys2Proof.CompletionProofs Sys2Proof.ObjectProofs

variable {m : Msg} {s : State}

theorem auditFwBegin_completes (ha : admitted opAuditFwBegin m s = true)
    (hfirst : (s.cairn.update.any fun e => e.1 == byteAt m.payload 0) = false) :
    let s1 := setBank s (byteAt m.payload 0) (targetBank s) fun _ => {}
    Completes (.auditFwBegin m) opAuditFwBegin m s
      { state := { s1 with cairn := { s1.cairn with
          update := s1.cairn.update ++ [(byteAt m.payload 0, u32 m.payload 4)], updateBank := some (targetBank s) } }
        status := stAccepted, final := some 0 } :=
  completes_of_body rfl ha (require_bind (by rw [hfirst]; rfl) _)

theorem auditFwData_completes (ha : admitted opAuditFwData m s = true)
    (hbegun : (s.cairn.update.any fun e => e.1 == byteAt m.payload 0) = true) :
    Completes (.auditFwData m) opAuditFwData m s
      { state := setBank s (byteAt m.payload 0) (targetBank s) fun k =>
          { k with image := (u32 m.payload 4, m.payload.drop 8) :: k.image } } :=
  completes_of_body rfl ha (require_bind hbegun _)

section Seal

variable {k : Nat} (ha : admitted opAuditFwSeal m s = true) (hbank : s.cairn.updateBank = some k)

include ha hbank

theorem auditFwSeal_seals (hhost : imageVerified s 0 = true) (hfield : imageVerified s 1 = true) :
    let idle := { s with cairn := { s.cairn with update := [], updateBank := none } }
    let s1 := setBank (setBank idle 1 k (sealImage (nextSeal s))) 0 k (sealImage (nextSeal s))
    Completes (.auditFwSeal m) opAuditFwSeal m s
      { state := hostEvent 0x0D03 0 (le 1 k ++ le 1 0 ++ le 1 0) (hostEvent 0x0D03 0 (le 1 k ++ le 1 1 ++ le 1 0) s1)
        status := stAccepted, final := some stOk } :=
  completes_of_body rfl ha ((orErr_bind hbank _).trans (if_pos (by rw [hhost, hfield]; rfl)))

/-- The update is over all the same (log 55). -/
theorem auditFwSeal_refuses (hbad : imageVerified s 0 = false ∨ imageVerified s 1 = false) :
    let idle := { s with cairn := { s.cairn with update := [], updateBank := none } }
    Completes (.auditFwSeal m) opAuditFwSeal m s
      { state := { idle with cairn := { idle.cairn with sealRejected := true } }
        status := stAccepted, final := some stSignature } := by
  have hnot : ¬(imageVerified s 0 && imageVerified s 1) = true := by
    rw [Bool.not_eq_true, Bool.and_eq_false_iff]
    exact hbad
  exact completes_of_body rfl ha ((orErr_bind hbank _).trans (if_neg hnot))

end Seal

theorem auditFwQuery_completes (ha : admitted opAuditFwQuery m s = true) :
    ∃ b : Bytes, b.length = 49 ∧ Completes (.auditFwQuery m) opAuditFwQuery m s { state := s, payload := b } := by
  refine ⟨_, ?_, completes_of_body rfl ha rfl⟩
  simp only [List.length_append, le_length, zeros_length]

/-- Settles O41: each clause is the lemma of its message. -/
theorem updateComplete : Obligations.UpdateComplete :=
  ⟨fun _ _ => auditFwBegin_completes, fun _ _ => auditFwData_completes,
    fun _ _ _ ha hbank => ⟨auditFwSeal_seals ha hbank, auditFwSeal_refuses ha hbank⟩, fun _ _ => auditFwQuery_completes⟩

end Sys2Proof.CairnProofs
end

section
/-! SUPPORT. What a reset of the host die leaves of the host register window (R487, R536), and what a clear of
RESET_SEEN leaves (R537). -/

namespace Sys2Proof.WindowProofs

open Sys2Proof Sys2Proof.Machine

/-! ### The parts of the state that the window shows, after a reset of the host die -/

/-- Marking what a debug session overlaps changes objects alone. -/
theorem markDebug_if_frame (p : Bool) (s : State) :
    ∃ o : Objects, (if p = true then markDebug s else s) = { s with objs := o } := by
  cases p <;> exact ⟨_, rfl⟩

/-- The record of a debug session that ends waits in transit and shows in no register. -/
theorem resetHost_parts (whole : Bool) (s : State) :
    (resetHost whole s).win = clearWindow s.win ∧ (resetHost whole s).cps = clearCps s.cps ∧
      (resetHost whole s).mbx = { ({} : Mailbox) with
        sbCmdCi := s.mbx.sbCmdCi, sbRespPi := s.mbx.sbRespPi, sbEventPi := s.mbx.sbEventPi
        sbActiveCp := s.mbx.sbActiveCp, sbUpdates := s.mbx.sbUpdates } ∧
      (resetHost whole s).cairn.recovery = false ∧ (resetHost whole s).saddle.hbH2F = false := by
  unfold resetHost
  obtain ⟨o, ho⟩ := markDebug_if_frame s.cairn.dbg.isSome s
  dsimp only
  rw [ho]
  split
  all_goals exact ⟨rfl, rfl, rfl, rfl, rfl⟩

theorem fieldUp_of_no_heartbeat {s : State} (h : s.saddle.hbH2F = false) : fieldUp s = false := by
  simp [fieldUp, h]

/-! ### Words of the window -/

/-- The words that a fresh window and an empty mailbox show as 0. -/
theorem readWord_zero_of_parts {t : State} {w : Window} (hwin : t.win = clearWindow w) (hmbx : mbxStatus t = 0)
    (hblk : t.mbx.statusBlk = 0) :
    ∀ o ∈ [0x8, 0xC, 0x10, 0x14, 0x1004, 0x1008, 0x100C, 0x1200, 0x1208, 0xF800], readWord o t = 0 := by
  simp [readWord, winErr, flag, hwin, hmbx, hblk, clearWindow]

/-- The words of AO-H: what is kept of the window and of the fail-over counters. -/
theorem readWord_kept_of_parts {s t : State} (hwin : t.win = clearWindow s.win) (hcps : t.cps = clearCps s.cps) :
    ∀ o ∈ [0x100, 0x104, 0x108, 0x10C, 0x3004, 0x3008], readWord o t = readWord o s := by
  simp [readWord, hwin, hcps, clearWindow, clearCps]

/-- With the mailbox not ready, Saddle down and no recovery, DEVICE_STATUS shows the throttle step and the bank. -/
theorem deviceStatus_of_quiet {t : State} (hready : t.mbx.ready = false) (hrec : t.cairn.recovery = false)
    (hhb : t.saddle.hbH2F = false) : deviceStatus t = 16 * t.thermal.step + 256 * t.cairn.bank := by
  simp [deviceStatus, fieldUp_of_no_heartbeat hhb, hready, hrec, flag]

theorem failoverStatus_of_clearCps {t : State} {c : Failover} (hcps : t.cps = clearCps c) : failoverStatus t = 0x80 := by
  simp [failoverStatus, hcps, clearCps, StandbyState.number, flag]

theorem resetHost_window (whole : Bool) (s : State) :
    (∀ o ∈ [0x8, 0xC, 0x10, 0x14, 0x1004, 0x1008, 0x100C, 0x1200, 0x1208, 0xF800], readWord o (resetHost whole s) = 0) ∧
      readWord 0x1000 (resetHost whole s) = 0xC67C0000 ∧ readWord 0x1204 (resetHost whole s) = 0xF ∧
      readWord 0x3000 (resetHost whole s) = 0x80 ∧
      readWord 0x4 (resetHost whole s) % 4 = 0 ∧ readWord 0x4 (resetHost whole s) / 8 % 2 = 0 ∧
      (∀ o ∈ [0x100, 0x104, 0x108, 0x10C, 0x3004, 0x3008], readWord o (resetHost whole s) = readWord o s) := by
  obtain ⟨hwin, hcps, hmbx, hrec, hhb⟩ := resetHost_parts whole s
  generalize resetHost whole s = t at *
  have hready : t.mbx.ready = false := by rw [hmbx]
  have hstatus : mbxStatus t = 0 := by simp [mbxStatus, hmbx, flag]
  have hctrl : readWord 0x1000 t = 0xC67C0000 := by
    calc readWord 0x1000 t = mbxCtrl t := rfl
      _ = 0xC67C0000 := by simp [mbxCtrl, hmbx, flag]
  have hblk : t.mbx.statusBlk = 0 := by rw [hmbx]
  have hword : readWord 0x4 t = 16 * t.thermal.step + 256 * t.cairn.bank := deviceStatus_of_quiet hready hrec hhb
  have hmask : readWord 0x1204 t = 0xF := by
    calc readWord 0x1204 t = t.win.intMask.toNat := rfl
      _ = 0xF := by rw [hwin]; rfl
  refine ⟨readWord_zero_of_parts hwin hstatus hblk, hctrl, hmask, failoverStatus_of_clearCps hcps, ?_, ?_,
    readWord_kept_of_parts hwin hcps⟩
  · omega
  · omega

/-! ### A clear of RESET_SEEN -/

/-- RESET_SEEN has the bits 1 to 16, one for each reset code (20). -/
theorem resetSeen_mask_bit {k : Nat} (hlow : 1 ≤ k) (hhigh : k ≤ 16) : (0x1FFFE : BitVec 32).getLsbD k = true := by
  interval_cases k <;> rfl

theorem clearResetSeen_bit (v newer : BitVec 32) (s : State) {k : Nat} (hlow : 1 ≤ k) (hhigh : k ≤ 16) :
    (clearResetSeen v newer s).win.seen.getLsbD k = (s.win.seen.getLsbD k && !v.getLsbD k || newer.getLsbD k) := by
  have hk : k < 32 := by omega
  have hmask := resetSeen_mask_bit hlow hhigh
  simp only [clearResetSeen, BitVec.getLsbD_or, BitVec.getLsbD_and, BitVec.getLsbD_not, hmask, hk, decide_true,
    Bool.and_true, Bool.true_and]

theorem resetSeenClear_completes (v newer : BitVec 32) (s : State) (hup : s.power.hostReset = false) :
    ∃ t : State, exec (.resetSeenClear v newer) s = .next t ∧ t = { s with win := { s.win with seen := t.win.seen } } ∧
      ∀ k : Nat, 1 ≤ k → k ≤ 16 →
        t.win.seen.getLsbD k = (s.win.seen.getLsbD k && !v.getLsbD k || newer.getLsbD k) :=
  ⟨clearResetSeen v newer s, MailboxProofs.windowWrite_up hup, rfl, fun _ hlow hhigh => clearResetSeen_bit v newer s hlow hhigh⟩

end Sys2Proof.WindowProofs
end

section
/-! OBLIGATION PROOFS. The host register window after a reset. -/

namespace Sys2Proof.WindowProofs

open Sys2Proof Sys2Proof.Machine

/-- Settles O58: the parts that the window shows are fresh after a reset of the host die, and those of AO-H kept; a
clear of RESET_SEEN leaves the bits asked out, where no new reset of the same code coincides. -/
theorem windowResets : Obligations.WindowResets := by
  unfold Obligations.WindowResets
  exact ⟨resetHost_window, resetSeenClear_completes⟩

end Sys2Proof.WindowProofs
end
